-- ==== Sys2Proof/Word.lean ====
section
/-! DEFINITION. Word types of the manual's bit-valued quantities (R3, R4, R6): bytes, register words, 64-bit
quantities, and the floating-point encodings as bit strings. -/

namespace Sys2Proof

/-- One byte (R4: fields are little-endian byte strings). -/
abbrev Byte := BitVec 8
/-- A register word (R6). -/
abbrev Word := BitVec 32
/-- A 64-bit quantity. -/
abbrev Word64 := BitVec 64
/-- A byte string: packets, messages, payloads, digests. -/
abbrev Bytes := List (BitVec 8)
/-- An FP32 value by its encoding (R124). -/
abbrev Fp32 := BitVec 32
/-- An FP16 or BF16 value by its encoding. -/
abbrev Fp16 := BitVec 16

end Sys2Proof
end

