-- ==== Sys2Proof/Types.lean ====
section
/-! DEFINITION. The data the block keeps and carries: units and instances, Opvex images as the checks of R413 leave
them, prefix snapshots, checkpoints. Plain data only. -/

namespace Sys2Proof

/-- A table from numbers to values, held as pairs in ascending key order, no key twice. -/
abbrev Tbl (α : Type) := List (Nat × α)

/-- The two control ports (R304). -/
inductive CtlPort where
  | A | B
  deriving DecidableEq, Repr

/-- A window instance: a control port as one host domain sees it (R6, R304). -/
structure Inst where
  port : CtlPort
  domain : Nat
  deriving DecidableEq, Repr

/-- Index 0 to 7 of an instance: ports first, then domains (R317). -/
def Inst.idx (i : Inst) : Nat := (match i.port with | .A => 0 | .B => 4) + i.domain

/-- Units that can fail (Table 15.4, R359) and that are nodes of the wait-for graph (R347). -/
inductive UnitId where
  | hearth (n : Nat) | flue (n : Nat) | grate (n : Nat) | assay (n : Nat) | fpUnit (n : Nat) | damper (n : Nat)
  | prospector | foreman (n : Nat) | detokeniser | arbiter
  deriving DecidableEq, Repr

/-- One edge of the wait-for graph and the device count at which it last appeared (R347, R348). -/
structure WaitEdge where
  src : UnitId
  dst : UnitId
  since : Nat
  deriving DecidableEq, Repr

/-- The outcome of a training or retrain of a link (R290, R291, R294). `degraded1` is x32 or two lanes, `degraded2`
is the 16 GT/s rate of a Shaft port. -/
structure LinkOutcome where
  up : Bool
  degraded1 : Bool
  degraded2 : Bool
  calPass : Bool
  deriving DecidableEq, Repr

/-- Drift message header, Table 13 of chapter 12, less CRC, MTYPE and CLASS, which the row names. -/
structure DriftHdr where
  src : Nat
  dst : Nat
  seq : Nat
  ack : Nat
  epoch : Nat
  ctx : Nat
  gen : Nat
  deriving DecidableEq, Repr

/-! ### Vocabularies (R57) -/

structure VocabEntry where
  off : Nat
  len : Nat
  special : Bool
  deriving DecidableEq, Repr

/-- `pages`: the stack pages that hold the table. -/
structure Vocab where
  entries : List VocabEntry
  heap : Bytes
  abi : Nat × Nat
  digest : Bytes
  pages : List Nat
  deriving DecidableEq, Repr

/-! ### Pattern sets (R71 to R92) -/

structure MatchEntry where
  pattern : Nat
  depth : Nat
  cont : Bool
  deriving DecidableEq, Repr

structure PatState where
  form : Nat
  row : List Nat
  partialDepth : Nat
  newMatch : Bool
  matchIndex : Nat
  matchCount : Nat
  deriving DecidableEq, Repr

structure PatternSet where
  index : Nat
  action : Nat
  input : Bool
  output : Bool
  holdPartial : Bool
  classCount : Nat
  patternCount : Nat
  tier0 : Nat
  tier1 : Nat
  lookbehind : Nat
  fetchBound : Nat
  lookaheadCycles : Nat
  winLength : Nat
  winThreshold : Nat
  winAction : Nat
  winContext : Bool
  classMap : List Nat
  states : List PatState
  matchList : List MatchEntry
  blockMap : List Nat
  deriving DecidableEq, Repr

/-! ### Fingerprint selection (R96, R97, R397) -/

/-- `n` and `vocab`: N and VOCAB of the set when the image was loaded, which a move of pins compares (R98). -/
structure FpEntry where
  set : Nat
  n : Nat
  vocab : Nat
  action : Nat
  input : Bool
  output : Bool
  twoHit : Bool
  spanPrompt : Bool
  lossAsHit : Bool
  deriving DecidableEq, Repr

/-- A normalisation table: per token id the 32-bit entry of R97. -/
structure FpNorm where
  vocab : Nat
  words : List Nat
  deriving DecidableEq, Repr

structure FpSelection where
  entries : List FpEntry
  norms : List FpNorm
  deriving DecidableEq, Repr

/-! ### Models (R127 to R130, R145 to R148) -/

structure Tile where
  layer : Nat
  kBlock : Nat
  nBlock : Nat
  group : Nat
  kValid : Nat
  nValid : Nat
  dataIndex : Nat
  deriving DecidableEq, Repr

structure Layer where
  op : Nat
  func : Nat
  bias : Bool
  adaptable : Bool
  dynScale : Bool
  arg : Nat
  inWidth : Nat
  outWidth : Nat
  source : Nat
  stateOff : Nat
  param : Nat
  deriving DecidableEq, Repr

structure Model where
  flue : Bool
  format : Nat
  ternary : Bool
  token : Bool
  maxChain : Nat
  stride : Nat
  sliceCost : Nat
  depth : Nat
  vstall : Nat
  vectorCycles : Nat
  stateBytes : Nat
  actBytes : Nat
  scoreVar : Fp32
  tiles : List Tile
  tileData : Bytes
  scaleData : Bytes
  modelId : Nat
  layoutId : Nat
  role : Nat
  inlineGov : Bool
  missLimit : Nat
  headClasses : Nat
  params : Bytes
  layers : List Layer
  deriving DecidableEq, Repr

/-! ### Ensembles (R165 to R181) -/

structure EnsClass where
  threshold : Fp32
  bandFixed : Fp32
  base : Fp32
  action : Nat
  deriving DecidableEq, Repr

structure EnsFeature where
  kind : Nat
  reduce : Nat
  streamScope : Bool
  trigger : Bool
  argA : Nat
  argB : Nat
  varMin : Fp32
  deriving DecidableEq, Repr

/-- A tree node. A child with `leaf` set names a leaf (Table 8.7). -/
structure EnsNode where
  threshold : Fp32
  feature : Nat
  defaultLow : Bool
  categorical : Bool
  lowLeaf : Bool
  low : Nat
  highLeaf : Bool
  high : Nat
  deriving DecidableEq, Repr

structure EnsTree where
  cls : Nat
  weight : Fp32
  nodes : List EnsNode
  leaves : List Fp32
  deriving DecidableEq, Repr

structure EnsPage where
  bytes : Nat
  trees : List EnsTree
  catsets : List Bytes
  deriving DecidableEq, Repr

structure Ensemble where
  kind : Nat
  classes : List EnsClass
  features : List EnsFeature
  pages : List EnsPage
  resolvers : List (Nat × Nat)
  boundResolve : Nat
  deriving DecidableEq, Repr

/-! ### The gate image (R226 to R229) -/

structure GatePolicy where
  vocab : Nat
  stops : List Nat
  subst : List Nat
  allowed : List Bytes
  deriving DecidableEq, Repr

structure GrammarState where
  first : Nat
  count : Nat
  accept : Bool
  deriving DecidableEq, Repr

structure GrammarEntry where
  cls : Nat
  op : Nat
  next : Nat
  ret : Nat
  deriving DecidableEq, Repr

structure Grammar where
  index : Nat
  vocab : Nat
  stopOnAccept : Bool
  maxDepth : Nat
  classCount : Nat
  startState : Nat
  classMap : List Nat
  states : List GrammarState
  entries : List GrammarEntry
  deriving DecidableEq, Repr

structure GateImage where
  policies : List GatePolicy
  grammars : List Grammar
  deriving DecidableEq, Repr

/-! ### Installs and adapters (R21, R49, R335, R400) -/

/-- The content of an image by kind (Table 17.9, kinds 0 to 5). -/
inductive ImageBody where
  | patterns (sets : List PatternSet)
  | fpSelect (sel : FpSelection)
  | models (ms : List Model)
  | probes (ms : List Model)
  | ensembles (es : List Ensemble)
  | gate (g : GateImage)
  deriving DecidableEq, Repr

/-- An install of one kind in a context (R335, R399, R400); `tallies` are the Tallies it was bound to, `pages` the stack pages of
the image, `homes` the output engines chosen for each OUTPUT set of a pattern-set image (R88). -/
structure Install where
  num : Nat
  version : List Nat
  abi : Nat × Nat
  boundG : Nat
  boundC : Nat
  tallyCount : Nat
  tallies : List Nat
  available : Nat
  digest : Bytes
  imageBytes : Nat
  body : ImageBody
  pages : List Nat
  homes : List (Nat × List Nat)
  deriving DecidableEq, Repr

structure Adapter where
  target : Nat
  rank : Nat
  alpha : Fp32
  sliceCostAdd : Nat
  blocksAdd : Nat
  targets : List (Nat × Nat × Nat)
  tiles : List Tile
  tileData : Bytes
  scaleData : Bytes
  deriving DecidableEq, Repr

/-- A live adapter version of a slot (R49, R50). -/
structure AdapterVersion where
  version : Nat
  available : Nat
  withdrawn : Bool
  abi : Nat × Nat
  digest : Bytes
  body : Adapter
  pages : List Nat
  deriving DecidableEq, Repr

/-! ### Screening state of a stream, as checkpoints and snapshots carry it (R44, R252) -/

/-- A fingerprint window of one set and side (R98): canonical ids with their tokens' positions, oldest first, and
LAST_HIT. -/
structure FpWindow where
  ids : List (Nat × Nat)
  lastHit : Bool
  deriving DecidableEq, Repr

/-- A counting window of a set (R79, R80): its index, its count, and whether the rule has fired in it. -/
structure WinCount where
  idx : Nat
  count : Nat
  fired : Bool
  deriving DecidableEq, Repr

/-- State of one model of a stream (R150, R151): FP32 words, tokens taken since the last position, run count. -/
structure ModelState where
  words : List Fp32
  toks : List Nat
  count : Nat
  deriving DecidableEq, Repr

/-- A STREAM-scope accumulator (R169): how many values, the last, the largest, the sum. -/
structure Accum where
  n : Nat
  last : Fp32
  max : Fp32
  sum : Fp32
  deriving DecidableEq, Repr

/-- A grammar configuration (R202, R203): index 0 is none. -/
structure GramCfg where
  sel : Nat
  state : Nat
  stack : List Nat
  deriving DecidableEq, Repr

/-- One rollback ring entry, Table 10.5. -/
structure RingEntry where
  position : Nat
  token : Nat
  committed : Bool
  held : Bool
  drafted : Bool
  hostDraft : Bool
  popped : Option Nat
  gram : Nat × Nat × Nat
  lastHits : List Bool
  outStates : List (Nat × Nat)
  byteEnd : Nat
  outputCount : Nat
  deriving DecidableEq, Repr

/-- The screening state that checkpoints and snapshots record (R44, R252). -/
structure Screen where
  inStates : Tbl Nat
  outStates : Tbl Nat
  windows : Tbl WinCount
  inFp : Tbl FpWindow
  outFp : Tbl FpWindow
  normIds : List Nat
  byteCount : Nat
  outTok : List (Nat × Nat)
  inTok : List (Nat × Nat)
  gram : GramCfg
  models : Tbl ModelState
  settle : Tbl Nat
  summary : List Fp32
  accums : Tbl Accum
  reqPending : List Nat
  ring : Tbl RingEntry
  outputCount : Nat
  source : Option Nat
  draftLen : Nat
  missCount : Nat
  held : List Nat
  origin : Nat
  deriving DecidableEq, Repr

/-- A prefix snapshot (R44) with its key and use order (R48): the state after the prefix, and that before its held tokens. -/
structure Snapshot where
  ctx : Nat
  gen : Nat
  handle : Nat
  vocab : Nat
  length : Nat
  heldIds : List Nat
  digest : Bytes
  imagePins : List Nat
  adapterPins : List (Nat × Nat)
  screen : Screen
  atCommit : Screen
  log : List Nat
  index : Tbl Nat
  bytes : Nat
  lastRestore : Nat
  readers : Nat
  pages : List Nat
  deriving DecidableEq, Repr

/-- A checkpoint of a stream (R252), with the trigger position it records. -/
structure Checkpoint where
  pos : Nat
  screen : Screen
  deriving DecidableEq, Repr

/-- What a CHECKPOINT transfer carries beside its byte count (R300): the checkpoint, the stream's entry data that
the peer needs, the context's settings and the measurement digests of the pinned images and adapters. -/
structure Replica where
  dev : Nat
  stream : Nat
  ctx : Nat
  gen : Nat
  vocab : Nat
  pos : Nat
  ckpt : Checkpoint
  settings : List Nat
  digests : List Bytes
  log : List Nat
  logCount : Nat
  index : Tbl Nat
  pages : List Nat
  deriving DecidableEq, Repr

/-- What ECC says of an access (R255): nothing, a corrected error, or an uncorrectable error in a stack page or in a 4 KiB Seam
page of a scope of Table 11.7. -/
inductive Ecc where
  | clean
  | corrected
  | stack (page : Nat)
  | seam (scope page : Nat)
  deriving DecidableEq, Repr

/-- What a row of an engine names (an item, a context, a place, a number of tokens), and what ECC says of the access (R255). -/
structure Access where
  num : Nat
  err : Ecc
  deriving DecidableEq, Repr

/-- What the reads of a commit step meet: of the rollback ring (R244, R245), and of the pattern tables (R94). -/
structure CommitErrs where
  ring : Ecc
  err : Ecc
  deriving DecidableEq, Repr

/-- A packet that a port's way down cuts: flits received or sent so far, and its virtual channel; no packet when no flit is (R292). -/
structure PartPacket where
  flits : Nat
  vc : Nat
  deriving DecidableEq, Repr

/-- The end of a Shaft port's retrain, and the packet that a failed one cuts. -/
structure RetrainEnd where
  link : LinkOutcome
  part : PartPacket
  deriving DecidableEq, Repr

/-- A PORT_HOLD message, and the packet that holding the port cuts. -/
structure HoldMsg where
  bytes : Bytes
  part : PartPacket
  deriving DecidableEq, Repr

/-- Credits that a Drift CREDIT returns by class, and the contexts whose CKPT_SEAL found no room at the peer (R297, R300). -/
structure DriftReturn where
  units : List Nat
  refused : List Nat
  deriving DecidableEq, Repr

end Sys2Proof
end

