-- ==== Sys2Proof/Syntax.lean ====
section
/-! DEFINITION. The commands of the block, one constructor for each row of spec/opcode_table.json. Every command
begins with `t`, the device count at which it arrives (log 1). Packets, transactions and management messages are their
bytes; an item, a transfer or a hang is named by its serial number (log 6); what comes from a sensor, a training or an
internal occasion that the manual leaves to the device is an operand. -/

namespace Sys2Proof

inductive Instr where
  /-- ADMIT (R31): An ADMIT packet received on a Shaft port is stamped and checked, and the stream is admitted or refused; the answer is a zero-token RELEASE_IN. -/
  | admitPacket (t : Nat) (port : Nat) (pkt : Bytes)
  /-- CHUNK (R54): A CHUNK packet is stamped and checked at its stamp; if accepted, the intake position advances and screening of the chunk begins. -/
  | chunk (t : Nat) (port : Nat) (pkt : Bytes)
  /-- TAP (R158): A TAP packet is stamped, then either staged on the stream's home Flue or discarded and counted. -/
  | tap (t : Nat) (port : Nat) (pkt : Bytes)
  /-- CANDIDATES (R196): A CANDIDATES item is stamped and checked; if accepted, its positions are dispatched to the mask stages. -/
  | candidates (t : Nat) (port : Nat) (pkt : Bytes)
  /-- CREDIT (R279): A CREDIT packet from the host advertises credits or returns them for the domain's MEM_REQ and RELEASE channels. -/
  | credit (t : Nat) (port : Nat) (pkt : Bytes)
  /-- IDLE (R285): An IDLE flit received on a Shaft port is discarded. -/
  | idle (t : Nat) (port : Nat) (pkt : Bytes)
  /-- READ (R287): A host memory READ transaction on stack 1 is decoded to a control window or the host-directed region and completed. -/
  | read (t : Nat) (port : Nat) (pkt : Bytes)
  /-- WRITE (R287): A posted host memory WRITE transaction is decoded and applied, or dropped and counted. -/
  | write (t : Nat) (port : Nat) (pkt : Bytes)
  /-- COMPLETION (R289): The host's completion of a Giduster bulk read delivers payload data, or ends the command with E_TRANSFER. -/
  | completion (t : Nat) (port : Nat) (pkt : Bytes)
  /-- BULK_READ_TIMEOUT (R289): A bulk read not completed 1.00 ms after issue ends its command with E_TRANSFER, or is completed with E_CONTEXT and absorbed if it is orphaned. -/
  | bulkReadTimeout (t : Nat) (dom : Nat) (tag : Nat)
  /-- CHUNK_RELEASE_TIME (R63): At stamp + D_c the chunk's disposition is decided by its final verdict, or the late policy applies. -/
  | chunkReleaseTime (t : Nat) (item : Nat)
  /-- CANDIDATES_RELEASE_TIME (R223): At stamp + D_g the item's RELEASE_OUT is sent if the item is ready; otherwise the late policy applies. -/
  | candidatesReleaseTime (t : Nat) (item : Nat)
  /-- RUN_END (R215): At the ending event + D_g, a RUN_END RELEASE_OUT resolves held tokens for a run ended by a CHUNK, by STREAM_CLOSE or by a request BLOCK. -/
  | runEnd (t : Nat) (stream : Nat)
  /-- INTAKE_TASK_COMPLETE (R86): A Grate intake task finishes stepping one input set over a chunk and delivers its match events and partial depth. -/
  | intakeTaskComplete (t : Nat) (item : Nat) (set : Nat) (fetches : List Nat) (err : Ecc)
  /-- LOOKUP_RETURN (R102): A fingerprint lookup returns HIT, MISS or LOST from both buckets, and the hit actions and masks apply. -/
  | lookupReturn (t : Nat) (item : Nat) (idx : Nat) (err1 : Ecc) (err2 : Ecc)
  /-- LOOKAHEAD_TASK_COMPLETE (R82): A lookahead task finishes stepping one candidate and returns its masked bit or STOP report and its end state to the Damper. -/
  | lookaheadTaskComplete (t : Nat) (item : Nat) (pos : Nat) (token : Nat) (set : Nat) (err : Ecc)
  /-- DECIDE_STAGE (R219): The Damper decides one position: it merges masks, checks exhaustion, sorts, runs the acceptance test, samples, checks stops and writes the commit record. -/
  | decideStage (t : Nat) (item : Access)
  /-- COMMIT_STEP (R84): When the commit step completes, committed states and events are updated, the hold point is computed and the ring is updated. -/
  | commitStep (t : Nat) (item : Nat) (errs : CommitErrs)
  /-- GATE_EVALUATION (R191): An Assay gate evaluation of an INPUT or OUTPUT ensemble completes and gives the item's verdict, which may be UNDECIDED. -/
  | gateEvaluation (t : Nat) (item : Nat) (err : Ecc)
  /-- RESOLVER_SCORE (R184): A W8A8 resolver score completes, and the ensemble is evaluated again for the UNDECIDED item. -/
  | resolverScore (t : Nat) (item : Nat) (model : Nat) (idx : Access)
  /-- FIRING (R134): At each 5 µs firing boundary, slice scores of the ending firing become available and eligible slices are packed onto pool engines. -/
  | firing (t : Nat) (errs : List (Nat × Ecc))
  /-- GATE_PASS_TICK (R133): At each 0.5 µs tick, gate engines start a pass of TOKEN Hearth models carrying the pending positions. -/
  | gatePassTick (t : Nat) (ctx : Access)
  /-- FLUE_PASS_END (R139): A Flue model pass ends; its results become complete and the next pass starts if positions are pending. -/
  | fluePassEnd (t : Nat) (flue : Nat) (ctx : Nat) (model : Nat) (err : Ecc)
  /-- TAP_SKEW_DEADLINE (R162): The serving item's stamp + the skew allowance passes, and the probe becomes runnable with its unarrived slots absent. -/
  | tapSkewDeadline (t : Nat) (item : Nat) (pos : Nat)
  /-- PROPOSAL_CUTOFF (R232): At stamp + D_g − 0.05 µs the proposal is fixed to the tokens whose pre-screen bound lies at or before the cutoff. -/
  | proposalCutoff (t : Nat) (item : Nat) (completed : Access)
  /-- REQUEST_EVALUATION_COMPLETE (R189): A request evaluation completes; a VERDICT event is posted and a BLOCK applies REQUEST_BLOCK_ACTION. -/
  | requestEvaluationComplete (t : Nat) (stream : Nat) (err : Ecc)
  /-- CHECKPOINT_WRITE_COMPLETE (R253): A checkpoint capture reaches the stacks, CHECKPOINT_POS and CHECKPOINT_VALID are updated, and any pending capture starts. -/
  | checkpointWriteComplete (t : Nat) (stream : Nat)
  /-- SNAPSHOT_WRITE_COMPLETE (R45): A prefix snapshot write completes, replaces any old snapshot under its key, and posts a SNAPSHOT event. -/
  | snapshotWriteComplete (t : Nat) (stream : Nat) (err : Bool)
  /-- SNAPSHOT_RESTORE_COMPLETE (R56): A snapshot restore completes, and the intake position, LENGTH_PTR and COMMIT_PTR advance by the prefix. -/
  | snapshotRestoreComplete (t : Nat) (stream : Nat) (err : Ecc)
  /-- WARM_IN (R43): A cold stream's state is brought onto the die and the stream becomes hot. -/
  | warmIn (t : Nat) (stream : Nat)
  /-- COOL_TIME (R43): Under SWAPPED, a stream idle for the cool time gives up its hot slot when another stream of its context needs one. -/
  | coolTime (t : Nat) (stream : Nat)
  /-- STREAM_CLOSED (R38): A DRAINING or FAULTED stream meets its closing conditions and moves to CLOSED. -/
  | streamClosed (t : Nat) (stream : Nat)
  /-- STREAM_RESTORE_COMPLETE (R246): A faulted stream's restore from its checkpoint and token replay completes, and the stream resumes. -/
  | streamRestoreComplete (t : Nat) (stream : Nat)
  /-- TRANSFER_ABSORBED (R270): An orphaned transfer completes and is absorbed, and the context's orphan count falls. -/
  | transferAbsorbed (t : Nat) (xfer : Nat)
  /-- ZEROING_COMPLETE (R258): A released page finishes zeroing and leaves TRANSIT. -/
  | zeroingComplete (t : Nat) (page : Nat)
  /-- IMAGE_LOAD_COMPLETE (R21): An image's load, signature check and measurement complete; it becomes available for pinning and its command completes. -/
  | imageLoadComplete (t : Nat) (inst : Inst)
  /-- FP_SWEEP_COMPLETE (R106): The sweep of a committed fingerprint epoch completes and an FP_EPOCH event is posted. -/
  | fpSweepComplete (t : Nat)
  /-- DEVICE_QUERY (R327): DEVICE_QUERY returns versions, stepping, mode and epochs. -/
  | deviceQuery (t : Nat) (inst : Inst)
  /-- LAYOUT_SET (R250): LAYOUT_SET writes the stack layout record, which takes effect at the next Foreman start. -/
  | layoutSet (t : Nat) (inst : Inst)
  /-- CONTEXT_CREATE (R27): CONTEXT_CREATE opens a FREE context id with its capacity reservation. -/
  | contextCreate (t : Nat) (inst : Inst)
  /-- CONTEXT_CLOSE (R27): CONTEXT_CLOSE moves an OPEN context to CLOSING. -/
  | contextClose (t : Nat) (inst : Inst)
  /-- CONTEXT_RESET (R346): CONTEXT_RESET freezes the context, cancels its Tallies, removes its work and faults its streams. -/
  | contextReset (t : Nat) (inst : Inst)
  /-- CONTEXT_SET (R329): CONTEXT_SET changes one context setting from EFFECT_STAMP. -/
  | contextSet (t : Nat) (inst : Inst)
  /-- CONTEXT_QUERY (R330): CONTEXT_QUERY writes the context record to the result buffer. -/
  | contextQuery (t : Nat) (inst : Inst)
  /-- CAPACITY_SET (R30): CAPACITY_SET changes a context's capacity reservation. -/
  | capacitySet (t : Nat) (inst : Inst)
  /-- STREAM_ADMIT (R31): STREAM_ADMIT admits a stream through a control port. -/
  | streamAdmit (t : Nat) (inst : Inst)
  /-- STREAM_CLOSE (R41): STREAM_CLOSE moves a live stream to DRAINING with close reason HOST_CLOSE. -/
  | streamClose (t : Nat) (inst : Inst)
  /-- STREAM_HOLD (R41): STREAM_HOLD sets the HOST cause and moves the stream to HELD. -/
  | streamHold (t : Nat) (inst : Inst)
  /-- STREAM_RESUME (R41): STREAM_RESUME clears the HOST cause. -/
  | streamResume (t : Nat) (inst : Inst)
  /-- STREAM_SET (R36): STREAM_SET changes a live stream's priority, deadline, length limit, FOLLOW or DRAFT_EN. -/
  | streamSet (t : Nat) (inst : Inst)
  /-- STREAM_QUERY (R331): STREAM_QUERY returns a consistent copy of a stream table entry. -/
  | streamQuery (t : Nat) (inst : Inst)
  /-- PREFIX_DROP (R332): PREFIX_DROP deletes one prefix snapshot. -/
  | prefixDrop (t : Nat) (inst : Inst)
  /-- IMAGE_STAGE (R334): IMAGE_STAGE appends to, empties or discards a staging buffer. -/
  | imageStage (t : Nat) (inst : Inst)
  /-- IMAGE_INSTALL (R21): IMAGE_INSTALL checks and loads a screening image for a context. -/
  | imageInstall (t : Nat) (inst : Inst)
  /-- IMAGE_QUERY (R335): IMAGE_QUERY returns the install record. -/
  | imageQuery (t : Nat) (inst : Inst)
  /-- VOCAB_LOAD (R57): VOCAB_LOAD loads, replaces or unloads a vocabulary. -/
  | vocabLoad (t : Nat) (inst : Inst)
  /-- ADAPTER_SLOT_ALLOC (R333): ADAPTER_SLOT_ALLOC assigns the lowest free adapter slot to a context. -/
  | adapterSlotAlloc (t : Nat) (inst : Inst)
  /-- ADAPTER_SLOT_FREE (R333): ADAPTER_SLOT_FREE deletes a slot's versions and frees the slot. -/
  | adapterSlotFree (t : Nat) (inst : Inst)
  /-- ADAPTER_PUBLISH (R49): ADAPTER_PUBLISH adds a new adapter version to a slot. -/
  | adapterPublish (t : Nat) (inst : Inst)
  /-- ADAPTER_WITHDRAW (R50): ADAPTER_WITHDRAW makes an adapter version unavailable for new pins. -/
  | adapterWithdraw (t : Nat) (inst : Inst)
  /-- TAP_NORM_LOAD (R160): TAP_NORM_LOAD loads a normalisation bank for a domain and slot. -/
  | tapNormLoad (t : Nat) (inst : Inst)
  /-- FP_SET_DEFINE (R95): FP_SET_DEFINE defines a fingerprint set. -/
  | fpSetDefine (t : Nat) (inst : Inst)
  /-- FP_EPOCH_OPEN (R104): FP_EPOCH_OPEN opens a fingerprint store epoch, optionally forwarded to peers. -/
  | fpEpochOpen (t : Nat) (inst : Inst)
  /-- FP_UPDATE (R104): FP_UPDATE applies insert and delete records to the open epoch. -/
  | fpUpdate (t : Nat) (inst : Inst)
  /-- FP_EPOCH_COMMIT (R106): FP_EPOCH_COMMIT commits the epoch at its EFFECT_STAMP and starts the sweep. -/
  | fpEpochCommit (t : Nat) (inst : Inst)
  /-- FP_EPOCH_ABORT (R106): FP_EPOCH_ABORT restores every touched bucket to its old view. -/
  | fpEpochAbort (t : Nat) (inst : Inst)
  /-- FP_QUERY (R336): FP_QUERY returns the store epoch, its state and its counts. -/
  | fpQuery (t : Nat) (inst : Inst)
  /-- TALLY_ALLOC (R337): TALLY_ALLOC allocates a run of Tallies to a context. -/
  | tallyAlloc (t : Nat) (inst : Inst)
  /-- TALLY_FREE (R337): TALLY_FREE frees a Tally. -/
  | tallyFree (t : Nat) (inst : Inst)
  /-- TALLY_SET (R337): TALLY_SET sets a Tally's COUNT. -/
  | tallySet (t : Nat) (inst : Inst)
  /-- TALLY_READ (R337): TALLY_READ returns a Tally's COUNT, waiters and OVERFLOW. -/
  | tallyRead (t : Nat) (inst : Inst)
  /-- CANARY_SET (R338): CANARY_SET sets the hang THRESHOLD. -/
  | canarySet (t : Nat) (inst : Inst)
  /-- FAULT_QUERY (R338): FAULT_QUERY returns the failed-unit bitmaps and fault flags. -/
  | faultQuery (t : Nat) (inst : Inst)
  /-- ASHPIT_READ (R339): ASHPIT_READ returns an Ashpit record header. -/
  | ashpitRead (t : Nat) (inst : Inst)
  /-- COUNTER_READ (R340): COUNTER_READ returns context, domain or device counters. -/
  | counterRead (t : Nat) (inst : Inst)
  /-- TELEMETRY_READ (R338): TELEMETRY_READ returns temperature, power and VID telemetry. -/
  | telemetryRead (t : Nat) (inst : Inst)
  /-- DRIFT_PEER_STATE (R302): DRIFT_PEER_STATE declares a peer DEAD or ALIVE, or forgets its replicas. -/
  | driftPeerState (t : Nat) (inst : Inst)
  /-- SNAPSHOT_MIGRATE (R301): SNAPSHOT_MIGRATE sends a prefix snapshot to a peer. -/
  | snapshotMigrate (t : Nat) (inst : Inst)
  /-- SNAPSHOT_MIGRATE_OUTCOME (R301): The peer's outcome of a snapshot migration returns and the command completes. -/
  | snapshotMigrateOutcome (t : Nat) (inst : Inst) (code : Nat)
  /-- STREAM_TAKEOVER (R302): STREAM_TAKEOVER admits a local stream from a dead peer's replica and replays its tokens. -/
  | streamTakeover (t : Nat) (inst : Inst)
  /-- CMD_TAIL (R311): A write of CMD_TAIL rings the doorbell and makes commands fetchable. -/
  | cmdTail (t : Nat) (port : Nat) (ctl : CtlPort) (value : Word)
  /-- CPL_HEAD (R311): A write of CPL_HEAD frees completion entries. -/
  | cplHead (t : Nat) (port : Nat) (ctl : CtlPort) (value : Word)
  /-- EVT_HEAD (R311): A write of EVT_HEAD frees event queue entries. -/
  | evtHead (t : Nat) (port : Nat) (ctl : CtlPort) (value : Word)
  /-- FLUSH (R261): A write of 1 to Q_CTRL FLUSH requests a queue flush and sets FLUSH_PENDING. -/
  | flush (t : Nat) (port : Nat) (ctl : CtlPort) (queue : Nat)
  /-- FLUSH_DISCARD (R261): At the next packet boundary the flush discards the queued whole packets and clears FLUSH_PENDING. -/
  | flushDiscard (t : Nat) (inst : Inst) (queue : Nat)
  /-- ACQUIRE (R308): A LAMP_CTRL ACQUIRE grants, renews or refuses the Lamp. -/
  | acquire (t : Nat) (port : Nat) (ctl : CtlPort) (owner : Nat)
  /-- RELEASE (R308): A LAMP_CTRL RELEASE frees the Lamp or is refused. -/
  | release (t : Nat) (port : Nat) (ctl : CtlPort) (owner : Nat)
  /-- BREAK (R308): A LAMP_CTRL BREAK takes over an expired Lamp held from the other port. -/
  | breakLamp (t : Nat) (port : Nat) (ctl : CtlPort) (owner : Nat)
  /-- LAMP_EXPIRY (R308): The device count reaches EXPIRY; EXPIRED is set and a LAMP event is queued. -/
  | lampExpiry (t : Nat)
  /-- LEDGER_TOTAL_READ (R269): A read of LEDGER_TOTAL captures the other ledger terms into the instance's shadow. -/
  | ledgerTotalRead (t : Nat) (port : Nat) (ctl : CtlPort)
  /-- LOW_WORD_READ (R6): A read of the low word of a 64-bit register captures its high word into the instance's shadow. -/
  | lowWordRead (t : Nat) (port : Nat) (ctl : CtlPort) (off : Nat)
  /-- REGISTER_WRITE (R5): A write to any other register field acts as its access code defines. -/
  | registerWrite (t : Nat) (port : Nat) (ctl : CtlPort) (off : Nat) (value : Word)
  /-- SIGNAL (R264): A Tally SIGNAL raises COUNT and serves waiters in arrival order. -/
  | signal (t : Nat) (foreman : Bool) (req : Nat) (ctx : Nat) (tally : Nat) (n : Nat)
  /-- CONSUME (R264): A Tally CONSUME lowers COUNT, or queues the issuer on the wait list. -/
  | consume (t : Nat) (foreman : Bool) (req : Nat) (ctx : Nat) (tally : Nat) (n : Nat)
  /-- CANARY_EVALUATION (R348): The Canary evaluates wait-for edges and declares a hang when a cycle's age reaches THRESHOLD. -/
  | canaryEvaluation (t : Nat) (edges : List WaitEdge) (work : List (UnitId × Nat))
  /-- ASHPIT_CAPTURE_COMPLETE (R350): The Ashpit capture of a fault or hang is complete in the stacks. -/
  | ashpitCaptureComplete (t : Nat) (record : Nat) (bytes : Nat)
  /-- SUSPECT_RESET_COMPLETE (R352): The suspect resets complete and replay of the first suspect starts. -/
  | suspectResetComplete (t : Nat) (hang : Nat)
  /-- REPLAY_PASS (R354): A suspect's replay completes without a hang; its REPLAY causes clear and the next suspect replays. -/
  | replayPass (t : Nat) (hang : Nat)
  /-- REPLAY_TIMEOUT (R354): A replay not passed within 2 × THRESHOLD + 1.00 ms hangs again, and its suspect is reset. -/
  | replayTimeout (t : Nat) (hang : Nat)
  /-- FOREMAN_FAILURE (R355): A Foreman failure or Foreman hang restarts the Foreman alone. -/
  | foremanFailure (t : Nat)
  /-- FOREMAN_RESTART_COMPLETE (R355): The Foreman restart completes and command execution resumes. -/
  | foremanRestartComplete (t : Nat) (ok : Bool)
  /-- UNIT_INTERNAL_ERROR (R356): A unit reports an internal error and is declared failed and fenced. -/
  | unitInternalError (t : Nat) (unit : UnitId)
  /-- HEARTBEAT_MISS (R356): A unit that misses a Headframe heartbeat for 10.00 µs is declared failed. -/
  | heartbeatMiss (t : Nat) (unit : UnitId)
  /-- REMAP_COMPLETE (R358): The work of a failed unit has been placed on the remaining units, and affected items have restarted. -/
  | remapComplete (t : Nat) (unit : UnitId)
  /-- RECOVERY_COMPLETE (R360): Device recovery completes; DEVICE_MODE returns to NORMAL, RECOVERED is set and FAULT_N is released. -/
  | recoveryComplete (t : Nat) (stacksOk : Bool) (failed : List UnitId) (badInstalls : List (Nat × Nat × Nat))
  /-- LEDGER_QUIESCE_TIMEOUT (R268): A ledger that has not balanced 1 ms after a quiesce sets LEDGER_FAULT. -/
  | ledgerQuiesceTimeout (t : Nat)
  /-- SCRUB (R257): The daily scrub pass of both stacks corrects single-bit errors and poisons pages with uncorrectable errors. -/
  | scrub (t : Nat) (corrected : Nat) (bad : List Nat)
  /-- DORMANT_ENTRY (R375): After 10 ms without activity the device enters DORMANT. -/
  | dormantEntry (t : Nat)
  /-- ROW_POWER_GATE (R136): A Hearth row that is not required powered is power-gated after 200 µs without a packed slice. -/
  | rowPowerGate (t : Nat) (row : Nat)
  /-- ROW_WAKE_COMPLETE (R373): A waking Hearth row becomes ACTIVE. -/
  | rowWakeComplete (t : Nat) (row : Nat)
  /-- VID_STEP (R380): CORE_VID moves one step toward its target code, no sooner than 100 µs after the previous step. -/
  | vidStep (t : Nat)
  /-- SENSOR_SAMPLE (R381): The junction sensors are sampled, which updates the thermal flags and may assert THERM_TRIP_N. -/
  | sensorSample (t : Nat) (sites : List (Option Int × Option Int))
  /-- THERMAL_RELEASE (R365): After 100 ms below 100 °C, THERM_TRIP_N is released and recovery continues. -/
  | thermalRelease (t : Nat)
  /-- BLK_PORST_ASSERT (R408): Assertion of BLK_PORST_N resets the whole block. -/
  | blkPorstAssert (t : Nat)
  /-- BLK_PORST_RELEASE (R408): Release of BLK_PORST_N starts power-on boot. -/
  | blkPorstRelease (t : Nat)
  /-- DEVICE_COUNT_START (R370): The Pilot multiplier locks and the device count starts at 0. -/
  | deviceCountStart (t : Nat)
  /-- BLK_WARM_ASSERT (R409): Assertion of BLK_WARM_N declares a device fault. -/
  | blkWarmAssert (t : Nat)
  /-- BLK_WARM_RELEASE (R409): Release of BLK_WARM_N lets a paused recovery continue. -/
  | blkWarmRelease (t : Nat)
  /-- PILOT_REFCLK_LOSS (R371): No PILOT_REFCLK edge for 200 ns stops the device count and asserts FAULT_N until BLK_PORST_N. -/
  | pilotRefclkLoss (t : Nat)
  /-- DRIFT_REFCLK_LOSS (R404): Loss of DRIFT_REFCLK takes every Drift port DOWN. -/
  | driftRefclkLoss (t : Nat)
  /-- BOOT_COMPLETE (R390): Power-on boot reaches NORMAL and sends the BOOT report. -/
  | bootComplete (t : Nat) (zqOk : Bool) (capacityOk : Bool) (failed : List UnitId)
  /-- SHAFT_TRAINING_START (R290): A DOWN Shaft port with a present partner and enabled begins training. -/
  | shaftTrainingStart (t : Nat) (port : Nat)
  /-- SHAFT_TRAINING_COMPLETE (R290): A Shaft port completes training, becomes ACTIVE and, at a domain's first training, sends its INIT credits. -/
  | shaftTrainingComplete (t : Nat) (port : Nat) (out : LinkOutcome)
  /-- SHAFT_RETRAIN (R290): A Shaft port enters RETRAIN and pauses traffic. -/
  | shaftRetrain (t : Nat) (port : Nat)
  /-- SHAFT_RETRAIN_COMPLETE (R291): A Shaft retrain ends, applies pending corrections and returns the port to ACTIVE, or to DOWN. -/
  | shaftRetrainComplete (t : Nat) (port : Nat) (out : RetrainEnd)
  /-- SHAFT_LINK_FAILURE (R292): A Shaft port goes DOWN; partial packets are discarded or resent. -/
  | shaftLinkFailure (t : Nat) (port : Nat) (partFlits : Nat) (partVc : Nat)
  /-- IDLE_RETRAIN_REQUEST (R291): After 10.00 µs of IDLE only, a port with a pending correction requests an idle retrain. -/
  | idleRetrainRequest (t : Nat) (port : Nat)
  /-- CREDIT_INIT_TIMEOUT (R278): A host that has not sent INIT credits within 10.00 µs leaves its port in TRAINING, and the port is reported. -/
  | creditInitTimeout (t : Nat) (port : Nat)
  /-- CREDIT_RETURN (R279): Freed receive credits are returned in a CREDIT packet at 256 flits, or 0.10 µs after the oldest was freed. -/
  | creditReturn (t : Nat) (dom : Nat)
  /-- SHAFT_STALL (R280): A domain without RELEASE credit for 1.00 ms is reported as SHAFT_STALL. -/
  | shaftStall (t : Nat) (dom : Nat)
  /-- DRIFT_TRAINING_COMPLETE (R294): A Drift port completes training and sends HELLO. -/
  | driftTrainingComplete (t : Nat) (q : Nat) (out : LinkOutcome)
  /-- HELLO (R295): A received HELLO is checked against the routing table; a mismatch holds the port down. -/
  | hello (t : Nat) (q : Nat) (dev : Nat) (board : Nat) (epoch : Nat)
  /-- DRIFT_CREDIT (R297): A Drift CREDIT message returns message credits and acknowledges. -/
  | driftCredit (t : Nat) (q : Nat) (ack : Nat) (returned : DriftReturn)
  /-- NAK (R297): A received NAK makes the sender replay from the named SEQ. -/
  | nak (t : Nat) (q : Nat) (seq : Nat)
  /-- ACK_TIMEOUT (R297): Without ACK progress for 10.00 µs, the sender replays from the oldest unacknowledged message. -/
  | ackTimeout (t : Nat) (q : Nat)
  /-- IDLE_GAP_CREDIT (R297): A receiver sends an acknowledging CREDIT at least every 5.00 µs. -/
  | idleGapCredit (t : Nat) (q : Nat)
  /-- DRIFT_DARK (R298): Loss of alignment, or 1.00 µs without a valid codeword, makes a Drift port DARK; unsealed transfers are discarded. -/
  | driftDark (t : Nat) (q : Nat)
  /-- FP_RECORD (R113): A forwarded fingerprint record is staged in the peer's forwarded epoch. -/
  | fpRecord (t : Nat) (q : Nat) (hdr : DriftHdr) (epoch : Nat) (recs : List Bytes)
  /-- FP_COMMIT (R113): A forwarded commit commits the staged epoch at the peer's own device count, or aborts it if records are missing. -/
  | fpCommit (t : Nat) (q : Nat) (hdr : DriftHdr) (epoch : Nat) (count : Nat)
  /-- FP_ABORT (R113): A forwarded abort discards the staged epoch. -/
  | fpAbort (t : Nat) (q : Nat) (hdr : DriftHdr) (epoch : Nat)
  /-- SNAP_DATA (R299): A SNAP_DATA message adds bytes to a snapshot transfer. -/
  | snapData (t : Nat) (q : Nat) (hdr : DriftHdr) (xfer : Nat) (off : Nat) (len : Nat)
  /-- SNAP_SEAL (R301): A SNAP_SEAL applies a migrated snapshot if it is complete and matches, and returns the outcome. -/
  | snapSeal (t : Nat) (q : Nat) (hdr : DriftHdr) (xfer : Nat) (snap : Snapshot) (destDom : Nat) (destCtx : Nat) (digests : List Bytes)
  /-- CKPT_DATA (R299): A CKPT_DATA message adds bytes to a checkpoint replica transfer. -/
  | ckptData (t : Nat) (q : Nat) (hdr : DriftHdr) (xfer : Nat) (stream : Nat) (off : Nat) (len : Nat)
  /-- CKPT_SEAL (R300): A CKPT_SEAL stores a complete checkpoint replica, or is discarded when no room is left. -/
  | ckptSeal (t : Nat) (q : Nat) (hdr : DriftHdr) (xfer : Nat) (len : Nat) (rep : Replica)
  /-- CKPT_DROP (R299): A CKPT_DROP discards the replica of a stream and its unsealed transfer. -/
  | ckptDrop (t : Nat) (q : Nat) (hdr : DriftHdr) (stream : Nat)
  /-- BUNDLE_WRITE (R386): BUNDLE_WRITE appends bytes to the STAGED bundle slot. -/
  | bundleWrite (t : Nat) (msg : Bytes)
  /-- BUNDLE_COMMIT (R388): BUNDLE_COMMIT checks the staged bundle and marks it COMMITTED. -/
  | bundleCommit (t : Nat) (msg : Bytes)
  /-- BUNDLE_STATUS (R385): BUNDLE_STATUS returns the active versions and the staged state. -/
  | bundleStatus (t : Nat) (msg : Bytes)
  /-- DOMAIN_MAP_SET (R275): DOMAIN_MAP_SET writes the host domain map. -/
  | domainMapSet (t : Nat) (msg : Bytes)
  /-- ROUTING_SET (R295): ROUTING_SET writes the Drift routing table. -/
  | routingSet (t : Nat) (msg : Bytes)
  /-- PORT_HOLD (R385): PORT_HOLD holds a port in HELD_DOWN or releases it. -/
  | portHold (t : Nat) (msg : HoldMsg)
  /-- POLICY_ROOT_SET (R385): POLICY_ROOT_SET enrols or clears a policy root key. -/
  | policyRootSet (t : Nat) (msg : Bytes)
  /-- RECOVER (R385): RECOVER is answered OK and then declares a device fault. -/
  | recover (t : Nat) (msg : Bytes)
  /-- ASHPIT_FETCH (R351): ASHPIT_FETCH returns up to 4 KiB of an Ashpit record. -/
  | ashpitFetch (t : Nat) (msg : Bytes)
  /-- REPORT_RESPONSE (R385): The fabric manager's response to a REPORT removes it from the head of the report queue. -/
  | reportResponse (t : Nat) (mseq : Nat)
  /-- REPORT_RESEND (R385): An unacknowledged report at the queue head is sent again every 100 ms. -/
  | reportResend (t : Nat)
  /-- GET_VERSION (R393): The SPDM GET_VERSION request is answered. -/
  | getVersion (t : Nat) (ver : Nat)
  /-- GET_CAPABILITIES (R393): The SPDM GET_CAPABILITIES request is answered. -/
  | getCapabilities (t : Nat) (ver : Nat)
  /-- NEGOTIATE_ALGORITHMS (R393): The SPDM NEGOTIATE_ALGORITHMS request is answered. -/
  | negotiateAlgorithms (t : Nat) (ver : Nat) (asym : Nat) (hash : Nat)
  /-- GET_DIGESTS (R393): The SPDM GET_DIGESTS request is answered. -/
  | getDigests (t : Nat) (ver : Nat)
  /-- GET_CERTIFICATE (R392): The SPDM GET_CERTIFICATE request returns the slot 0 chain. -/
  | getCertificate (t : Nat) (ver : Nat) (slot : Nat) (off : Nat) (len : Nat)
  /-- CHALLENGE (R393): The SPDM CHALLENGE request is answered with a signature. -/
  | challenge (t : Nat) (ver : Nat) (slot : Nat) (nonce : Bytes)
  /-- GET_MEASUREMENTS (R394): The SPDM GET_MEASUREMENTS request returns the measurement indices, signed when asked. -/
  | getMeasurements (t : Nat) (ver : Nat) (index : Nat) (sign : Bool) (nonce : Bytes)
  /-- CHUNK_GET (R393): The SPDM CHUNK_GET request returns a chunk of a large response. -/
  | chunkGet (t : Nat) (ver : Nat) (handle : Nat) (seq : Nat)
  /-- SET_ENDPOINT_ID (R383): The MCTP Set Endpoint ID control message is answered. -/
  | setEndpointId (t : Nat) (op : Nat) (eid : Nat)
  /-- GET_ENDPOINT_ID (R383): The MCTP Get Endpoint ID control message is answered. -/
  | getEndpointId (t : Nat)
  /-- GET_MCTP_VERSION_SUPPORT (R383): The MCTP Get MCTP Version Support control message is answered. -/
  | getMctpVersionSupport (t : Nat) (mtype : Nat)
  /-- GET_MESSAGE_TYPE_SUPPORT (R383): The MCTP Get Message Type Support control message is answered. -/
  | getMessageTypeSupport (t : Nat)
  /-- GET_VENDOR_DEFINED_MESSAGE_SUPPORT (R383): The MCTP Get Vendor Defined Message Support control message is answered. -/
  | getVendorDefinedMessageSupport (t : Nat) (selector : Nat)
  /-- ENTDAA (R383): I3C ENTDAA assigns the Headframe target its dynamic address. -/
  | entdaa (t : Nat) (addr : Nat)
  /-- SETDASA (R383): I3C SETDASA assigns a dynamic address from static address 0x3A. -/
  | setdasa (t : Nat) (static_ : Nat) (addr : Nat)
  /-- TRST_N (R411): TRST_N resets the test access port, which selects IDCODE. -/
  | trstN (t : Nat)
  /-- IDCODE (R411): The IDCODE instruction selects the identification register. -/
  | idcode (t : Nat)
  /-- BYPASS (R411): The BYPASS instruction selects the bypass register. -/
  | bypass (t : Nat)
  /-- SAMPLE_PRELOAD (R411): The SAMPLE/PRELOAD instruction samples the boundary register. -/
  | samplePreload (t : Nat)
  /-- EXTEST (R411): The EXTEST instruction drives the boundary only while BLK_PORST_N is asserted, and otherwise selects bypass. -/
  | extest (t : Nat)
  /-- SHAFT_HEADER_ERROR (R282): An inbound Shaft packet with a reserved TYPE, a bad header, a wrong VC or domain, or a type not allowed inbound is discarded unstamped, its credits are freed and SHAFT_HEADER_ERROR is counted. -/
  | shaftHeaderError (t : Nat) (port : Nat) (pkt : Bytes)
  /-- DRIFT_ERROR (R296): A Drift message that fails its CRC or carries an undefined MTYPE or mismatched CLASS is discarded, counted in DRIFT_ERROR, and draws a NAK. -/
  | driftError (t : Nat) (q : Nat) (seq : Nat)
  /-- DRIFT_TRAINING_START (R294): A DOWN or DARK Drift port whose peer's signal is present and which is not held begins training. -/
  | driftTrainingStart (t : Nat) (q : Nat)
  /-- DRIFT_RETRAIN (R294): A Drift port enters RETRAIN, pauses traffic, applies pending corrections and restores its initial credits. -/
  | driftRetrain (t : Nat) (q : Nat)
  /-- DRIFT_REFCLK_RETURN (R404): DRIFT_REFCLK returns after a loss, and the Drift ports may train again. -/
  | driftRefclkReturn (t : Nat)
  /-- STACK_PORT_FAILURE (R359): A stack port fails entirely, and a device fault is declared. -/
  | stackPortFailure (t : Nat) (stack : Nat)
  /-- CONTEXT_RESET_COMPLETE (R346): Every stream of a reset context is FAULTED or beyond; CONTEXT_RESET completes, and the next suspect's replay may start. -/
  | contextResetComplete (t : Nat) (ctx : Nat)
  /-- TEST_LOGIC_RESET (R411): Five TCK cycles with TMS high reset the test access port, which then selects IDCODE. -/
  | testLogicReset (t : Nat)
  deriving DecidableEq, Repr

end Sys2Proof
end

