-- ==== Sys2Proof/Config.lean ====
section
/-! DEFINITION. What an implementation fixes and the values the manual leaves open: constants without a body, so that
no proof can lean on a value (log 4, 5). Plus the manual's own fixed figures. -/

namespace Sys2Proof.Config

/-! ### What the unit carries from production (log 5) -/

/-- STEPPING A1 when false, B0 when true (Table 17.3). -/
opaque steppingB0 : Bool
/-- The unit serial (R392). -/
opaque unitSerial : BitVec 64
/-- The core-voltage code TRIM, 0 to 8 (R380). -/
opaque trim : Fin 9
/-- Salfort's root key, 96 octets (R387, R398). -/
opaque salfortRoot : Bytes
/-- The ROM's bytes, whose digest is measurement 1 (R394). -/
opaque romImage : Bytes
/-- The certificate chain of slot 0 in DER (R392). -/
opaque certChain : Bytes
/-- The unit's P-384 private key (R392); no operation returns it. -/
opaque unitKey : Nat
/-- The device count's value as a random source of signatures: a nonce per signature (R393). -/
opaque signNonce : Nat → Nat

/-! ### Free values -/

/-- A 24-bit draw of a stream's generator: the generator's key and the index of the draw (R209). -/
opaque draw : Nat → Nat → BitVec 24
/-- The key that a non-zero SEED gives a generator (R209: its derivation is not specified). -/
opaque seedKey : BitVec 32 → Nat
/-- The generator's key before any SEED, by the model's free-value counter. -/
opaque freshKey : Nat → Nat
/-- The bucket that a cuckoo path starts from: false for i1 (R104). -/
opaque cuckooStart : Nat → Bool
/-- The ADDED entry that one step of a cuckoo path moves, as an index into the movable slots (R104). -/
opaque cuckooVictim : Nat → Nat → Nat
/-- The order in which the Foreman takes engines as gate engines beyond R132's rules. -/
opaque gateEngineOrder : Nat → List Nat
/-- Element-wise functions of R147 (1 RELU is exact and not among them; 2 GELU, 3 SILU, 4 SIGMOID, 5 TANH): the
device's single algorithm, within 2 units in the last place. -/
opaque elementwise : Nat → Fp32 → Fp32
/-- exp of R147 and R208, the single algorithm. -/
opaque exp32 : Fp32 → Fp32
/-- 1 / sqrt of NORM (R147), the single algorithm. -/
opaque rsqrt32 : Fp32 → Fp32
/-- The sum that a vector-unit reduction gives on a lane group of a width; used only where it keeps the bound of
Table 6.3 against the ascending sum (R125, R126). -/
opaque reduceSum : Nat → List Fp32 → Fp32
/-- The integer activation that a value which is no number becomes (R120 states none); clamped to the format. -/
opaque quantNan : Fp32 → Int
/-- The order in which tile partials reach a Hearth's accumulator bank (R126). -/
opaque partialOrder : Nat → List Nat
/-- Bytes the Ashpit captures of engine Seam (R350): the Seam's contents are not described byte by byte. -/
opaque captureByte : Nat → Nat → Byte
/-- The size in bytes of a snapshot (R48): its layout is not described. -/
opaque snapshotBytes : Nat → Nat
/-- Block power estimate in mW at a device count (Table 14.13). -/
opaque powerEstimate : Nat → Nat
/-- Where the Foreman's search for free stack pages of a region begins (R258: which it takes is not described). -/
opaque pageStart : Nat → Nat
/-- The Foreman's homing of contexts' TOKEN Flue models, from contexts and rates to (context, Flue, rate) (R140). -/
opaque homing : List (Nat × Nat) → List (Nat × Nat × Nat)
/-- The size in bytes of a stream's checkpoint, by the bytes of its TOKEN models and probes and the number of its
accumulators (R252): its layout is not described. -/
opaque checkpointBytes : Nat → Nat → Nat

/-- The bank that TAP_NORM_LOAD replaces where R160 does not settle it, by the free-value counter: true for bank 1. -/
opaque normBank : Nat → Bool

/-- The CAUSE of the Ashpit record of a device fault for which Table 14.14 has no code of its own, by the fault's code. -/
opaque ashpitCause : Nat → Fin 5

/-- The code of STEPPING in DEVICE_QUERY, for A1 (false) and B0 (R327 gives none). -/
opaque steppingCode : Bool → BitVec 16

/-- The boundary register that SAMPLE/PRELOAD shows for the sampled signals: its cells are not ordered by R411. -/
opaque boundaryCells : Nat → BitVec 32

/-- The digest of the SPDM transcript that a signed response covers, by the free-value counter (R393). -/
opaque spdmTranscript : Nat → Bytes
/-- The MCTP version entry of a message type other than control (R383 states none). -/
opaque mctpVersion : Nat → Bytes

/-- Seam pages that a scope holds (R258: the Foreman's allocation is not described), by scope and installs held. -/
opaque seamHeld : Nat → Nat → Nat
/-- Seam pages of a scope that loads in progress are filling, by scope and loads. -/
opaque seamFill : Nat → Nat → Nat

/-- A byte of a snapshot or a checkpoint as a Drift transfer carries it, by transfer and offset: their layouts are not described (R299). -/
opaque xferByte : Nat → Nat → Byte

/-! ### Figures the manual fixes -/

/-- Stack pages of the device (R249). -/
def stackPages : Nat := 2441406
/-- Bytes of a stack page (R249). -/
def pageBytes : Nat := 65536
/-- Default page counts of the first seven regions (Table 11.1). -/
def defaultRegions : List Nat := [976563, 366211, 244141, 122071, 183106, 61036, 30518]
/-- Minimum page counts of the first seven regions (Table 11.1, R327 for the fingerprint store). -/
def minRegions : List Nat := [1024, 16, 213016, 0, 0, 0, 256]
/-- Bytes of the parts of shared Seam in the order of Table 1.8: stream table; rollback rings and holdback; index windows;
candidate buffers and Damper queues; hot automaton and Detokeniser tables; streaming buffers and control queues (R25). -/
def seamParts : List Nat := [4194304, 16777216, 16777216, 8388608, 41943040, 96000000 - 88080384]
/-- Whole 4 KiB Seam pages of a scope of Table 11.7: 3 MB of a Hearth, 12 MB of a Flue, 1 MB of a Grate, 96 MB shared, a MB being
10^6 bytes (Tables 0.2, 1.4). -/
def seamPages (scope : Nat) : Nat :=
  (if scope < 64 then 3000000 else if scope < 80 then 12000000 else if scope < 112 then 1000000 else if scope = 112 then 96000000 else 0) / 4096
/-- Seam pages of a scope that the Foreman allocates: of shared Seam, only the hot automaton and Detokeniser tables (R258). -/
def seamAlloc (scope : Nat) : Nat := if scope = 112 then 41943040 / 4096 else seamPages scope
/-- Entries of the stream table (Table 0.4). -/
def streams : Nat := 16384
/-- Hot slots (Table 2.2). -/
def hotSlots : Nat := 2048
/-- Defaults of the 23 context settings (Table 14.4). -/
def defaultSettings : List Nat :=
  [200, 15000, 0, 0, 0, 100000, 0, 0, 1, 0, 0, 1, 4, 17, 0, 0, 0, 1, 4, 4, 1, 0, 1]

end Sys2Proof.Config
end

