-- ==== Sys2Proof/Machine/State.lean ====
section
/-! DEFINITION. The block's state: everything the manual names, as plain data, and the state after reset. -/

namespace Sys2Proof.Machine

/-- Why a command could stop the block. No command does: every outcome the manual describes is a next state, and the
manual's own faults are state (log 9). Raised by nobody; safe. -/
inductive Fault where
  /-- Raised by no command. -/
  | none
  deriving DecidableEq, Repr

/-- Why a command could be refused. -/
inductive Refusal where
  /-- Raised by `exec` for a command without a meaning yet; safe. -/
  | notModelled (mnemonic : String)
  deriving DecidableEq, Repr

/-! ### Pilot domain -/

/-- DEVICE_MODE (Table 13.2). -/
inductive Mode where
  | normal | banked | recovering
  deriving DecidableEq, Repr

/-- Power mode (Table 16.2). -/
inductive PowerMode where
  | run | dormant | banked
  deriving DecidableEq, Repr

/-- The Lamp (Table 13.3, R307 to R309). -/
structure Lamp where
  held : Bool
  port : CtlPort
  domain : Nat
  owner : Nat
  grant : Nat
  expiry : Nat
  breaks : Nat
  lastGrant : CtlPort
  expiryPosted : Bool
  deriving DecidableEq, Repr

/-- The host domain map (R275): per port a domain and ENABLE, per domain first page, pages and window mask. -/
structure DomainMap where
  ports : List (Nat × Bool)
  regions : List (Nat × Nat × Nat)
  deriving DecidableEq, Repr

/-- The Drift routing table (R295): own number, per port the peer and PRESENT, BOARD_ID. -/
structure Routing where
  device : Nat
  peers : List (Nat × Bool)
  board : Nat
  deriving DecidableEq, Repr

/-- A policy root index (R385): a key of all zero is not enrolled. -/
structure PolicyRoot where
  mask : Nat
  key : Bytes
  deriving DecidableEq, Repr

/-- A normalisation bank (R160). -/
structure NormBank where
  epoch : Nat
  pairs : List (Fp16 × Fp16)
  deriving DecidableEq, Repr

/-- The two banks of a domain and slot, the epoch of the most recent TAP, and the epoch a failing vector carried
(R160, R161). -/
structure NormSlot where
  bank0 : Option NormBank
  bank1 : Option NormBank
  latest : Option Nat
  calFail : Option Nat
  deriving DecidableEq, Repr

/-- A Headframe report (Table 15.8, R385). -/
structure Report where
  code : Nat
  stamp : Nat
  dropped : Nat
  mseq : Nat
  detail : List Nat
  deriving DecidableEq, Repr

/-- A waiter of a Tally (R264, Table 11.10). -/
structure Waiter where
  foreman : Bool
  req : Nat
  ctx : Nat
  n : Nat
  deriving DecidableEq, Repr

/-- A Tally (R264). -/
structure Tally where
  alloc : Bool
  owner : Nat
  gen : Nat
  count : Nat
  overflow : Bool
  consumed : Nat
  waiters : List Waiter
  deriving DecidableEq, Repr

/-- Values fixed at production (R380, R387, R392): state that no command changes. -/
structure Fuses where
  b0 : Bool
  serial : BitVec 64
  trim : Nat
  rootKey : Bytes
  deriving DecidableEq, Repr

/-- The bundle slots' state (Table 17.2). -/
inductive Staged where
  | empty | writing | committed
  deriving DecidableEq, Repr

/-- Where power-on boot stands (R390). -/
inductive BootPhase where
  | inReset | waitCount | waitCommit | committed | done
  deriving DecidableEq, Repr

/-- The bundle and the boot (R386 to R390). -/
structure Boot where
  phase : BootPhase
  status : Nat
  active : Bytes
  activeFw : List Nat
  activeStoker : List Nat
  staged : Staged
  stagedBytes : Bytes
  stagedFw : List Nat
  stagedStoker : List Nat
  deriving DecidableEq, Repr

/-- Device recovery (R360, R365, R409). -/
structure Recovery where
  cause : Nat
  restarts : Nat
  deriving DecidableEq, Repr

/-- Power of a Hearth row (Table 6.6). -/
inductive RowPower where
  | active | offLocked | off
  deriving DecidableEq, Repr

/-- `lastPacked`: the count at which a slice was last packed onto the row, it became ACTIVE, or its wake began. -/
structure Row where
  power : RowPower
  waking : Bool
  lastPacked : Nat
  deriving DecidableEq, Repr

/-- Pins, temperature and voltage (R364 to R367, R380 to R382, R410). -/
structure Pins where
  faultN : Bool
  thermTripN : Bool
  tripAt : Nat
  warmN : Bool
  driftRef : Bool
  vid : Nat
  vidAt : Option Nat
  cold : Bool
  above35 : Option Nat
  below100 : Option Nat
  sites : List Int
  sampledAt : Nat
  deriving DecidableEq, Repr

/-! ### Control ports -/

/-- The registers and pointers of a queue block (R259 to R263): pointers count modulo 2^(bits+1). -/
structure Queue where
  bits : Nat
  wr : Nat
  rd : Nat
  wm : Bool
  flush : Bool
  mark : Nat
  crossings : Nat
  deriving DecidableEq, Repr

/-- What a command's unfinished work is (R314, R326). -/
inductive Work where
  | install (ctx gen kind : Nat) (inst : Install) (stage : Option Nat)
  | adapter (ctx slot : Nat) (v : AdapterVersion)
  | reset (ctx gen : Nat)
  | migrate (peer xfer : Nat) (ctx : Nat)
  deriving DecidableEq, Repr

/-- A fetched command (R313): its slot, the domain and port of its doorbell, the status of the checks before its
payload, and its payload as delivered. -/
structure ExecCmd where
  inst : Inst
  slot : Bytes
  shaft : Nat
  seq : Nat
  stamp : Nat
  pre : Nat
  need : Nat
  got : List (Nat × Bytes)
  deriving DecidableEq, Repr

/-- A command whose effect or completion is still to come (R314). -/
structure Working where
  cmd : ExecCmd
  work : Work
  effect : Nat
  deriving DecidableEq, Repr

/-- A 64-bit or ledger read shadow (R6, R269). -/
structure LedgerShadow where
  terms : List Nat
  balanced : Bool
  fault : Bool
  deriving DecidableEq, Repr

/-- One window instance (R304). -/
structure InstState where
  cmdRing : Bytes
  cmdQ : Queue
  cplRing : Bytes
  cplQ : Queue
  evtRing : Tbl Bytes
  evtQ : Queue
  result : Bytes
  doorbellErr : Bool
  cplHeadErr : Bool
  evtHeadErr : Bool
  resultBusy : Bool
  evtLost : Nat
  dropped : Nat
  eseq : Nat
  alertEnable : Nat
  lampEvent : Bool
  recovered : Bool
  lease : Nat
  lampStatus : Nat
  lampOp : Nat
  shadows : Tbl Word
  ledgerSel : Word
  ledgerShadow : Option LedgerShadow
  ledgerRead : List Nat
  staging : List Bytes
  stagePages : List (List Nat)
  slotPort : List Nat
  working : Option Working
  deriving DecidableEq, Repr

/-- A Giduster bulk read in flight (R289, R315, R271); `ctx`: the context that its command acts on, 0 for none (R270). -/
structure BulkRead where
  dom : Nat
  tag : Nat
  inst : Inst
  seq : Nat
  off : Nat
  len : Nat
  port : Nat
  issued : Nat
  ctx : Nat
  orphan : Option Nat
  deriving DecidableEq, Repr

/-! ### Contexts -/

inductive CtxState where
  | free | opened | closing | quarantined
  deriving DecidableEq, Repr

structure InstallRec where
  kind : Nat
  install : Install
  inForce : Bool
  deriving DecidableEq, Repr

/-- Table 2.2, in the order of slot bytes 0x1B to 0x2B. -/
structure Reservation where
  warmRows : Nat
  hearthShare : Nat
  hotSlots : Nat
  streamRate : Nat
  gateRate : Nat
  flueRate : Nat
  deriving DecidableEq, Repr

/-- A context (Table 2.1, Table 14.5); `past` holds retired installs whose contents something in flight still reads (R17, R51). -/
structure Ctx where
  state : CtxState
  domain : Nat
  gen : Nat
  failOpen : Bool
  evInst : Inst
  resv : Reservation
  settings : List Nat
  orphans : Nat
  counters : List Nat
  installs : List InstallRec
  nextInstall : List Nat
  gateEngines : List Nat
  windows : Tbl WinCount
  frozen : Bool
  faulted : Bool
  resetAt : Nat
  gateTurn : Nat
  past : List InstallRec
  deriving DecidableEq, Repr

/-- A slot of adapter versions (R48 to R50); `past` as in `Ctx`. -/
structure AdapterSlot where
  ctx : Nat
  gen : Nat
  next : Nat
  versions : List AdapterVersion
  past : List AdapterVersion
  deriving DecidableEq, Repr

/-! ### Streams -/

/-- Table 2.4. -/
inductive StreamState where
  | free | admitted | intake | generating | held | draining | closed | faulted
  deriving DecidableEq, Repr

/-- The stream table entry, Table 2.3. -/
structure Entry where
  state : StreamState
  resume : StreamState
  priority : Nat
  ctx : Nat
  vocab : Nat
  follow : Bool
  draftEn : Bool
  source : Nat
  domain : Nat
  prefixMode : Nat
  admitStamp : Nat
  deadline : Nat
  handle : Nat
  maxLength : Nat
  late : Bool
  host : Bool
  replay : Bool
  lengthPtr : Nat
  commitPtr : Nat
  rewindMark : Nat
  ckptPos : Nat
  lastStamp : Nat
  imagePins : List Nat
  adapterPins : List (Nat × Nat)
  hotSlot : Option Nat
  holdback : Nat
  lateSeen : Bool
  handleRefused : Bool
  ckptValid : Bool
  restoring : Bool
  closeReason : Nat
  verdict : Nat
  verdictLate : Bool
  deriving DecidableEq, Repr

/-- A staged tap slot of one input position, normalised by the bank of its epoch at its stamp (R157, R158, R160). -/
structure StagedTap where
  pos : Nat
  slot : Nat
  stamp : Nat
  values : List Fp32
  valid : List Bool
  epoch : Nat
  change : Option Nat
  absent : Bool
  deriving DecidableEq, Repr

/-- A slot at an input position as its probes see it: the vector, its elements that are missing, and the settle count after (R159). -/
structure SlotView where
  slot : Nat
  values : List Fp32
  missing : Nat
  settle : Nat
  deriving DecidableEq, Repr

/-- A committed input position whose serving item exists (R158, R162): the position, the serving item with the place of its token, the
count up to which a TAP counts; the slots evaluated, the probes evaluated, the slots whose TAP has come, and whether every probe has
been evaluated. -/
structure ProbeWait where
  pos : Nat
  item : Nat
  tok : Nat
  deadline : Nat
  views : List SlotView
  done : List Nat
  seen : List Nat
  closed : Bool
  deriving DecidableEq, Repr

/-- A proposal: FIRST_POSITION, tokens with their FP16 probabilities, PROBE; whether a mask ended it, and how many tokens were not
complete at the cutoff (R231, R232, R237, R238, R248). -/
structure Draft where
  first : Nat
  toks : List (Nat × Fp16)
  neural : List Bool
  probe : Bool
  truncated : Bool
  cut : Nat
  deriving DecidableEq, Repr

/-- A run end to be reported in a RUN_END packet (R215, R216): CANDIDATES items numbered below `before` come first;
`shown` says that END has been presented; `carrier` is the expiring item whose RELEASE_OUT carries the ending; `counts` the
CONTEXT-scope events that END completed, of the sets of `pins`, counted when the packet leaves (R80). -/
structure RunEnd where
  before : Nat
  shown : Bool
  carrier : Option Nat
  due : Nat
  stamp : Nat
  reason : Nat
  verdict : Nat
  source : Nat
  rule : Nat
  withhold : Bool
  counts : List (Nat × Nat)
  pins : List Nat
  deriving DecidableEq, Repr

/-- A request evaluation: its trigger, merged count, start, and what the feature vector at its start gives (R187 to
R189). A pending one has not started. -/
structure ReqEval where
  trigger : Nat
  merged : Nat
  start : Nat
  commit : Nat
  install : Nat
  outs : List Nat
  verdict : Nat
  undecided : Bool
  deriving DecidableEq, Repr

/-- A match event record on a stream's feature path (Table 4.3). -/
structure EventRec where
  stream : Nat
  set : Nat
  output : Bool
  marker : Bool
  action : Nat
  pattern : Nat
  startTok : Nat
  endTok : Nat
  startByte : Nat
  endByte : Nat
  stamp : Nat
  deriving DecidableEq, Repr

/-- A stream: its entry and everything kept with it. `screen` is the screening state after everything screened, under the image
pins `scrPins`; `rel` the
state at COMMIT_PTR, whose input side lags while chunks screened ahead are not yet answered (R253); `inHits` the LAST_HIT
bits after prompt tokens not yet released; `trail` the TRAILING scores that the next gated item takes, or has taken and not yet accumulated (R152); `gramStarts` the committed positions
at which a selection of a grammar took effect, with the selection (R203); `badRestore` that a failed
snapshot read is still to be reported (R46); `probeWait` the committed input positions that an item serves, kept until COMMIT_PTR has passed them (R158, R162), `probeNext`
the first input position that no item has served yet; `record` the tokens of the
latest model positions, those of the prompt with 2^18 added (R141); `poisoned` the poisoned pages that its accesses have
met (Table 11.3); `base` the state that it started from, at its admission or its prefix restore; `closedAt` the count at which
CLOSE_REASON was recorded or the stream faulted (R42); `admPins` the image and adapter pins taken at admission (R46, R47);
`featurePath` the match event records of items and run ends not yet answered (R78). -/
structure Stream where
  e : Entry
  admInst : Inst
  intakePos : Nat
  verifyCount : Nat
  nextSeq : Nat
  prefixDone : Bool
  prefixToks : List Nat
  prefixPass : Bool
  reachedGen : Bool
  scrPins : List Nat
  screen : Screen
  rel : Screen
  inHits : List (Nat × Nat × Bool)
  trail : List (Option Nat × Nat × List Fp32)
  gramStarts : List (Nat × Nat)
  heldIn : Nat
  eligible : Nat
  genKey : Nat
  genIdx : Nat
  extendPending : Option Nat
  extendPos : Nat
  outPort : Option Nat
  heldOut : List Nat
  runEnd : Option RunEnd
  reqRun : Option ReqEval
  reqPend : Option ReqEval
  closeEval : Option Nat
  ended : Bool
  log : List Nat
  logCount : Nat
  index : Tbl Nat
  proposal : Option Draft
  roundsSinceZero : Nat
  slotA : Option Checkpoint
  slotB : Option Checkpoint
  validB : Bool
  writing : Option Checkpoint
  capPending : Bool
  trigPos : Nat
  record : List (Nat × Nat)
  replCount : Nat
  replPend : List Nat
  snapStatus : Nat
  saving : Option Snapshot
  restore : Option Snapshot
  taps : List StagedTap
  probeWait : List ProbeWait
  probeNext : Nat
  fault : Nat
  poisoned : List Nat
  base : Checkpoint
  badRestore : Bool
  lastActive : Nat
  closedAt : Nat
  admPins : List Nat × List (Nat × Nat)
  featurePath : List EventRec
  home : Option Nat
  deriving DecidableEq, Repr

/-! ### Gated items -/

/-- What made an item BLOCK (R183): end token, 0 Grate or 1 fingerprint, order keys, rule id, first token. -/
structure Contrib where
  endTok : Nat
  src : Nat
  key : List Nat
  rule : Nat
  start : Nat
  deriving DecidableEq, Repr

/-- A fingerprint lookup of an item (R102, R107, R109): position index and candidate token for an output item. -/
structure Lookup where
  idx : Nat
  pos : Nat
  token : Nat
  set : Nat
  fp : Nat
  first : Nat
  last : Nat
  committed : Bool
  result : Option Nat
  deriving DecidableEq, Repr

/-- A slice of a chunk for one prompt guard (R59, R134, R150): the model, its number in the chunk, whether it is packed
into the running firing, its scores, and whether it runs for state only. -/
structure Slice where
  model : Nat
  idx : Nat
  toks : List Nat
  packed : Bool
  scores : Option (List Fp32)
  stateOnly : Bool
  deriving DecidableEq, Repr

/-- The outcome of a lookahead task (R82): `stop` holds the offset of the end byte within the candidate, the depth and the
pattern id of the first STOP event (R81). -/
structure Look where
  pos : Nat
  token : Nat
  set : Nat
  blocked : Bool
  stop : Option (Nat × Nat × Nat)
  endState : Nat
  depth : Nat
  deriving DecidableEq, Repr

/-- One position of an INLINE model that an item's verdict reads, with what a resolver needs to run it again: the state
at the item's start, the tokens, the tap vector and the summary (R152, R185). -/
structure RunInput where
  model : Nat
  idx : Nat
  toks : List (Option Nat)
  tap : List Fp32
  summary : List Fp32
  start : List Fp32
  deriving DecidableEq, Repr

/-- `begun`, `byte0`, `after` and `hold`: screening has begun, the byte count before the chunk, the screening state after
the chunk as far as it is known, and the hold point (R61, R65). -/
structure ChunkBody where
  begun : Bool
  byte0 : Nat
  after : Screen
  hold : Nat
  seq : Nat
  count : Nat
  toks : List Nat
  last : Bool
  pfx : Bool
  pfxEnd : Bool
  origin : Nat
  start : Nat
  stop : Nat
  relStart : Nat
  tasks : List Nat
  partials : List Nat
  lookups : List Lookup
  slices : List Slice
  mismatch : Bool
  evaluated : Bool
  vectors : List (Nat × List Fp32)
  deriving DecidableEq, Repr

/-- A position of a CANDIDATES item (Table 9.2, 9.3). -/
structure Position where
  draft : Option Nat
  prob : Fp16
  cands : List (Nat × Fp16)
  deriving DecidableEq, Repr

/-- `begun`: the positions are dispatched; `gram` is the grammar configuration that the next position
starts from; `exhausted` the EXTEND round to ask for; `endBlock` the BLOCK event that END completed; `kept` that its drafts are
the first tokens of the stream's proposal (R83); `prior` the screening state before the commit step, to which discarded decisions
return (R242); `lost` that its candidate buffer met an uncorrectable error (R225). -/
structure CandBody where
  begun : Bool
  gram : GramCfg
  first : Nat
  extend : Bool
  round : Nat
  gramSel : Nat
  allowSel : Nat
  temperature : Nat
  topK : Nat
  topP : Nat
  positions : List Position
  looks : List Look
  lookups : List Lookup
  decided : Nat
  finished : Bool
  accepted : Nat
  chosen : List Nat
  exhausted : Option Nat
  endReason : Nat
  endBlock : Option Contrib
  stopHit : Option (Nat × Nat)
  committed : Bool
  evalTok : Nat
  tokVerdicts : List Nat
  holdPoint : Nat
  byteStart : Nat
  draft : Option Draft
  cutoffDone : Bool
  kept : Bool
  prior : Option Screen
  lost : Bool
  seed : Nat
  genAt : Nat × Nat
  deriving DecidableEq, Repr

inductive ItemBody where
  | chunk (b : ChunkBody)
  | cand (b : CandBody)
  deriving DecidableEq, Repr

/-- A gated item from its stamp until its last answer (R14, R17, R329). `refused` is the status of an item answered
REFUSED; `cut` that of one answered WITHHELD whatever it decided: a fault's or reset's status (R346, R415), or 0 for a
request BLOCK (R216). `prior`: the values it was accepted with (R152). `waits`: its release time has passed behind an earlier
item of its stream, and whether it was ready then (R67). -/
structure Item where
  stream : Nat
  owned : Bool
  port : Nat
  domain : Nat
  stamp : Nat
  due : Nat
  tag : Nat
  refused : Option Nat
  cut : Option Nat
  handleStatus : Nat
  settings : List Nat
  entry : Entry
  contribs : List Contrib
  flagged : Bool
  undecided : Bool
  abort : Bool
  ensBlock : Option Nat
  band : List (Nat × Nat × Option (List Fp32))
  values : List (Nat × List Fp32)
  prior : List (Nat × List Fp32)
  tallies : List (Nat × Nat)
  inputs : List RunInput
  counts : List (Nat × Nat)
  cleared : List (Nat × Nat)
  resolving : Bool
  final : Option Nat
  late : Bool
  answered : Bool
  overdue : Bool
  waits : Option Bool
  body : ItemBody
  deriving DecidableEq, Repr

/-! ### Fingerprint store -/

structure FpSetDef where
  n : Nat
  vocab : Nat
  base : Nat
  seed : Nat
  deriving DecidableEq, Repr

/-- A store slot (Table 5.3): state 0 EMPTY, 1 LIVE, 2 ADDED, 3 REMOVED. -/
structure FpSlot where
  tag : Nat
  set : Nat
  st : Nat
  deriving DecidableEq, Repr

inductive EpochState where
  | idle | opened | sweeping
  deriving DecidableEq, Repr

/-- A forwarded epoch from a peer (R113): its number, records, whether the commit has come. -/
structure Forwarded where
  dev : Nat
  epoch : Nat
  recs : List Bytes
  commit : Option Nat
  deriving DecidableEq, Repr

structure Store where
  sets : Tbl FpSetDef
  buckets : Tbl (List FpSlot)
  lost : List Nat
  nb : Nat
  epoch : EpochState
  records : Nat
  touched : List Nat
  peers : List Nat
  effect : Nat
  fromPeer : Bool
  forwarded : List Forwarded
  deriving DecidableEq, Repr

/-! ### Engines, links, faults -/

/-- A packed chain of the running firing (R134): its first item, its slices as item and place, engines, model. -/
structure Chain where
  item : Nat
  slices : List (Nat × Nat)
  engines : List Nat
  model : Nat
  resolver : Bool
  deriving DecidableEq, Repr

/-- A position waiting for or carried by a TOKEN pass (R133, R139, R151, R162): stream, context, model and the install
that holds it, its tokens, its item and the token of the item that it belongs to, for a probe its input position and
normalised vector, the prompt summary, the Flue it is homed on; `finish`: the count at which a Hearth pass ends while it runs, before
that the count from which it may start; `draft`: a draft pass, with how many follow it (R236). -/
structure PassPos where
  stream : Nat
  ctx : Nat
  kind : Nat
  install : Nat
  model : Nat
  toks : List (Option Nat)
  item : Nat
  tok : Nat
  probe : Option Nat
  tap : List Fp32
  summary : List Fp32
  flue : Option Nat
  running : Bool
  finish : Nat
  draft : Option Nat
  deriving DecidableEq, Repr

inductive LinkState where
  | down | training | active | retrain | heldDown | dark
  deriving DecidableEq, Repr

/-- A Shaft port (Tables 12.10, 12.12). -/
structure ShaftPort where
  link : LinkState
  domain : Nat
  x32 : Bool
  rate16 : Bool
  calPass : Bool
  repair : Bool
  retrains : Nat
  event : Bool
  saved : Bool
  lastBusy : Nat
  retrainReq : Bool
  trained : Option Nat
  reported : Bool
  deriving DecidableEq, Repr

/-- Credits of a domain (R277 to R280): per receive channel 0 to 4 the flits held by the host and those freed and not
yet returned; per transmit channel the advertisement and the balance. -/
structure DomCredits where
  initSent : Bool
  granted : List Nat
  freed : List Nat
  freedAt : List (Option Nat)
  initRx : Bool
  memAdv : Nat
  memBal : Nat
  relAdv : Nat
  relBal : Nat
  relLast : Nat
  stalled : Bool
  deriving DecidableEq, Repr

/-- A Drift message that this device has sent or is waiting to send (R296, R297). -/
structure DriftMsg where
  mtype : Nat
  cls : Nat
  units : Nat
  seq : Nat
  ctx : Nat
  gen : Nat
  args : List Nat
  body : Bytes
  since : Nat
  xfer : Option Nat
  deriving DecidableEq, Repr

/-- A transfer that a peer has begun and not sealed (R299): class, transfer id, epoch, stream, bytes received. -/
structure RxXfer where
  cls : Nat
  xfer : Nat
  epoch : Nat
  stream : Nat
  bytes : Nat
  deriving DecidableEq, Repr

/-- A Drift port: `route` is the routing table that its training took, `trained` and `helloOk` stand for the two things
that make it ACTIVE (R294, R295). -/
structure DriftPort where
  link : LinkState
  peer : Nat
  route : Routing
  trained : Bool
  helloOk : Bool
  lanes2 : Bool
  calPass : Bool
  repair : Bool
  retrains : Nat
  dead : Bool
  event : Bool
  saved : Bool
  txSeq : Nat
  rxSeq : Nat
  ackProgress : Nat
  unacked : List DriftMsg
  waiting : List DriftMsg
  credits : List Nat
  toReturn : List Nat
  lastEpoch : Nat
  lastAckSent : Nat
  rxXfers : List RxXfer
  deriving DecidableEq, Repr

/-- Kinds of transfers in flight (Table 11.8). -/
inductive XferKind where
  | ckptWrite | snapWrite | snapRestore | restoreRead | shaftTx | bulk | drift
  deriving DecidableEq, Repr

/-- A transfer with its owner (R270); `pages`: the stack pages that a write is writing. -/
structure Xfer where
  kind : XferKind
  ctx : Nat
  gen : Nat
  stream : Option Nat
  orphan : Bool
  issued : Nat
  pages : List Nat
  deriving DecidableEq, Repr

/-- A hang being handled (R349 to R354): its cycles, the engines involved, the suspects that have neither passed nor been
reset, the one whose replay runs and since when, the one whose fault reset is awaited, the count of the suspect resets, and
what became of each suspect: 0 passed, 1 reset. -/
structure Hang where
  cycle : List WaitEdge
  engines : List UnitId
  suspects : List Nat
  replaying : Option Nat
  started : Nat
  resetting : Option Nat
  since : Nat
  resetDone : Bool
  record : Nat
  outcomes : List (Nat × Nat)
  deriving DecidableEq, Repr

/-- An Ashpit record (R350, R351, Table 14.14); suspects with their domains, and its first page in the region's ring. -/
structure AshpitRec where
  num : Nat
  cause : Nat
  suspects : List (Nat × Nat)
  stamp : Nat
  first : Nat
  bytes : Nat
  truncated : Bool
  damaged : Bool
  complete : Bool
  deriving DecidableEq, Repr

/-- The Foreman (R313 to R317, R355). -/
structure Foreman where
  exec : Option ExecCmd
  seq : Nat
  configSeq : Nat
  lastInst : Nat
  restarting : Bool
  lastRestart : Option Nat
  deriving DecidableEq, Repr

/-- Management and test access (R383, R393, R411). -/
structure Mgmt where
  i3cAddr : Option Nat
  eid : Nat
  spdmVersion : Bool
  spdmCaps : Bool
  spdmAlgs : Bool
  spdmVer : Nat
  large : Bytes
  largeHandle : Nat
  jtag : String
  resends : Nat
  reportSent : Nat
  deriving DecidableEq, Repr

/-- A RELEASE_IN packet (Table 3.6), with the count at its hand-off. -/
structure ReleaseIn where
  port : Nat
  time : Nat
  stream : Nat
  status : Nat
  disp : Nat
  verdict : Nat
  late : Bool
  handleStatus : Nat
  tag : Nat
  seq : Nat
  count : Nat
  blockSource : Nat
  relStart : Nat
  relEnd : Nat
  intakeEnd : Nat
  rule : Nat
  matchStart : Nat
  stamp : Nat
  resent : Bool
  deriving DecidableEq, Repr

/-- A RELEASE_OUT packet (Table 9.6), with the count at its hand-off. -/
structure ReleaseOut where
  port : Nat
  time : Nat
  stream : Nat
  status : Nat
  disp : Nat
  verdict : Nat
  undecided : Bool
  late : Bool
  endReason : Nat
  tag : Nat
  first : Nat
  commit : Nat
  decided : Nat
  accepted : Nat
  held : Nat
  relStart : Nat
  relEnd : Nat
  withheldEnd : Nat
  clientEnd : Nat
  blockSource : Nat
  round : Nat
  rule : Nat
  stamp : Nat
  toks : List Nat
  resent : Bool
  deriving DecidableEq, Repr

/-- A DRAFT packet (Table 10.4), with the count at its hand-off. -/
structure DraftOut where
  port : Nat
  time : Nat
  stream : Nat
  probe : Bool
  first : Nat
  tag : Nat
  sourceMap : Nat
  toks : List (Nat × Fp16)
  resent : Bool
  deriving DecidableEq, Repr

/-- Shaft, management and Drift output, in the order it is handed off. -/
inductive Out where
  | releaseIn (r : ReleaseIn)
  | releaseOut (r : ReleaseOut)
  | draft (d : DraftOut)
  | credit (port : Nat) (init : Bool) (flits : List Nat) (resent : Bool)
  | memCpl (port tag status : Nat) (data : Bytes)
  | bulkRead (port tag addr len : Nat)
  | mgmt (code status mseq : Nat) (payload : Bytes)
  | report (r : Report)
  | spdm (code param1 param2 : Nat) (payload : Bytes)
  | mctp (cmd cc : Nat) (payload : Bytes)
  | i3c (addr : Nat) (id : Bytes)
  | drift (q : Nat) (m : DriftMsg)
  | driftLink (q mtype : Nat) (args : List Nat)
  | tdo (instr : String) (value : Option (BitVec 32))
  | ibi (data : Nat)
  deriving DecidableEq, Repr

/-- A packet that waits for a port or for RELEASE credit (R280): its domain, the port it was due on, its context, its stream, the hot slot
and the number of positions whose pipeline buffer it holds. -/
structure TxPkt where
  dom : Nat
  port : Nat
  ctx : Nat
  sid : Option Nat
  hot : Nat
  room : Nat
  out : Out
  deriving DecidableEq, Repr

/-- The whole block. -/
structure State where
  pending : List Instr
  freshCtr : Nat
  nextItem : Nat
  nextXfer : Nat
  out : List Out
  count : Nat
  running : Bool
  porst : Bool
  pilotFault : Bool
  mode : Mode
  power : PowerMode
  lastActivity : Nat
  lamp : Lamp
  domains : DomainMap
  routing : Routing
  roots : List PolicyRoot
  remap : List (Nat × Nat)
  layoutRec : List Nat
  layout : List Nat
  norms : Tbl NormSlot
  threshold : Nat
  replicaEpoch : Nat
  storeEpoch : Nat
  reports : List Report
  reportsDropped : Nat
  reportSeq : Nat
  tallies : Tbl Tally
  domCounters : List (List Nat)
  devCounters : List Nat
  recoveries : Nat
  fuses : Fuses
  boot : Boot
  recovery : Option Recovery
  pins : Pins
  rows : List Row
  insts : List InstState
  foreman : Foreman
  bulk : List BulkRead
  ctxs : Tbl Ctx
  adapters : Tbl AdapterSlot
  vocabs : Tbl Vocab
  snapshots : List Snapshot
  snapClock : Nat
  streams : Tbl Stream
  items : Tbl Item
  store : Store
  failed : List UnitId
  remapping : List UnitId
  chains : List Chain
  passes : List PassPos
  shaft : List ShaftPort
  credits : List DomCredits
  queuedTx : List TxPkt
  mem : List Host.Cell
  drift : List DriftPort
  replicas : List Replica
  dead : List Nat
  xfers : Tbl Xfer
  poisoned : List Nat
  spareUsed : List Nat
  zeroing : List Nat
  seamZero : Tbl Nat
  seamPoison : List (Nat × Nat)
  quietAt : List Nat
  flueHomes : List (Nat × Nat × Nat)
  outOfUse : List Nat
  ledgerFault : Bool
  degraded : Bool
  hangs : Tbl Hang
  nextHang : Nat
  ashpit : List AshpitRec
  ashpitNext : Nat
  ashpitHead : Nat
  mgmt : Mgmt
  deriving DecidableEq, Repr

/-! ### Reset -/

def Queue.init (bits : Nat) : Queue := ⟨bits, 0, 0, false, false, 0, 0⟩

def InstState.init : InstState :=
  { cmdRing := List.replicate 1024 0, cmdQ := .init 4, cplRing := List.replicate 1024 0, cplQ := .init 4, evtRing := [],
    evtQ := .init 8, result := List.replicate 4096 0, doorbellErr := false, cplHeadErr := false, evtHeadErr := false,
    resultBusy := false, evtLost := 0, dropped := 0, eseq := 0, alertEnable := 0, lampEvent := false, recovered := false,
    lease := 100, lampStatus := 0, lampOp := 0, shadows := [], ledgerSel := 0, ledgerShadow := none, ledgerRead := [],
    staging := [[], [], [], []], stagePages := [[], [], [], []], slotPort := List.replicate 16 0, working := none }

def ShaftPort.init : ShaftPort :=
  ⟨.down, 0, false, false, false, false, 0, false, false, 0, false, none, false⟩

def DomCredits.init : DomCredits :=
  ⟨false, [0, 0, 0, 0, 0], [0, 0, 0, 0, 0], [none, none, none, none, none], false, 0, 0, 0, 0, 0, false⟩

def DriftPort.init : DriftPort :=
  ⟨.down, 0, ⟨0, [(0, false), (0, false), (0, false)], 0⟩, false, false, false, false, false, 0, false, false, false, 0, 0, 0, [], [], [64, 64, 64], [0, 0, 0], 0, 0, []⟩

def Tally.foremanInit : Tally := ⟨true, 0, 0, 0, false, 0, []⟩

/-- Pages of the host-directed region under a layout (R250, Table 11.1). -/
def hostPages (layout : List Nat) : Nat := Config.stackPages - layout.sum

/-- The block right after BLK_PORST_N, before power-on boot (R390, R408); values the manual gives none for: log 5. -/
def State.reset : State :=
  { pending := [], freshCtr := 0, nextItem := 0, nextXfer := 0, out := [], count := 0, running := false, porst := false,
    pilotFault := false, mode := .recovering, power := .run, lastActivity := 0,
    lamp := ⟨false, .A, 0, 0, 0, 0, 0, .B, false⟩,
    domains := ⟨List.replicate 16 (0, true), [(0, hostPages Config.defaultRegions, 3), (0, 0, 0), (0, 0, 0), (0, 0, 0)]⟩,
    routing := ⟨0, [(0, false), (0, false), (0, false)], 0⟩,
    roots := List.replicate 4 ⟨0, []⟩, remap := [], layoutRec := Config.defaultRegions, layout := Config.defaultRegions,
    norms := [], threshold := 2000, replicaEpoch := 0, storeEpoch := 0, reports := [], reportsDropped := 0,
    reportSeq := 0, tallies := (List.range 64).map fun i => (i, Tally.foremanInit),
    domCounters := List.replicate 4 [0, 0, 0, 0], devCounters := [0, 0], recoveries := 0,
    fuses := ⟨Config.steppingB0, Config.unitSerial, Config.trim.val, Config.salfortRoot⟩,
    boot := ⟨.waitCount, 0, [], [], [], .empty, [], [], []⟩, recovery := none,
    pins := ⟨false, false, 0, false, true, 0, none, false, none, none, List.replicate 128 400, 0⟩,
    rows := List.replicate 8 ⟨.off, false, 0⟩,
    insts := List.replicate 8 InstState.init,
    foreman := ⟨none, 0, 1, 7, false, none⟩, bulk := [], ctxs := [], adapters := [], vocabs := [], snapshots := [],
    snapClock := 0, streams := [], items := [],
    store := ⟨[], [], [], 1000000000, .idle, 0, [], [], 0, false, []⟩, failed := [], remapping := [], chains := [],
    passes := [], shaft := List.replicate 16 ShaftPort.init, credits := List.replicate 4 DomCredits.init, queuedTx := [],
    mem := [], drift := List.replicate 3 DriftPort.init, replicas := [], dead := [], xfers := [], poisoned := [],
    spareUsed := [], zeroing := [], seamZero := [], seamPoison := [], quietAt := [0, 0, 0, 0], flueHomes := [], outOfUse := [], ledgerFault := false, degraded := false, hangs := [],
    nextHang := 0, ashpit := [], ashpitNext := 1, ashpitHead := 0,
    mgmt := ⟨none, 0, false, false, false, 0, [], 0, "IDCODE", 0, 0⟩ }

end Sys2Proof.Machine
end

