-- ==== Sys2Proof/Machine/Operands.lean ====
section
/-! DEFINITION. Operand forms: little-endian fields of byte strings (R4), bit ranges, error codes (R342), settings
(R329), and the fields of command slots and Shaft headers (R281, R312). -/

namespace Sys2Proof.Machine

/-! ### Byte strings -/

/-- Little-endian value of a byte string (R4). -/
def leNat : Bytes → Nat
  | [] => 0
  | b :: bs => b.toNat + 256 * leNat bs

/-- The `n`-byte little-endian field at byte offset `off`; bytes beyond the string count as 0. -/
def field (bs : Bytes) (off n : Nat) : Nat := leNat ((bs.drop off).take n)

/-- The `n` little-endian bytes of a value. -/
def leBytes : Nat → Nat → Bytes
  | 0, _ => []
  | n + 1, v => BitVec.ofNat 8 v :: leBytes n (v / 256)

/-- `n` bytes at `off`, padded with zeros. -/
def slice (bs : Bytes) (off n : Nat) : Bytes :=
  let r := (bs.drop off).take n
  r ++ List.replicate (n - r.length) 0

/-- Write `v` over the bytes from `off`. -/
def splice (bs : Bytes) (off : Nat) (v : Bytes) : Bytes := bs.take off ++ v ++ bs.drop (off + v.length)

/-- Bits [hi:lo] of a value. -/
def bits (v hi lo : Nat) : Nat := (v / 2 ^ lo) % 2 ^ (hi + 1 - lo)

def bit (v i : Nat) : Bool := (v / 2 ^ i) % 2 == 1

def b2n (b : Bool) : Nat := if b then 1 else 0

/-- True when every byte of a range is zero. -/
def zeroRange (bs : Bytes) (off n : Nat) : Bool := ((bs.drop off).take n).all (· == 0)

/-- Insert before the first element that does not come before `x`. -/
def insertBy {α : Type} (le : α → α → Bool) (x : α) : List α → List α
  | [] => [x]
  | y :: ys => if le x y then x :: y :: ys else y :: insertBy le x ys

/-- A stable sort. -/
def sortBy {α : Type} (le : α → α → Bool) : List α → List α
  | [] => []
  | x :: xs => insertBy le x (sortBy le xs)

/-- Lexicographic order of key lists. -/
def keyLe : List Nat → List Nat → Bool
  | [], _ => true
  | _ :: _, [] => false
  | a :: r, b :: q => decide (a < b) || (a == b && keyLe r q)

/-- A list with each element beside its index. -/
def indexed {α : Type} (l : List α) : List (Nat × α) := (List.range l.length).zip l

def ceilDiv (a b : Nat) : Nat := (a + b - 1) / b

/-! ### Error codes (Table 14.17) -/

namespace E
def ok : Nat := 0x00
def opcode : Nat := 0x01
def field : Nat := 0x02
def range : Nat := 0x03
def lamp : Nat := 0x04
def context : Nat := 0x05
def busy : Nat := 0x06
def capacity : Nat := 0x07
def imageSig : Nat := 0x08
def imageAbi : Nat := 0x09
def delayShort : Nat := 0x0A
def versions : Nat := 0x0B
def state : Nat := 0x0C
def handle : Nat := 0x0D
def combo : Nat := 0x0E
def rewindLost : Nat := 0x0F
def degraded : Nat := 0x10
def sequence : Nat := 0x11
def transfer : Nat := 0x12
def internal : Nat := 0xFF
end E

/-- The first failing check of a list made in order (R31, R54, R196, R324): pairs of a failing condition and code; a code
of 0 is no failure. -/
def firstFail : List (Bool × Nat) → Nat
  | [] => E.ok
  | (c, e) :: rest => if c && e != 0 then e else firstFail rest

/-! ### Context settings (Table 14.4) -/

namespace Setting
def dG : Nat := 0
def dC : Nat := 1
def latePolicy : Nat := 2
def tapSkew : Nat := 3
def hotPolicy : Nat := 4
def coolTime : Nat := 5
def prefixModes : Nat := 6
def resume : Nat := 7
def inputBlock : Nat := 8
def undecidedIn : Nat := 9
def undecidedOut : Nat := 10
def exhaust : Nat := 11
def extendLimit : Nat := 12
def maxPositions : Nat := 13
def stopTrim : Nat := 14
def reqAtCkpt : Nat := 15
def reqBlock : Nat := 16
def draftMode : Nat := 17
def draftKMax : Nat := 18
def copyKey : Nat := 19
def copySkip : Nat := 20
def replicaPeers : Nat := 21
def replicaEvery : Nat := 22

/-- Width, least and largest value of a setting (Table 14.4). -/
def spec : List (Nat × Nat × Nat) :=
  [(12, 80, 2560), (20, 2000, 1024000), (2, 0, 2), (6, 0, 40), (1, 0, 1), (24, 1000, 10000000), (1, 0, 1), (1, 0, 1),
   (1, 0, 1), (1, 0, 1), (1, 0, 1), (2, 0, 2), (7, 1, 64), (5, 1, 17), (1, 0, 1), (1, 0, 1), (1, 0, 1), (2, 0, 3),
   (5, 1, 16), (4, 2, 8), (1, 0, 1), (4, 0, 15), (9, 1, 256)]
end Setting

/-- Value of a setting. -/
def setting (ss : List Nat) (i : Nat) : Nat := ss.getD i 0

/-! ### Counters (Table 14.15) -/

namespace Cnt
def arithSaturate : Nat := 0
def arithNan : Nat := 1
def maskInvalid : Nat := 2
def holdbackOverflow : Nat := 7
def fetchOverrun : Nat := 8
def tapFormat : Nat := 9
def tapDiscarded : Nat := 10
def tapLate : Nat := 11
def tapOverflow : Nat := 12
def tapNormMissing : Nat := 13
def probeAbsent : Nat := 14
def proposed : Nat := 15
def accepted : Nat := 16
def truncated : Nat := 17
def cut : Nat := 18
def rewindLost : Nat := 19
def ckptMerged : Nat := 20
def ckptSkipped : Nat := 21
def ckptRefused : Nat := 22
def itemsLate : Nat := 23
def positionsSent : Nat := 24
/-- Domain counters. -/
def creditError : Nat := 0
def headerError : Nat := 1
def memError : Nat := 2
def tapForeign : Nat := 3
/-- Device counters. -/
def driftError : Nat := 0
def eccCorrected : Nat := 1
end Cnt

/-! ### Shaft header (Table 12.4) -/

namespace Hdr
def type (p : Bytes) : Nat := field p 0 1
def domain (p : Bytes) : Nat := bits (field p 1 1) 1 0
def vc (p : Bytes) : Nat := bits (field p 1 1) 4 2
def flits (p : Bytes) : Nat := field p 2 2
/-- Reserved common-header bits of an inbound packet are zero: HFLAGS [7:6], PORT, 0x05 to 0x0F. RESENT is a field, and says nothing of
an inbound packet (Table 12.4). -/
def reservedOk (p : Bytes) : Bool := bits (field p 1 1) 7 6 == 0 && zeroRange p 4 12
end Hdr

/-! ### Command slot (Table 13.5) -/

namespace Slot
def opcode (b : Bytes) : Nat := field b 0x00 2
def sflags (b : Bytes) : Nat := field b 0x02 1
def desc (b : Bytes) : Bool := bit (sflags b) 0
def lampByte (b : Bytes) : Nat := field b 0x03 1
def tag (b : Bytes) : Nat := field b 0x04 4
def expect (b : Bytes) : Nat := field b 0x08 4
def descLen (b : Bytes) : Nat := field b 0x0C 4
def descAddr (b : Bytes) : Nat := field b 0x10 8
/-- Every operand byte outside the given (offset, length) ranges is zero (R324). -/
def reservedOk (b : Bytes) (used : List (Nat × Nat)) : Bool :=
  ((List.range 40).map (· + 0x18)).all fun o =>
    used.any (fun r => decide (r.1 ≤ o) && decide (o < r.1 + r.2)) || (b.getD o 0 == 0)
end Slot

/-- A token field's reserved bits [31:18] are zero (R7). -/
def tokenOk (v : Nat) : Bool := decide (v < 2 ^ 18)

end Sys2Proof.Machine
end

