-- ==== Sys2Proof/Machine/Flags.lean ====
section
/-! DEFINITION. Status bits: the queue block's flags and watermark (R259 to R263), ALERT_STATUS (R306, R321), the ring
and Lamp status words (R307, R311), link status words (R293). -/

namespace Sys2Proof.Machine

/-! ### The queue block -/

def Queue.span (q : Queue) : Nat := 2 ^ (q.bits + 1)
/-- LEVEL = (write - read) mod 2^(n+1) (R259). -/
def Queue.level (q : Queue) : Nat := (q.wr + q.span - q.rd) % q.span
def Queue.empty (q : Queue) : Bool := q.level == 0
def Queue.full (q : Queue) : Bool := q.level == 2 ^ q.bits
def Queue.slot (q : Queue) (ptr : Nat) : Nat := ptr % 2 ^ q.bits

/-- The watermark notice and crossing count when the level goes from `old` to `new` in one cycle (R262). -/
def Queue.cross (q : Queue) (old new : Nat) : Queue :=
  if q.mark ≠ 0 ∧ old < q.mark ∧ q.mark ≤ new then { q with wm := true, crossings := (q.crossings + 1) % 2 ^ 32 } else q

/-- Write `n` items (R259, R262). -/
def Queue.push (q : Queue) (n : Nat) : Queue :=
  Queue.cross { q with wr := (q.wr + n) % q.span } q.level (q.level + n)

/-- Read `n` items (R259). -/
def Queue.pop (q : Queue) (n : Nat) : Queue := { q with rd := (q.rd + n) % q.span }

/-- Q_STATUS (Table 11.4). -/
def Queue.status (q : Queue) : Nat :=
  q.level + 2 ^ 16 * b2n q.empty + 2 ^ 17 * b2n q.full + 2 ^ 18 * b2n q.wm + 2 ^ 19 * b2n q.flush

/-! ### Instance status -/

def InstState.ringError (i : InstState) : Bool := i.doorbellErr || i.cplHeadErr || i.evtHeadErr

/-- ALERT_STATUS (Table 13.2). -/
def InstState.alertStatus (i : InstState) : Nat :=
  b2n (!i.cplQ.empty) + 2 * b2n (!i.evtQ.empty) + 4 * b2n i.evtQ.wm + 8 * b2n i.lampEvent + 16 * b2n i.ringError +
    32 * b2n i.recovered

def InstState.alerting (i : InstState) : Bool := (i.alertStatus &&& i.alertEnable) != 0

/-- ALERT_N asserted: some instance has an enabled bit set (R321). -/
def State.alertN (s : State) : Bool := s.insts.any InstState.alerting

/-- RING_STATUS (Table 13.4a). -/
def ringStatus (i : InstState) (executing : Bool) : Nat :=
  b2n i.doorbellErr + 2 * b2n i.cplHeadErr + 4 * b2n i.evtHeadErr + 8 * b2n executing + 16 * b2n i.resultBusy

/-! ### The Lamp -/

/-- EXPIRED: the count has reached EXPIRY while the Lamp is held (R308). -/
def State.lampExpired (s : State) : Bool := s.lamp.held && decide (s.lamp.expiry ≤ s.count)

/-- LAMP_STATUS as an instance reads it (Table 13.3). -/
def State.lampStatusWord (s : State) (i : Inst) : Nat :=
  b2n s.lamp.held + 2 * b2n s.lampExpired +
    (if s.lamp.held then
      4 * (match s.lamp.port with | .A => 0 | .B => 1) + 8 * s.lamp.domain + 32 * s.lamp.owner +
        256 * b2n (s.lamp.port == i.port && s.lamp.domain == i.domain)
     else 0)

/-! ### Links -/

def LinkState.code : LinkState → Nat
  | .down => 0 | .training => 1 | .active => 2 | .retrain => 3 | .heldDown => 4 | .dark => 5

/-- SHAFT_STATUS (Table 12.12). -/
def ShaftPort.status (p : ShaftPort) (enabled : Bool) : Nat :=
  p.link.code + 8 * p.domain + 32 * b2n p.x32 + 64 * b2n p.rate16 + 128 * b2n p.calPass + 256 * b2n p.repair +
    512 * b2n enabled + 4096 * (p.retrains % 256) + 2 ^ 20 * b2n p.event

/-- DRIFT_STATUS (Table 12.12). -/
def DriftPort.status (p : DriftPort) : Nat :=
  p.link.code + (if p.link == .active then 8 * p.peer else 0) + 32 * b2n p.lanes2 + 64 * b2n p.calPass +
    128 * b2n p.repair + 256 * (p.retrains % 256) + 2 ^ 16 * b2n p.dead + 2 ^ 17 * b2n p.event

def Mode.code : Mode → Nat
  | .normal => 0 | .banked => 1 | .recovering => 2

def CtxState.code : CtxState → Nat
  | .free => 0 | .opened => 1 | .closing => 2 | .quarantined => 3

def StreamState.code : StreamState → Nat
  | .free => 0 | .admitted => 1 | .intake => 2 | .generating => 3 | .held => 4 | .draining => 5 | .closed => 6
  | .faulted => 7

/-- A live state: ADMITTED, INTAKE, GENERATING or HELD (R38). -/
def StreamState.live : StreamState → Bool
  | .admitted => true | .intake => true | .generating => true | .held => true | _ => false

end Sys2Proof.Machine
end

