-- ==== Sys2Proof/Machine/Ops.lean ====
section
/-! DEFINITION. Shared operations over the state: tables, the device count, output, reports, events, completions and
the Foreman's fetch, contexts and their pins, the stream-table arbiter, transfers, release hand-off, device faults. -/

namespace Sys2Proof.Machine

/-! ### Tables -/

def tget {α : Type} : Tbl α → Nat → Option α
  | [], _ => none
  | (k, v) :: r, n => if k = n then some v else tget r n

def tset {α : Type} : Tbl α → Nat → α → Tbl α
  | [], n, v => [(n, v)]
  | (k, w) :: r, n, v => if n < k then (n, v) :: (k, w) :: r else if n = k then (n, v) :: r else (k, w) :: tset r n v

def tdel {α : Type} : Tbl α → Nat → Tbl α
  | [], _ => []
  | (k, w) :: r, n => if k = n then r else (k, w) :: tdel r n

def tmod {α : Type} (t : Tbl α) (n : Nat) (f : α → α) : Tbl α := t.map fun p => if p.1 = n then (p.1, f p.2) else p

/-- Update entry `n` of a list. -/
def lmod {α : Type} (l : List α) (n : Nat) (f : α → α) : List α := l.modify n f

/-! ### The device count (R370, R371; log 1) -/

/-- The last device count: 56 bits (R3). No wrap is handled within the life of a unit, so a count that has come here stays. -/
def lastCount : Nat := 2 ^ 56 - 1

/-- The count moves forward to the arrival count of a command, never back, and not at all while it is stopped. -/
def State.advance (t : Nat) (s : State) : State := if s.running then { s with count := max s.count (min t lastCount) } else s

/-- One tick of the device count while it runs (R370, R371). -/
def State.tick (s : State) : State := if s.running then { s with count := max s.count (min (s.count + 1) lastCount) } else s

/-- What a command does in a block that is neither held in reset nor stopped by a Pilot fault (R371, R408). -/
def State.live (t : Nat) (s : State) (f : State → State) : State :=
  if s.porst || s.pilotFault then s else f (s.advance t)

/-- What a command of the data or control plane does: it has no occasion before NORMAL, in recovery or in Banked mode
(R360, R390, R391). -/
def State.run (t : Nat) (s : State) (f : State → State) : State :=
  s.live t fun s => if s.mode = .normal then f s else s

/-- Answer a next state. -/
def done (s : State) : Host.Outcome State Fault Refusal := .next s

def State.fresh (s : State) : State := { s with freshCtr := s.freshCtr + 1 }

/-- Activity that leaves and keeps off DORMANT (R375). -/
def State.active (s : State) : State := { s with power := (if s.power = .dormant then .run else s.power), lastActivity := s.count }

/-! ### Output, reports, counters -/

def State.emit (o : Out) (s : State) : State := { s with out := s.out ++ [o] }

namespace Rep
def deviceFault : Nat := 1
def recovered : Nat := 2
def hang : Nat := 3
def unitFailed : Nat := 4
def unitRestored : Nat := 5
def contextFault : Nat := 6
def foremanRestart : Nat := 7
def degraded : Nat := 8
def ledgerFault : Nat := 9
def thermal : Nat := 10
def portDown : Nat := 11
def portHeld : Nat := 12
def shaftStall : Nat := 13
def peerDark : Nat := 14
def fpLoss : Nat := 15
def fpReplica : Nat := 16
def refused : Nat := 17
def creditError : Nat := 18
def boot : Nat := 19
/-- Beside unit kinds, what a DEGRADED report names (R256, R366; log 20). -/
def remapFull : Nat := 16
def spareEmpty : Nat := 17
end Rep

/-- Queue a Headframe report (R366); the head is sent and announced by an in-band interrupt (R385). -/
def State.report (code : Nat) (detail : List Nat) (s : State) : State :=
  if 256 ≤ s.reports.length then { s with reportsDropped := s.reportsDropped + 1 }
  else
    let r : Report := ⟨code, s.count, s.reportsDropped, s.reportSeq % 65536, detail⟩
    let s' := { s with reports := s.reports ++ [r], reportsDropped := 0, reportSeq := s.reportSeq + 1 }
    if s.reports.isEmpty then { s' with out := s'.out ++ [.report r, .ibi 0x5D], mgmt := { s'.mgmt with reportSent := s.count } }
    else s'

def State.domCount (dom i : Nat) (s : State) : State :=
  { s with domCounters := lmod s.domCounters dom (fun l => lmod l i (fun v => (v + 1) % 2 ^ 64)) }

def State.devCount (i n : Nat) (s : State) : State :=
  { s with devCounters := lmod s.devCounters i (fun v => (v + n) % 2 ^ 64) }

/-! ### Contexts -/

def Inst.default : Inst := ⟨.A, 0⟩

def Ctx.free : Ctx :=
  ⟨.free, 0, 0, false, Inst.default, ⟨0, 0, 0, 0, 0, 0⟩, [], 0, [], [], [], [], [], false, false, 0, 0, []⟩

/-- A context by its id; an id never created is FREE. -/
def State.ctx (s : State) (c : Nat) : Ctx := (tget s.ctxs c).getD Ctx.free

def State.modCtx (c : Nat) (f : Ctx → Ctx) (s : State) : State := { s with ctxs := tmod s.ctxs c f }

def State.setCtx (c : Nat) (x : Ctx) (s : State) : State := { s with ctxs := tset s.ctxs c x }

def State.ctxCountBy (c i n : Nat) (s : State) : State :=
  s.modCtx c fun x => { x with counters := lmod x.counters i (fun v => (v + n) % 2 ^ 64) }

def State.ctxCount (c i : Nat) (s : State) : State := s.ctxCountBy c i 1

/-- Stream entries of a context, not FREE. -/
def State.ctxStreams (s : State) (c : Nat) : List (Nat × Stream) := s.streams.filter fun p => p.2.e.ctx == c

def State.liveStreams (s : State) (c : Nat) : Nat := ((s.ctxStreams c).filter fun p => p.2.e.state.live).length

/-- Hot slots that a context's streams hold (R30, R43). -/
def State.hotUsed (s : State) (c : Nat) : Nat := ((s.ctxStreams c).filter fun p => p.2.e.hotSlot.isSome).length

/-- OPEN and CLOSING contexts other than context 0, with their ids: what reservations are summed over (R30). -/
def State.reserving (s : State) : List (Nat × Ctx) :=
  s.ctxs.filter fun p => p.2.state == .opened || p.2.state == .closing

/-- No context other than 0 is OPEN, CLOSING or QUARANTINED (R250, R267, R375). -/
def State.noContexts (s : State) : Bool := s.ctxs.all fun p => p.2.state == .free

/-! ### Installs and pins (R21, R49 to R51, R335) -/

/-- The install of a kind in force. -/
def Ctx.inForce (x : Ctx) (kind : Nat) : Option Install :=
  (x.installs.find? fun r => r.kind == kind && r.inForce).map (·.install)

def Ctx.install (x : Ctx) (kind num : Nat) : Option Install :=
  (x.installs.find? fun r => r.kind == kind && r.install.num == num).map (·.install)

/-- Install numbers in force, 0 for none, in Table 2.1 order. -/
def Ctx.pinsNow (x : Ctx) : List Nat := (List.range 6).map fun k => ((x.inForce k).map (·.num)).getD 0

def State.pinCount (s : State) (c kind num : Nat) : Nat :=
  ((s.ctxStreams c).filter fun p => num != 0 && p.2.e.imagePins.getD kind 0 == num).length

def State.adapterPinCount (s : State) (slot ver : Nat) : Nat :=
  (s.streams.filter fun p => p.2.e.adapterPins.contains (slot, ver)).length

/-- The newest version of a slot that new pins take (R49, R50). -/
def AdapterSlot.newest (a : AdapterSlot) : Option AdapterVersion :=
  (a.versions.filter fun v => !v.withdrawn).foldl (fun b v => match b with
    | none => some v
    | some w => if w.version < v.version then some v else some w) none

/-- Models of the guard-model install that a stream pins (R127). -/
def imageModels : ImageBody → List Model
  | .models ms => ms
  | .probes ms => ms
  | _ => []

/-- The contents an item, a screening state or a pass reads: of an install that is live, or that was retired while one of
these still names it (R17, R51). -/
def Ctx.resident (x : Ctx) (kind num : Nat) : Option Install :=
  ((x.installs ++ x.past).find? fun r => r.kind == kind && r.install.num == num).map (·.install)

def Ctx.pinned (x : Ctx) (pins : List Nat) (kind : Nat) : Option ImageBody :=
  (x.resident kind (pins.getD kind 0)).map (·.body)

def Ctx.guardModels (x : Ctx) (pins : List Nat) : List Model := ((x.pinned pins 2).map imageModels).getD []
def Ctx.probeModels (x : Ctx) (pins : List Nat) : List Model := ((x.pinned pins 3).map imageModels).getD []

def Ctx.patternSets (x : Ctx) (pins : List Nat) : List PatternSet :=
  match x.pinned pins 0 with | some (.patterns ss) => ss | _ => []

def Ctx.fpSel (x : Ctx) (pins : List Nat) : FpSelection :=
  match x.pinned pins 1 with | some (.fpSelect f) => f | _ => ⟨[], []⟩

def Ctx.ensembles (x : Ctx) (pins : List Nat) : List Ensemble :=
  match x.pinned pins 4 with | some (.ensembles es) => es | _ => []

def Ctx.ensemble (x : Ctx) (pins : List Nat) (kind : Nat) : Option Ensemble :=
  (x.ensembles pins).find? fun e => e.kind == kind

def Ctx.gateImage (x : Ctx) (pins : List Nat) : GateImage :=
  match x.pinned pins 5 with | some (.gate g) => g | _ => ⟨[], []⟩

/-- The adapter pins of a new stream: the newest available version of each slot of the context whose target is in the
pinned guard-model image, up to four slots, the lowest-numbered when the models use more: DESIGN CHOICE, R49 does not say which (R49, R154; log 103). -/
def State.adapterPinsNow (s : State) (c : Nat) (pins : List Nat) : List (Nat × Nat) :=
  let x := s.ctx c
  let ids := (x.guardModels pins).map (·.modelId)
  ((s.adapters.filterMap fun p =>
      if p.2.ctx == c && p.2.gen == x.gen then
        p.2.newest.bind fun v => if ids.contains v.body.target then some (p.1, v.version) else none
      else none).take 4)

/-! ### Instances, events and completions -/

def State.inst (s : State) (i : Inst) : InstState := s.insts.getD i.idx InstState.init

def State.modInst (i : Inst) (f : InstState → InstState) (s : State) : State := { s with insts := lmod s.insts i.idx f }

namespace Ev
def close : Nat := 1
def streamFault : Nat := 2
def snapshot : Nat := 3
def verdict : Nat := 4
def window : Nat := 5
def fpEpoch : Nat := 6
def fpLoss : Nat := 7
def lamp : Nat := 8
def eventsLost : Nat := 9
end Ev

/-- An event entry (Table 13.8). -/
def eventEntry (etype ctx stream eseq stamp : Nat) (payload : Bytes) : Bytes :=
  [1, BitVec.ofNat 8 etype] ++ leBytes 2 ctx ++ leBytes 2 stream ++ leBytes 2 0 ++ leBytes 4 eseq ++ leBytes 4 0 ++
    leBytes 8 stamp ++ slice payload 0 40

/-- Whether a queued entry comes after an event of this stamp and row of Table 13.9; EVENTS_LOST keeps its place (R319, R320). -/
def eventAfter (etype stamp : Nat) (e : Bytes) : Bool :=
  etype != Ev.eventsLost && field e 1 1 != Ev.eventsLost &&
    (decide (stamp < field e 0x10 8) || (stamp == field e 0x10 8 && decide (etype < field e 1 1)))

/-- The entry `k` places before the tail. -/
def InstState.eventBack (i : InstState) (k : Nat) : Bytes := (tget i.evtRing (i.evtQ.slot (i.evtQ.wr + 511 - k))).getD []

/-- How many of the newest unread entries come after an event (R319; log 109). -/
def InstState.eventsAfter (i : InstState) (etype stamp : Nat) : Nat :=
  ((List.range i.evtQ.level).takeWhile fun k => eventAfter etype stamp (i.eventBack k)).length

/-- Write one event entry in its place of the queue: the unread entries that come after it move one slot on, with the next ESEQ (R319). -/
def InstState.pushEvent (i : InstState) (etype ctx stream stamp : Nat) (payload : Bytes) : InstState :=
  let n := i.eventsAfter etype stamp
  let moved := (List.range n).foldl (fun r k =>
    tset r (i.evtQ.slot (i.evtQ.wr + 512 - k)) (splice (i.eventBack k) 8 (leBytes 4 (field (i.eventBack k) 8 4 + 1)))) i.evtRing
  { i with
    evtRing := tset moved (i.evtQ.slot (i.evtQ.wr + 512 - n)) (eventEntry etype ctx stream ((i.eseq + 2 ^ 32 - n) % 2 ^ 32) stamp payload)
    evtQ := i.evtQ.push 1
    eseq := (i.eseq + 1) % 2 ^ 32
    lampEvent := i.lampEvent || etype == Ev.lamp }

/-- Queue an event, or drop it at LEVEL 255 or 256; EVENTS_LOST precedes the first event after drops (R320). -/
def InstState.event (i : InstState) (etype ctx stream stamp now : Nat) (payload : Bytes) : InstState :=
  if i.evtQ.level ≤ 254 then
    let j := if i.dropped = 0 then i
      else { i.pushEvent Ev.eventsLost 0 0xFFFF now (leBytes 4 i.dropped) with dropped := 0 }
    j.pushEvent etype ctx stream stamp payload
  else { i with evtLost := min (i.evtLost + 1) (2 ^ 32 - 1), dropped := i.dropped + 1, eseq := (i.eseq + 1) % 2 ^ 32 }

def State.event (i : Inst) (etype ctx stream stamp : Nat) (payload : Bytes) (s : State) : State :=
  s.modInst i fun x => x.event etype ctx stream stamp s.count payload

/-- WINDOW_MASK of a domain grants a control port: the instance exists (R304). -/
def State.granted (s : State) (dom : Nat) (ctl : CtlPort) : Bool :=
  bit ((s.domains.regions.getD dom (0, 0, 0)).2.2) (match ctl with | .A => 0 | .B => 1)

/-- Queue an event to every instance that WINDOW_MASK grants (R304; Table 13.9: FP_EPOCH, FP_LOSS, LAMP). -/
def State.eventAll (etype stamp : Nat) (payload : Bytes) (s : State) : State :=
  { s with insts := s.insts.mapIdx fun k x =>
      if s.granted (k % 4) (if k < 4 then .A else .B) then x.event etype 0 0xFFFF stamp s.count payload else x }

/-- A completion entry (Table 13.6). -/
def completionEntry (status opcode tag seq config stamp effect resultLen : Nat) (result : Bytes) : Bytes :=
  [1, BitVec.ofNat 8 status] ++ leBytes 2 opcode ++ leBytes 4 tag ++ leBytes 4 seq ++ leBytes 4 config ++
    leBytes 8 stamp ++ leBytes 8 effect ++ leBytes 4 resultLen ++ leBytes 4 0 ++ slice result 0 24

/-- A command's answer: its status, whether it changed state, its RESULT and its result buffer. -/
structure Answer where
  status : Nat
  effect : Nat
  result : Bytes
  buffer : Option Bytes
  deriving DecidableEq, Repr

def Answer.fail (e : Nat) : Answer := ⟨e, 0, [], none⟩

/-- Write the completion of a command (R316). -/
def State.postCompletion (c : ExecCmd) (a : Answer) (s : State) : State :=
  s.modInst c.inst fun x =>
    { x with
      cplRing := splice x.cplRing (64 * x.cplQ.slot x.cplQ.wr)
        (completionEntry a.status (Slot.opcode c.slot) (Slot.tag c.slot) c.seq s.foreman.configSeq c.stamp a.effect
          ((a.buffer.map List.length).getD 0) a.result)
      cplQ := x.cplQ.push 1
      result := match a.buffer with
        | none => x.result
        | some b => splice x.result 0 b
      resultBusy := x.resultBusy || a.buffer.isSome }

/-! ### The Foreman's fetch and checks (R310, R313, R315 to R317) -/

inductive PayloadRule where
  | none | required | optional
  deriving DecidableEq, Repr

/-- Table 14.1: opcode, Lamp, payload, and whether the result goes to the buffer. -/
def opcodeTable : List (Nat × Bool × PayloadRule × Bool) :=
  [(0x0001, false, .none, false), (0x0002, true, .none, false), (0x0100, true, .none, false),
   (0x0101, true, .none, false), (0x0102, true, .none, false), (0x0103, true, .none, false),
   (0x0104, false, .none, true), (0x0105, true, .none, false), (0x0200, false, .none, false),
   (0x0201, false, .none, false), (0x0202, false, .none, false), (0x0203, false, .none, false),
   (0x0204, false, .none, false), (0x0205, false, .none, true), (0x0206, false, .none, false)] ++
  [(0x0300, true, .optional, false), (0x0301, true, .optional, false), (0x0302, false, .none, true),
   (0x0303, true, .optional, false), (0x0304, true, .none, false), (0x0305, true, .none, false),
   (0x0306, true, .required, false), (0x0307, true, .none, false), (0x0308, true, .required, false),
   (0x0400, true, .none, false), (0x0401, true, .none, false), (0x0402, true, .required, false),
   (0x0403, true, .none, false), (0x0404, true, .none, false), (0x0405, false, .none, false)] ++
  [(0x0500, true, .none, false), (0x0501, true, .none, false), (0x0502, true, .none, false),
   (0x0503, false, .none, false), (0x0600, true, .none, false), (0x0601, false, .none, false),
   (0x0602, false, .none, true), (0x0700, false, .none, true), (0x0701, false, .none, false),
   (0x0800, true, .none, false), (0x0801, false, .none, false), (0x0802, false, .optional, false)]

def opcodeRow (op : Nat) : Option (Bool × PayloadRule × Bool) := (opcodeTable.find? fun r => r.1 == op).map (·.2)

/-- The Lamp check of R310. -/
def State.lampOk (s : State) (i : Inst) (lampId : Nat) : Bool :=
  s.lamp.held && !s.lampExpired && s.lamp.port == i.port && s.lamp.domain == i.domain && s.lamp.owner == lampId

/-- Operand bytes defined by each opcode, for the reserved-field check (R324; Tables 14.2, 14.6, 14.8, 14.11 to 14.16). -/
def operandRanges (op : Nat) : List (Nat × Nat) :=
  match op with
  | 0x0002 => [(0x18, 28)]
  | 0x0100 => [(0x18, 20)]
  | 0x0105 => [(0x18, 2), (0x1B, 17)]
  | 0x0101 | 0x0102 | 0x0104 | 0x0304 => [(0x18, 2)]
  | 0x0103 => [(0x18, 4), (0x20, 8)]
  | 0x0200 => [(0x18, 5), (0x20, 20)]
  | 0x0201 | 0x0202 | 0x0203 | 0x0205 => [(0x18, 2), (0x20, 8)]
  | 0x0204 => [(0x18, 2), (0x20, 11), (0x2C, 12)]
  | 0x0206 => [(0x18, 2), (0x20, 8)]
  | 0x0300 => [(0x18, 2), (0x20, 8)]
  | 0x0301 => [(0x18, 5)]
  | 0x0302 => [(0x18, 3), (0x1C, 4)]
  | 0x0303 => [(0x18, 3)]
  | 0x0305 | 0x0306 => [(0x18, 4)]
  | 0x0307 => [(0x18, 6)]
  | 0x0308 => [(0x18, 4)]
  | 0x0400 => [(0x18, 3), (0x20, 16)]
  | 0x0401 => [(0x18, 1)]
  | 0x0500 | 0x0501 | 0x0503 => [(0x18, 6)]
  | 0x0502 => [(0x18, 4), (0x20, 4)]
  | 0x0600 | 0x0602 => [(0x18, 4)]
  | 0x0700 => [(0x18, 6)]
  | 0x0800 => [(0x18, 2)]
  | 0x0801 => [(0x18, 6), (0x20, 8)]
  | 0x0802 => [(0x18, 1), (0x1A, 4), (0x20, 10), (0x30, 12)]
  | _ => []

/-- Operand fields with reserved high bits: offset, bytes, bits defined (R3, R7, Tables 0.4, 14.2, 14.6, 14.8, 14.11, 14.16). -/
def operandBits (op : Nat) : List (Nat × Nat × Nat) :=
  match op with
  | 0x0100 => [(0x18, 2, 10), (0x1A, 1, 1)]
  | 0x0101 | 0x0102 | 0x0103 | 0x0104 | 0x0105 | 0x0206 | 0x0302 | 0x0304 | 0x0305 | 0x0306 | 0x0307 | 0x0700 => [(0x18, 2, 10)]
  | 0x0500 | 0x0501 | 0x0502 | 0x0503 => [(0x18, 2, 10), (0x1A, 2, 12)]
  | 0x0201 | 0x0202 | 0x0203 | 0x0205 => [(0x18, 2, 14), (0x20, 8, 56)]
  | 0x0204 => [(0x18, 2, 14), (0x20, 8, 56), (0x28, 1, 5), (0x29, 1, 3), (0x2A, 1, 2)]
  | 0x0300 | 0x0303 => [(0x19, 1, 2)]
  | 0x0301 => [(0x18, 2, 10), (0x1B, 1, 1)]
  | 0x0401 => [(0x18, 1, 3)]
  | 0x0800 => [(0x18, 1, 2)]
  | 0x0801 => [(0x18, 2, 10), (0x1A, 1, 2), (0x1B, 1, 2), (0x1C, 2, 10)]
  | 0x0802 => [(0x18, 1, 2), (0x1A, 2, 14), (0x1C, 2, 10), (0x28, 1, 3), (0x29, 1, 4)]
  | _ => []

/-- The E_FIELD check of R313: slot fields and payload flags; a payload of FP_UPDATE is at most 1,048,576 bytes (Table 14.11). -/
def slotFieldBad (b : Bytes) (rule : PayloadRule) : Bool :=
  (Slot.opcode b == 0x0402 && decide (1048576 < Slot.descLen b)) || Slot.sflags b > 1 || Slot.lampByte b > 7 || !Slot.reservedOk b (operandRanges (Slot.opcode b)) ||
    (operandBits (Slot.opcode b)).any (fun r => decide (2 ^ r.2.2 ≤ field b r.1 r.2.1)) ||
    (match rule with
     | .none => Slot.desc b
     | .required => !Slot.desc b
     | .optional => false) ||
    (if Slot.desc b then
       decide (Slot.descLen b < 16) || decide (16777216 < Slot.descLen b) || Slot.descLen b % 16 != 0 ||
         Slot.descAddr b % 16 != 0
     else Slot.descLen b != 0 || Slot.descAddr b != 0)

/-- The checks of R313 that precede the payload fetch. -/
def State.preChecks (s : State) (i : Inst) (b : Bytes) : Nat :=
  match opcodeRow (Slot.opcode b) with
  | none => if s.mode = .banked then E.combo else E.opcode
  | some (lamp, rule, _) =>
    firstFail
      [(s.mode == .banked, E.combo), (slotFieldBad b rule, E.field), (lamp && !s.lampOk i (Slot.lampByte b), E.lamp),
       (Slot.expect b != 0 && Slot.expect b != s.foreman.configSeq, E.busy)]

def State.portActive (s : State) (p : Nat) : Bool := (s.shaft.getD p ShaftPort.init).link == .active

/-- Send on a Shaft port, which is then not idle (R291). -/
def State.sendOn (port : Nat) (o : Out) (s : State) : State :=
  { s with out := s.out ++ [o], shaft := lmod s.shaft port fun p => { p with lastBusy := s.count } }

/-- The lowest-numbered ACTIVE port of a domain (R280, R289). -/
def State.lowestActive (s : State) (dom : Nat) : Option Nat :=
  (List.range 16).find? fun p => s.portActive p && (s.shaft.getD p ShaftPort.init).domain == dom

/-- The pieces of a payload's bulk reads: at most 256 bytes each, none across a 256-byte boundary (R315). -/
def readPieces (addr : Nat) : Nat → Nat → Nat → List (Nat × Nat)
  | 0, _, _ => []
  | fuel + 1, off, left =>
    if left = 0 then []
    else
      let n := min left (256 - (addr + off) % 256)
      (off, n) :: readPieces addr fuel (off + n) (left - n)

/-- The context that the command of a slot acts on while its payload is fetched, 0 for none (R325). -/
def Slot.context (b : Bytes) : Nat :=
  match Slot.opcode b with
  | 0x0301 | 0x0306 => field b 0x18 2
  | 0x0802 => field b 0x1C 2
  | _ => 0

/-- Issue bulk reads of the executing command while tags are free, at most 64 outstanding per domain, each for one flit of the MEM_REQ
credits that the host has given (R277, R289). -/
def State.issueReads (s : State) : State :=
  match s.foreman.exec with
  | none => s
  | some c =>
    let dom := c.inst.domain
    let addr := Slot.descAddr c.slot
    let mine := s.bulk.filter fun b => b.dom == dom
    let room := min (64 - mine.length) (s.credits.getD dom DomCredits.init).memBal
    let issuedEnd := (c.got.map fun g => g.1 + g.2.length).foldl max
      (((s.bulk.filter fun b => b.inst == c.inst && b.seq == c.seq).map fun b => b.off + b.len).foldl max 0)
    let pieces := (readPieces addr (c.need / 16 + 1) issuedEnd (c.need - issuedEnd)).take room
    let tags := (List.range 64).filter fun t => !(mine.any fun b => b.tag == t)
    let port := if s.portActive c.shaft then c.shaft else (s.lowestActive dom).getD c.shaft
    (pieces.zip tags).foldl (fun (s : State) p =>
      State.sendOn port
        (.bulkRead port p.2 (addr + p.1.1) p.1.2) { s with credits := lmod s.credits dom (fun c => { c with memBal := c.memBal - 1 }), bulk := s.bulk ++ [⟨dom, p.2, c.inst, c.seq, p.1.1, p.1.2, port, s.count, Slot.context c.slot, none⟩] }) s

/-- The order of the round robin: ports first, then domains (R317). -/
def rrInst (k : Nat) : Inst := ⟨if k % 2 = 0 then .A else .B, k / 2 % 4⟩

/-- The slot at CMD_HEAD of an instance. -/
def InstState.headSlot (i : InstState) : Bytes := slice i.cmdRing (64 * i.cmdQ.slot i.cmdQ.rd) 64

/-- A load on its way into force: its effect is still to come, so no later command but a CONTEXT_RESET, which may end it (R325),
executes before it (R317; log 12). -/
def Work.loads : Work → Bool
  | .install .. => true
  | .adapter .. => true
  | .reset .. => false
  | .migrate .. => false

/-- An instance whose next command may be fetched (R313, R316, R317). -/
def State.fetchable (s : State) (i : Inst) : Bool :=
  let x := s.inst i
  (Slot.opcode x.headSlot == 0x0102 ||
    !(s.insts.any fun y => (y.working.map fun w => w.work.loads).getD false)) &&
  x.cmdQ.level != 0 && !x.cplQ.full && x.working.isNone &&
    !(x.resultBusy && ((opcodeRow (Slot.opcode x.headSlot)).map (·.2.2)).getD false)

/-- Whether the Foreman fetches at all: running, not restarting, and after power-on boot (R355, R390). -/
def State.foremanUp (s : State) : Bool :=
  s.foreman.exec.isNone && !s.foreman.restarting && s.boot.phase == .done && s.mode != .recovering

/-- Fetch the slot at CMD_HEAD of an instance and make the checks before its payload (R313). A command whose opcode is
undefined has no row of its own: it completes here. -/
def State.fetch (i : Inst) (s : State) : State :=
  let x := s.inst i
  let b := x.headSlot
  let pre := s.preChecks i b
  let c : ExecCmd := ⟨i, b, x.slotPort.getD (x.cmdQ.slot x.cmdQ.rd) 0, s.foreman.seq + 1, s.count, pre, (if pre = 0 ∧ Slot.desc b then Slot.descLen b else 0),
    []⟩
  let s1 := (s.modInst i fun x => { x with cmdQ := x.cmdQ.pop 1 })
  let last := i.domain * 2 + (match i.port with | .A => 0 | .B => 1)
  let s2 := { s1 with
    foreman := { s1.foreman with exec := some c, seq := (s.foreman.seq + 1) % 2 ^ 32, lastInst := last } }
  if (opcodeRow (Slot.opcode b)).isNone then
    let s3 := s2.postCompletion c (Answer.fail pre)
    { s3 with foreman := { s3.foreman with exec := none } }
  else s2.issueReads

/-- The Foreman serves fetchable instances in round-robin order, one command at a time (R317; log 12). -/
def State.pump : Nat → State → State
  | 0, s => s
  | fuel + 1, s =>
    if s.foremanUp then
      match (List.range 8).map (fun k => rrInst (s.foreman.lastInst + 1 + k)) |>.find? s.fetchable with
      | none => s
      | some i => (s.fetch i).pump fuel
    else s

def pumpFuel : Nat := 130

/-- End the executing command (R313, R316) and let the Foreman go on. -/
def State.complete (c : ExecCmd) (a : Answer) (s : State) : State :=
  let s1 := s.postCompletion c a
  ({ s1 with foreman := { s1.foreman with exec := none }, lastActivity := s1.count }).pump pumpFuel

/-- A command whose work went on past the Foreman completes (R314), and its instance may be served again. -/
def State.endWork (i : Inst) (a : Answer) (s : State) : State :=
  match (s.inst i).working with
  | none => s
  | some w => State.pump pumpFuel { (s.postCompletion w.cmd a).modInst i fun x => { x with working := none } with lastActivity := s.count }

/-- CONFIG_SEQ after a configuration-changing command completes OK: 1 to 0xFFFF_FFFF, then 1 again (R313). -/
def State.bumpConfig (s : State) : State :=
  { s with foreman := { s.foreman with configSeq := if s.foreman.configSeq ≥ 2 ^ 32 - 1 then 1 else s.foreman.configSeq + 1 } }

/-- A command's answer when its checks fail with `e`, or its effect and answer when they pass (R314). -/
def State.finish (c : ExecCmd) (e : Nat) (ok : State → State × Bytes × Option Bytes) (lamp changes : Bool) (s : State) :
    State :=
  if e ≠ 0 then s.complete c (Answer.fail e)
  else
    let r := ok s
    let s1 := if lamp then r.1.bumpConfig else r.1
    s1.complete c ⟨E.ok, if changes then s.count else 0, r.2.1, r.2.2⟩

/-- The payload bytes of a command in offset order. -/
def ExecCmd.payload (c : ExecCmd) : Bytes :=
  c.got.foldl (fun acc g => splice (if acc.length < g.1 then acc ++ List.replicate (g.1 - acc.length) 0 else acc) g.1 g.2) []

def ExecCmd.delivered (c : ExecCmd) : Nat := (c.got.map fun g => g.2.length).sum

/-- The row of an opcode: the executing command of the instance, if it is this opcode and its payload has come, ends
with the status of R313, or goes on to the opcode's own checks and effect. Otherwise the row has no occasion. -/
def State.command (op : Nat) (i : Inst) (f : ExecCmd → State → State) (s : State) : State :=
  match s.foreman.exec with
  | none => s
  | some c =>
    if c.inst = i ∧ Slot.opcode c.slot = op ∧ !s.foreman.restarting ∧ s.mode ≠ .recovering then
      if c.pre ≠ 0 then s.complete c (Answer.fail c.pre)
      else if c.delivered < c.need then s
      else f c s
    else s

/-! ### Transfers (R270) -/

/-- A transfer starts; a write carries the pages that it writes. -/
def State.newWrite (k : XferKind) (ctx : Nat) (stream : Option Nat) (pages : List Nat) (s : State) : State :=
  { s with xfers := tset s.xfers s.nextXfer ⟨k, ctx, (s.ctx ctx).gen, stream, false, s.count, pages⟩, nextXfer := s.nextXfer + 1 }

def State.newXfer (k : XferKind) (ctx : Nat) (stream : Option Nat) (s : State) : State := s.newWrite k ctx stream []

/-- Orphan the transfers a predicate selects, raising the context's orphan count (R270). -/
def State.orphanWhere (c : Nat) (p : Xfer → Bool) (s : State) : State :=
  let hit := (s.xfers.filter fun x => x.2.ctx == c && !x.2.orphan && p x.2).length
  let s1 := { s with xfers := s.xfers.map fun (x : Nat × Xfer) => if x.2.ctx == c && !x.2.orphan && p x.2 then (x.1, { x.2 with orphan := true }) else x }
  s1.modCtx c fun x => { x with orphans := x.orphans + hit }

def State.orphanStream (sid : Nat) (c : Nat) (s : State) : State := s.orphanWhere c fun x => x.stream == some sid

/-- Packets of a context queued for transmit are discarded at once (Table 11.8). -/
def State.dropQueuedCtx (c : Nat) (s : State) : State := { s with queuedTx := s.queuedTx.filter fun q => q.ctx != c }

/-- Packets of a stream that have not reached the transmit stage go with its fault (R270, Table 11.8). -/
def State.dropQueuedStream (sid : Nat) (s : State) : State := { s with queuedTx := s.queuedTx.filter fun q => q.sid != some sid }

/-! ### Stack pages (R249 to R251, R256, R258, R271) -/

/-- The stack on which a byte of region address space lies, and its offset there: 64-byte lines alternate (R249). -/
def stackOf (a : Nat) : Nat := a / 64 % 2
def stackOffset (a : Nat) : Nat := a / 128 * 64 + a % 64

def pagesOf (bytes : Nat) : Nat := ceilDiv bytes Config.pageBytes

/-- The first page and the size of a region under a layout; region 7 takes what remains (R250). -/
def regionSpan (layout : List Nat) (r : Nat) : Nat × Nat := ((layout.take r).sum, if r = 7 then hostPages layout else layout.getD r 0)

/-- The first page of a region. -/
def State.regionFirst (s : State) (r : Nat) : Nat := (s.layout.take r).sum

/-- The page numbers of a stream's page set (R251; the assignment of sets to entries is in entry order, log 15). -/
def State.pageSet (s : State) (sid : Nat) : List Nat := (List.range 13).map fun k => s.regionFirst 2 + 13 * sid + k

/-- The spare pool: the pages of the stream-state region beyond the 16,384 sets (R251). -/
def State.spareSpan (s : State) : Nat × Nat := (s.regionFirst 2 + 16384 * 13, s.layout.getD 2 0 - 16384 * 13)

def inSpan (p : Nat × Nat) (n : Nat) : Bool := decide (p.1 ≤ n) && decide (n < p.1 + p.2)

/-- The region that holds an install of a kind (Table 11.1). -/
def kindRegion (kind : Nat) : Nat := match kind with | 0 => 3 | 4 => 5 | _ => 4

/-- Pages of the images and adapter versions that loads in progress are filling. -/
def Work.pages : Work → List Nat
  | .install _ _ _ i _ => i.pages
  | .adapter _ _ v => v.pages
  | _ => []

/-- Stack pages outside the page sets that something owns: snapshots, writes in progress, images installed or loading, adapters,
vocabularies, staging buffers, replicas and the spare pages that the remap table maps. -/
def State.ownedPages (s : State) : List Nat :=
  s.snapshots.flatMap (·.pages) ++ s.xfers.flatMap (·.2.pages) ++ (s.ctxs.flatMap fun p => p.2.installs.flatMap fun r => r.install.pages) ++
    (s.insts.flatMap fun i => (i.working.map fun w => w.work.pages).getD [] ++ i.stagePages.flatten) ++
    (s.adapters.flatMap fun a => a.2.versions.flatMap (·.pages)) ++ s.vocabs.flatMap (·.2.pages) ++ s.replicas.flatMap (·.pages) ++ s.spareUsed

/-- Pages that no allocation takes: owned, being zeroed, or poisoned. -/
def State.takenPages (s : State) : List Nat := (s.ownedPages ++ s.zeroing ++ s.poisoned).eraseDups

/-- FREE pages of a span (R266, R271). -/
def State.freeIn (s : State) (span : Nat × Nat) : Nat := span.2 - (s.takenPages.filter (inSpan span)).length

/-- The first `n` pages of a cycle of pages that are not taken. -/
def pickPages (taken : List Nat) (page : Nat → Nat) : Nat → Nat → Nat → List Nat
  | 0, _, _ => []
  | _, _, 0 => []
  | fuel + 1, k, n + 1 => if taken.contains (page k) then pickPages taken page fuel (k + 1) (n + 1) else page k :: pickPages taken page fuel (k + 1) n

/-- `n` FREE pages of a span, or as many as there are; where the search begins is free (log 106). -/
def State.allocate (s : State) (span : Nat × Nat) (n : Nat) : List Nat :=
  if n = 0 then []
  else
    let taken := s.takenPages
    pickPages taken (fun k => span.1 + (Config.pageStart s.freshCtr + k) % max 1 span.2) (min span.2 (taken.length + n)) 0 n

def State.allocRegion (s : State) (r n : Nat) : List Nat := s.allocate (regionSpan s.layout r) n

/-- Pages of the spare pool that are FREE. -/
def State.spareFree (s : State) : Nat := s.freeIn s.spareSpan

/-- Retire a poisoned page with a zeroed spare page in its place, if there is one and room in the remapping table, or report
DEGRADED and leave it poisoned (R256). -/
def State.retireTo (p : Nat) (spare : Option Nat) (s : State) : State :=
  match spare with
  | some q =>
    if s.remap.length < 4096 then
      { s with remap := s.remap ++ [(p, q)], spareUsed := s.spareUsed ++ [q], poisoned := s.poisoned.filter (· != p) }
    else ({ s with degraded := true }).report Rep.degraded [Rep.remapFull]
  | none => ({ s with degraded := true }).report Rep.degraded [Rep.spareEmpty]

def State.retirePage (p : Nat) (s : State) : State := s.retireTo p (s.allocate s.spareSpan 1).head?

/-- Pages are released: each is in TRANSIT until it has been zeroed (R258); a poisoned one is retired (R256), and the zeroed page in
its place is FREE at once. -/
def State.releasePages (ps : List Nat) (s : State) : State :=
  let s1 := { s with zeroing := s.zeroing ++ ps.filter fun p => !s.poisoned.contains p && !s.zeroing.contains p }
  (ps.filter s.poisoned.contains).foldl (fun s p => s.retirePage p) s1

/-- Work that cannot go on ends with a status, and the pages that its load was filling are released (R21, R258). -/
def State.failWork (i : Inst) (code : Nat) (s : State) : State :=
  (s.releasePages (((s.inst i).working.map fun w => w.work.pages).getD [])).endWork i (Answer.fail code)

/-- Places of checkpoint slot A or B in a page set (Table 11.2). -/
def slotPages (b : Bool) : List Nat := if b then [10, 11] else [8, 9]

/-- The slot that a capture is written to is B (R253). -/
def Stream.writesB (x : Stream) : Bool := x.e.ckptValid && !x.validB

/-- The pages that a capture of the stream writes. -/
def State.capturePages (s : State) (sid : Nat) (x : Stream) : List Nat := (slotPages x.writesB).map fun k => (s.pageSet sid).getD k 0

/-- Snapshots that wait for zeroed pages take them, the oldest first (R48, R258; log 106). -/
def State.mapSaves (s : State) : State :=
  let fill := fun (s : State) (n : Snapshot) => s.allocRegion 1 (pagesOf n.bytes - n.pages.length)
  let s1 := s.streams.foldl (fun (s : State) p =>
    match p.2.saving with
    | none => s
    | some n =>
      let ps := fill s n
      if ps.isEmpty then s
      else { s with
        streams := tmod s.streams p.1 fun x => { x with saving := x.saving.map fun m => { m with pages := m.pages ++ ps } }
        xfers := s.xfers.map fun (x : Nat × Xfer) =>
          if x.2.kind = .snapWrite ∧ x.2.stream = some p.1 ∧ !x.2.orphan then (x.1, { x.2 with pages := x.2.pages ++ ps }) else x }) s
  (List.range s1.snapshots.length).foldl (fun (s : State) k =>
    match s.snapshots[k]? with
    | none => s
    | some n =>
      let ps := fill s n
      if ps.isEmpty then s else { s with snapshots := lmod s.snapshots k fun m => { m with pages := m.pages ++ ps } }) s1

/-- Pages of a record in the Ashpit region's ring. -/
def AshpitRec.pages (r : AshpitRec) : Nat := max 1 (pagesOf r.bytes)

/-- Seam pages of a scope that installs hold: at most those of the scope that are in use (R258, log 4). -/
def State.seamInUse (s : State) (scope : Nat) : Nat :=
  min (Config.seamAlloc scope) (Config.seamHeld scope ((s.ctxs.map fun p => p.2.installs.length).sum))

/-- The Seam pages that installs held before and hold no more are in TRANSIT until they have been zeroed (R258). -/
def State.releaseSeam (s before : State) : State :=
  { s with seamZero := (List.range 113).foldl (fun (t : Tbl Nat) k =>
      if s.seamInUse k < before.seamInUse k then tset t k ((tget t k).getD 0 + (before.seamInUse k - s.seamInUse k)) else t) s.seamZero }

/-- The pages of retired or replaced installs enter zeroing (R258). -/
def State.releaseInstalls (rs : List InstallRec) (s : State) : State := s.releasePages (rs.flatMap fun r => r.install.pages)

/-- An item in flight, a stream's screening state or a pass still reads an install under the pins it copied (R17, R51, R93). -/
def State.reads (s : State) (c kind num : Nat) : Bool :=
  (s.items.any fun p => p.2.entry.ctx == c && p.2.entry.imagePins.getD kind 0 == num) ||
    ((s.ctxStreams c).any fun p => p.2.scrPins.getD kind 0 == num) ||
    s.passes.any fun p => p.ctx == c && p.kind == kind && p.install == num

/-- Installs superseded and no longer pinned are retired (Table 14.9); their contents stay while something reads them. -/
def State.retireInstalls (c : Nat) (s : State) : State :=
  let keep := fun (r : InstallRec) => r.inForce || s.pinCount c r.kind r.install.num != 0
  let gone := (s.ctx c).installs.filter fun r => !keep r
  let s1 := (s.modCtx c fun x => { x with
      installs := x.installs.filter keep
      past := (x.past ++ x.installs.filter fun r => !keep r).filter fun r => s.reads c r.kind r.install.num }).releaseInstalls gone
  if gone.isEmpty then s1 else s1.releaseSeam s

/-- Pages that an adapter version takes. -/
def adapterPages (v : AdapterVersion) : Nat := pagesOf (v.body.tileData.length + v.body.scaleData.length)

/-- Adapter versions with no pin are retired when a newer version of the slot is available to pins (R50). -/
def AdapterSlot.retired (pins : Nat → Nat) (a : AdapterSlot) (v : AdapterVersion) : Bool :=
  pins v.version == 0 && a.versions.any fun w => decide (v.version < w.version) && !w.withdrawn

def State.retireAdapters (s : State) : State :=
  let gone := s.adapters.flatMap fun p => (p.2.versions.filter (p.2.retired (s.adapterPinCount p.1))).flatMap (·.pages)
  ({ s with
    adapters := s.adapters.map fun (p : Nat × AdapterSlot) =>
      (p.1, { p.2 with
        versions := p.2.versions.filter fun v => !p.2.retired (s.adapterPinCount p.1) v
        past := (p.2.past ++ p.2.versions.filter (p.2.retired (s.adapterPinCount p.1))).filter fun v =>
          s.items.any fun q => q.2.entry.adapterPins.contains (p.1, v.version) }) }).releasePages gone

/-- Try to retire every poisoned page of a page set; the entry is out of use while one is left, or while its own Seam page is poisoned,
which lasts until device recovery (R255, R256; 16 entries of 256 bytes lie in a page, R25). -/
def State.retireSet (sid : Nat) (s : State) : State :=
  let s1 := ((s.pageSet sid).filter s.poisoned.contains).foldl (fun s p => s.retirePage p) s
  if (s1.pageSet sid).any s1.poisoned.contains || s1.seamPoison.contains (112, sid / 16) then
    { s1 with outOfUse := if s1.outOfUse.contains sid then s1.outOfUse else s1.outOfUse ++ [sid] }
  else { s1 with outOfUse := s1.outOfUse.filter (· != sid) }

/-- Pages of the Ashpit ring from `first` on (R350). -/
def State.ringPages (s : State) (first n : Nat) : List Nat :=
  let size := max 1 (s.layout.getD 6 0)
  (List.range n).map fun k => s.regionFirst 6 + (first + k) % size

/-- A read of a record meets the poisoned pages that it uses: the record is marked DAMAGED and kept (Table 11.3). -/
def State.meetAshpit (n : Nat) (s : State) : State :=
  { s with ashpit := s.ashpit.map fun (r : AshpitRec) =>
      if r.num = n ∧ r.complete ∧ (s.ringPages r.first r.pages).any s.poisoned.contains then { r with damaged := true } else r }

/-- A page has come back to the spare pool: the page sets of FREE entries that are out of use are tried again (R256). -/
def State.retryRetire (s : State) : State :=
  let s1 := (s.outOfUse.filter fun e => !(s.streams.any fun p => p.1 == e)).foldl (fun s sid => s.retireSet sid) s
  { s1 with degraded := s1.degraded && !s1.outOfUse.isEmpty }

/-! ### Streams: the arbiter (R16, R38, R39, R42) -/

def State.stream (s : State) (sid : Nat) : Option Stream := tget s.streams sid

def State.modStream (sid : Nat) (f : Stream → Stream) (s : State) : State := { s with streams := tmod s.streams sid f }

def State.modEntry (sid : Nat) (f : Entry → Entry) (s : State) : State :=
  s.modStream sid fun x => { x with e := f x.e }

def Screen.empty : Screen :=
  { inStates := [], outStates := [], windows := [], inFp := [], outFp := [], normIds := [], byteCount := 0, outTok := [],
    inTok := [], gram := ⟨0, 0, []⟩, models := [], settle := [], summary := [], accums := [], reqPending := [],
    ring := [], outputCount := 0, source := none, draftLen := 0, missCount := 0, held := [], origin := 0 }

/-- Precedence of close reasons that coincide, lower first (R42). -/
def closeRank (r : Nat) : Nat :=
  match r with
  | 11 => 0 | 10 => 1 | 8 => 2 | 9 => 3 | 7 => 4 | 12 => 6 | _ => 5

/-- Record a close reason at a count: a recorded one stands, but of two that coincide R42's order decides. Causes of one 10 ns
count are taken to coincide: the model has no finer time (log 103). -/
def Stream.closeWith (now r : Nat) (x : Stream) : Stream :=
  if x.e.closeReason = 0 ∨ (x.closedAt = now ∧ closeRank r < closeRank x.e.closeReason) then
    { x with closedAt := now, e := { x.e with closeReason := r } }
  else x

/-- An outstanding proposal is discarded and LENGTH_PTR returns to COMMIT_PTR (R243). -/
def Stream.dropProposal (x : Stream) : Stream :=
  { x with proposal := none, e := { x.e with lengthPtr := x.e.commitPtr, rewindMark := min x.e.rewindMark x.e.commitPtr |> max x.e.commitPtr },
           screen := { x.screen with ring := x.screen.ring.filter fun r => r.2.held || r.2.committed } }

/-- A live stream enters DRAINING with a close reason (Table 2.5); a cause that coincides with that of a DRAINING stream may
still replace it (R42). -/
def Stream.drain (now r : Nat) (x : Stream) : Stream :=
  let y := x.dropProposal.closeWith now r
  if x.e.state.live then { y with e := { y.e with state := .draining, late := false, host := false, replay := false } }
  else if x.e.state = .draining then x.closeWith now r
  else x

def State.drain (sid r : Nat) (s : State) : State := s.modStream sid (Stream.drain s.count r)

/-- Set HOLD causes: from INTAKE or GENERATING the stream enters HELD and RESUME_STATE takes its state (R39, R41). -/
def Entry.hold (late host replay : Bool) (e : Entry) : Entry :=
  let e1 := { e with late := e.late || late, host := e.host || host, replay := e.replay || replay }
  match e.state with
  | .intake => { e1 with state := .held, resume := .intake }
  | .generating => { e1 with state := .held, resume := .generating }
  | .held => e1
  | _ => e

/-- Clear HOLD causes; with the last one cleared the stream enters RESUME_STATE (R39). -/
def Entry.unhold (late host replay : Bool) (e : Entry) : Entry :=
  let e1 := { e with late := e.late && !late, host := e.host && !host, replay := e.replay && !replay }
  if e.state = .held ∧ !e1.late ∧ !e1.host ∧ !e1.replay then { e1 with state := e.resume } else e1

/-- The transition INTAKE to GENERATING or back, made on RESUME_STATE while HELD (R39). -/
def Entry.turn (dst : StreamState) (e : Entry) : Entry :=
  match e.state with
  | .held => { e with resume := dst }
  | .intake => if dst = .generating then { e with state := dst } else e
  | .generating => if dst = .intake then { e with state := dst } else e
  | .admitted => if dst = .intake then { e with state := dst } else e
  | _ => e

/-- The state in which an item finds its stream: RESUME_STATE while HELD (R39, R69). -/
def Entry.phase (e : Entry) : StreamState := if e.state = .held then e.resume else e.state

/-- A stream enters FAULTED (R39, R42, R345): RESUME_STATE, causes cleared, proposal discarded, transfers orphaned. -/
def Stream.faultWith (now cause reason : Nat) (x : Stream) : Stream :=
  let y := if reason = 0 then x.dropProposal else x.dropProposal.closeWith now reason
  let res := match x.e.state with
    | .admitted => .admitted | .intake => .intake | .generating => .generating | .held => x.e.resume
    | .draining => if x.reachedGen then .generating else .intake
    | st => st
  { y with
    e := { y.e with state := .faulted, resume := res, late := false, host := false, replay := false },
    closedAt := now, fault := cause, writing := none, capPending := false, saving := none, restore := none, runEnd := none,
    reqRun := none, reqPend := none, taps := [], probeWait := [] }

def State.fault (sid cause reason : Nat) (s : State) : State :=
  match s.stream sid with
  | none => s
  | some x =>
    if x.e.state.live || x.e.state == .draining then
      let s0 := { s with passes := s.passes.filter fun p => p.stream != sid }
      let s1 := ((s0.modStream sid (Stream.faultWith s.count cause reason)).dropQueuedStream sid).orphanStream sid x.e.ctx
      s1.event x.admInst Ev.streamFault x.e.ctx sid s.count (leBytes 4 cause ++ leBytes 4 x.e.commitPtr ++ leBytes 4 x.e.ckptPos)
    else if x.e.state = .faulted ∧ x.closedAt = s.count ∧ reason ≠ 0 then s.modStream sid (Stream.closeWith s.count reason)
    else s

/-- Items of a stream, oldest stamp first. -/
def State.itemsOf (s : State) (sid : Nat) : List (Nat × Item) := s.items.filter fun p => p.2.owned && p.2.stream == sid

/-- Stamped after its stream had left the live states: nothing waits for it (Table 2.5). -/
def Item.after (it : Item) : Bool :=
  it.entry.state == .draining || it.entry.state == .closed || it.entry.state == .faulted

/-- The stream has no unanswered item stamped before it left the live states, and no RUN_END outstanding. -/
def State.quiet (s : State) (sid : Nat) : Bool :=
  (s.itemsOf sid).all (·.2.after) && ((s.stream sid).map fun x => x.runEnd.isNone).getD true

/-- A stream's setting in force. -/
def State.streamSetting (s : State) (sid i : Nat) : Nat :=
  match s.stream sid with
  | none => 0
  | some x => setting (s.ctx x.e.ctx).settings i

/-! ### Checkpoint captures (R253, R254) -/

/-- The screening state at COMMIT_PTR (R252, R253): the input side of `rel`, everything else of `screen`. -/
def Stream.atCommit (x : Stream) : Screen :=
  { x.screen with inStates := x.rel.inStates, inFp := x.rel.inFp, windows := x.rel.windows, accums := x.rel.accums,
                  byteCount := x.rel.byteCount, inTok := x.rel.inTok, held := x.heldOut
                  reqPending := ([x.reqRun, x.reqPend].filterMap id).map (·.trigger) }

/-- Start a capture at COMMIT_PTR, or make it pending, or merge it (R254). -/
def State.capture (sid : Nat) (s : State) : State :=
  match s.stream sid with
  | none => s
  | some x =>
    let s1 := s.modStream sid fun x => { x with trigPos := x.e.commitPtr }
    if x.writing.isNone then
      (s1.modStream sid fun x => { x with writing := some ⟨x.e.commitPtr, x.atCommit⟩ }).newWrite .ckptWrite x.e.ctx (some sid) (s.capturePages sid x)
    else if x.capPending then s1.ctxCount x.e.ctx Cnt.ckptMerged
    else s1.modStream sid fun x => { x with capPending := true }

/-- The trigger of R253: COMMIT_PTR at least 16 above the trigger position. -/
def State.captureIfDue (sid : Nat) (s : State) : State :=
  match s.stream sid with
  | none => s
  | some x => if x.trigPos + 16 ≤ x.e.commitPtr then s.capture sid else s

/-! ### Release hand-off (R222, R280) -/

/-- Flits of a packet (Table 12.5, R286). -/
def Out.flits : Out → Nat
  | .releaseOut r => if r.disp = 0 ∨ r.disp = 2 then 1 + ceilDiv r.commit 16 else 1
  | .draft _ => 2
  | .memCpl _ _ _ data => 1 + ceilDiv data.length 64
  | _ => 1

/-- RELEASE credits that a packet takes: a CREDIT takes none (Table 12.2). -/
def Out.charge : Out → Nat
  | .credit _ _ _ _ => 0
  | o => o.flits

/-- The quantum that a packet leaves in: a resent one the quantum after that of the failure, which its time names until then (R292). -/
def sendTime (resent : Bool) (cut now : Nat) : Nat := if resent && cut == now then now + 1 else now

/-- A packet leaves on a port at a count. -/
def Out.leave (port now : Nat) : Out → Out
  | .releaseIn r => .releaseIn { r with port := port, time := sendTime r.resent r.time now }
  | .releaseOut r => .releaseOut { r with port := port, time := sendTime r.resent r.time now }
  | .draft d => .draft { d with port := port, time := sendTime d.resent d.time now }
  | .credit _ i f r => .credit port i f r
  | o => o

/-- Packets waiting in a domain leave in hand-off order while a port is ACTIVE and RELEASE credit lasts (R222, R280). -/
def State.drainTx (dom : Nat) : Nat → State → State
  | 0, s => s
  | fuel + 1, s =>
    match s.queuedTx.find? (fun q => q.dom == dom), s.lowestActive dom with
    | some q, some low =>
      let cr := s.credits.getD dom DomCredits.init
      let n := q.out.charge
      if n ≤ cr.relBal then
        let port := if s.portActive q.port && (s.shaft.getD q.port ShaftPort.init).domain == dom then q.port else low
        State.drainTx dom fuel
          (({ s with
            queuedTx := s.queuedTx.erase q
            credits := lmod s.credits dom (fun c => { c with relBal := c.relBal - n }) }).sendOn port
              (q.out.leave port s.count))
      else s
    | _, _ => s

def drainFuel (s : State) : Nat := s.queuedTx.length + 1

/-- Hand a release packet to the transmit stage of its port, or hold it in order (R222, R280). -/
def State.handOff (p : TxPkt) (s : State) : State :=
  let s1 := { s with queuedTx := s.queuedTx ++ [p] }
  s1.drainTx p.dom (drainFuel s1)

/-- The port of a release that answers no item (R222). -/
def State.releasePort (x : Stream) (s : State) : Nat :=
  match x.outPort with
  | some p => p
  | none => ((List.range 16).find? fun p => (s.domains.ports.getD p (0, false)) == (x.e.domain, true)).getD 0

/-! ### Closing a context (R27, R266, R270) -/

/-- The context is balanced: no transfer, bulk read or load in flight on its account, no stream entry, no Tally waiter (R266). -/
def State.balanced (s : State) (c : Nat) : Bool :=
  (s.ctxStreams c).isEmpty && !(s.xfers.any fun x => x.2.ctx == c && x.2.gen == (s.ctx c).gen) && !(s.bulk.any fun b => b.orphan == some c) &&
    !(s.tallies.any fun p => p.2.waiters.any fun w => w.ctx == c)

/-- A QUARANTINED id with no orphan and balanced ledgers becomes FREE: its snapshots, slots, installs and Tallies go, and their
pages enter zeroing (R27, R258, R337). An id that is not balanced stays, whatever LEDGER_FAULT says of others (R268). -/
def State.tryFree (c : Nat) (s : State) : State :=
  let x := s.ctx c
  if x.state = .quarantined ∧ x.orphans = 0 ∧ s.balanced c then
    let snaps := s.snapshots.filter fun n => n.ctx == c && n.gen == x.gen
    let slots := s.adapters.filter fun a => a.2.ctx == c && a.2.gen == x.gen
    let s1 := { s with
      ctxs := tset s.ctxs c { Ctx.free with gen := x.gen }
      snapshots := s.snapshots.filter fun n => !(n.ctx == c && n.gen == x.gen)
      adapters := s.adapters.filter fun a => !(a.2.ctx == c && a.2.gen == x.gen)
      tallies := s.tallies.filter fun t => !(decide (64 ≤ t.1) && t.2.owner == c && t.2.gen == x.gen)
      flueHomes := s.flueHomes.filter fun h => h.1 != c, quietAt := s.quietAt.set x.domain s.count }
    let s2 := s1.releasePages (snaps.flatMap (·.pages) ++ (x.installs.flatMap fun r => r.install.pages) ++
      slots.flatMap fun a => a.2.versions.flatMap (·.pages))
    (if x.installs.isEmpty then s2 else s2.releaseSeam s).active
  else s

/-- A transfer ends: an orphaned one lowers its context's orphan count, and the pages that it wrote enter zeroing (R270,
Table 11.8), but for a poisoned page of a page set, which is retired with its entry (R256). -/
def State.endXfer (n : Nat) (s : State) : State :=
  match tget s.xfers n with
  | none => s
  | some x =>
    let s1 := { s with xfers := tdel s.xfers n }
    let ps := x.pages.filter fun p => !(s.poisoned.contains p && inSpan (s.regionFirst 2, 16384 * 13) p)
    if x.orphan then ((s1.releasePages ps).modCtx x.ctx fun c => { c with orphans := c.orphans - 1 }).tryFree x.ctx
    else s1.tryFree x.ctx

/-! ### Sending on the Drift links (R296, R297) -/

/-- Bytes that the messages awaiting acknowledgement hold of the 256 KiB replay buffer. -/
def DriftPort.replayUsed (d : DriftPort) : Nat := (d.unacked.map fun m => m.units * 64).sum

/-- A message fits when the whole of it finds room. -/
def DriftPort.fits (d : DriftPort) (m : DriftMsg) : Bool := decide (d.replayUsed + m.units * 64 ≤ 262144)

/-- The next message to send: the oldest of its class with a credit and room, unless a message of another class has
waited 10.00 µs for room before it. -/
def DriftPort.nextMsg (d : DriftPort) (now : Nat) : Option DriftMsg :=
  let heads := [1, 2, 3].filterMap fun c => d.waiting.find? fun m => m.cls == c
  let ready := heads.filter fun m => decide (0 < d.credits.getD (m.cls - 1) 0)
  let starved := ready.find? fun m => !d.fits m && decide (m.since + 1000 ≤ now)
  match starved with
  | some _ => none
  | none => d.waiting.find? fun m => ready.contains m && d.fits m

/-- Send what credits and room allow: SEQ rises per port, and the message is a transfer of its context (R270). -/
def State.driftDrain (q : Nat) : Nat → State → State
  | 0, s => s
  | fuel + 1, s =>
    let d := s.drift.getD q DriftPort.init
    if d.link ≠ .active then s
    else
      match d.nextMsg s.count with
      | none => s
      | some m =>
        let own := m.cls != 1
        let m1 := { m with seq := d.txSeq, xfer := if own then some s.nextXfer else none }
        let s1 := if own then s.newXfer .drift m.ctx (if m.cls = 3 then m.args.head? else none) else s
        State.driftDrain q fuel
          { s1 with
            drift := lmod s1.drift q fun d =>
              { d with waiting := d.waiting.erase m, unacked := d.unacked ++ [m1], txSeq := (d.txSeq + 1) % 2 ^ 32,
                       ackProgress := (if d.unacked.isEmpty then s.count else d.ackProgress), lastAckSent := s.count,
                       credits := d.credits.modify (m.cls - 1) (· - 1) }
            out := s1.out ++ [.drift q m1] }

def State.driftFlush (q : Nat) (s : State) : State := s.driftDrain q ((s.drift.getD q DriftPort.init).waiting.length + 1)

/-- Hand messages to the port of a peer whose direct link is ACTIVE (R295), or in RETRAIN: they wait until it is over (R297, R299). -/
def State.driftSend (q : Nat) (ms : List DriftMsg) (s : State) : State :=
  if (s.drift.getD q DriftPort.init).link = .active ∨ (s.drift.getD q DriftPort.init).link = .retrain then
    ({ s with drift := lmod s.drift q fun d => { d with waiting := d.waiting ++ ms } }).driftFlush q
  else s

/-- The port to a peer, if its link is ACTIVE. -/
def State.portTo (s : State) (dev : Nat) : Option Nat :=
  (List.range 3).find? fun q => let d := s.drift.getD q DriftPort.init; d.link == .active && d.peer == dev

/-! ### Closing a stream (R38) -/

/-- Close record payload (Table 13.9). -/
def closeRecord (x : Stream) : Bytes :=
  let verdict := (x.closeEval.getD x.e.verdict) + (if x.e.verdictLate then 128 else 0)
  leBytes 1 x.e.closeReason ++ leBytes 1 verdict ++ leBytes 1 x.snapStatus ++ [0] ++ leBytes 4 x.e.commitPtr ++
    leBytes 8 x.e.admitStamp ++ leBytes 4 x.screen.outputCount

/-- Bulk reads on a context's account are orphaned (R270). -/
def State.orphanBulk (c : Nat) (s : State) : State :=
  let mine := fun (b : BulkRead) => c != 0 && b.ctx == c && b.orphan.isNone
  { s with bulk := s.bulk.map fun (b : BulkRead) => if mine b then { b with orphan := some c } else b }.modCtx c fun x =>
    { x with orphans := x.orphans + (s.bulk.filter mine).length }

/-- A command that acts on the context and whose payload is being fetched ends with E_CONTEXT (R325; after a CONTEXT_CLOSE, log 106). -/
def State.cutExec (c : Nat) (s : State) : State :=
  match s.foreman.exec with
  | none => s
  | some x =>
    if c ≠ 0 ∧ Slot.context x.slot = c ∧ x.pre = 0 ∧ x.delivered < x.need then s.complete x (Answer.fail E.context) else s

/-- When the last stream entry of a CLOSING context returns to FREE the id becomes QUARANTINED (R27). -/
def State.tryQuarantine (c : Nat) (s : State) : State :=
  if (s.ctx c).state = .closing ∧ (s.ctxStreams c).isEmpty then
    (((((s.modCtx c fun x => { x with state := .quarantined, frozen := false }).dropQueuedCtx c).orphanWhere c fun _ => true).orphanBulk c).cutExec c).tryFree c
  else s

/-- A stream's entry returns to FREE: close record, pins released, page set retired (R38, R50, R256, R300). Items stamped
in DRAINING or FAULTED keep their refusals and their release times. -/
def State.freeStream (sid : Nat) (s : State) : State :=
  match s.stream sid with
  | none => s
  | some x =>
    let s1 := s.event x.admInst Ev.close x.e.ctx sid s.count (closeRecord x)
    let s2 := { s1 with
      streams := tdel s1.streams sid, passes := s1.passes.filter fun p => p.stream != sid
      items := s1.items.map fun (p : Nat × Item) =>
        if p.2.owned ∧ p.2.stream = sid then (p.1, { p.2 with owned := false, entry := x.e }) else p }
    let mask := setting (s.ctx x.e.ctx).settings Setting.replicaPeers
    let s3 := (List.range 4).foldl (fun s dev =>
      match s.portTo dev with
      | some q =>
        if bit mask dev then s.driftSend q [⟨11, 3, 1, 0, x.e.ctx, (s.ctx x.e.ctx).gen, [sid], [], s.count, none⟩] else s
      | none => s) s2
    (((s3.retireInstalls x.e.ctx).retireAdapters).retireSet sid).tryQuarantine x.e.ctx

/-! ### Poisoned entries, device fault, unit failures -/

/-- Capture an Ashpit record (R350, R351): the oldest gives way when the region's ring is full. -/
def State.ashpitRecord (cause : Nat) (suspects : List Nat) (s : State) : State :=
  { s with ashpit := s.ashpit ++ [⟨s.ashpitNext, cause, suspects.map fun c => (c, (s.ctx c).domain), s.count, 0, 0, false, false, false⟩], ashpitNext := s.ashpitNext + 1 }

/-- What becomes of a command that was executing when the Foreman stopped: E_INTERNAL, without a change; a CONTEXT_RESET,
whose effect has happened, completes OK once `all` (R322, R355). -/
def State.abandonOne (all : Bool) (i : Inst) (s : State) : State :=
  match (s.inst i).working with
  | some ⟨c, .reset _ _, eff⟩ => if all then (s.postCompletion c ⟨E.ok, eff, [], none⟩).modInst i fun x => { x with working := none } else s
  | some ⟨c, w, _⟩ => (((s.postCompletion c (Answer.fail E.internal)).modInst i fun x => { x with working := none })).releasePages w.pages
  | none => s

def State.abandonCommands (all : Bool) (s : State) : State :=
  let s1 := (List.range 8).foldl (fun (s : State) k => s.abandonOne all (rrInst k)) s
  match s1.foreman.exec with
  | none => s1
  | some c =>
    let s2 := s1.postCompletion c (Answer.fail E.internal)
    { s2 with foreman := { s2.foreman with exec := none }, bulk := s2.bulk.filter fun b => !(b.inst == c.inst && b.seq == c.seq) }

/-- A device fault is declared (R359, R360): nothing is released from here, every unanswered item goes, the links go
down, FAULT_N is asserted and DEVICE_FAULT is reported. A third restart in a row leaves the device Banked. -/
def State.deviceFault (cause : Nat) (s : State) : State :=
  if s.mode = .banked then s else
  let restarts := match s.recovery with | none => 0 | some r => r.restarts + 1
  let s1 := { s with
    mode := if 3 ≤ restarts then .banked else .recovering
    power := if 3 ≤ restarts then .banked else .run
    recovery := if 3 ≤ restarts then none else some ⟨cause, restarts⟩
    pins := { s.pins with faultN := true, vid := 0 }
    rows := s.rows.map fun (r : Row) => { r with power := .off, waking := false }
    items := [], chains := [], passes := [], hangs := [], remapping := [], bulk := []
    queuedTx := []
    shaft := s.shaft.map fun (p : ShaftPort) => { p with link := (if p.link = LinkState.heldDown then LinkState.heldDown else LinkState.down), event := true }
    drift := s.drift.map fun (d : DriftPort) => { d with link := (if d.link = LinkState.heldDown then LinkState.heldDown else LinkState.down), unacked := [], waiting := [], credits := [64, 64, 64], rxXfers := [] }
    xfers := [] }
  let s2 := s1.report Rep.deviceFault [cause, 0]
  if 3 ≤ restarts then (s2.abandonCommands true).report Rep.boot [1, E.internal] else s2

/-! Cause codes of a device fault, in the order of R359 (log 20). -/

namespace FaultCause
def thermal : Nat := 1
def stackPort : Nat := 2
def unitCore : Nat := 3
def sharedSeam : Nat := 4
def lastUnit : Nat := 5
def foreman : Nat := 6
def warm : Nat := 7
def recover : Nat := 8
end FaultCause

/-! ### ECC (R255, Table 11.3) -/

/-- The part of Table 1.8 in which a page of shared Seam lies, in that table's order: PRESUMED, R25 gives the sizes and no places
(log 106). -/
def sharedPart (page : Nat) : Nat :=
  ((List.range 6).find? fun k => decide (4096 * page < (Config.seamParts.take (k + 1)).sum)).getD 5

/-- The page is one of shared Seam, in that part. -/
def eccInPart (k : Nat) : Ecc → Bool
  | .seam 112 p => decide (p < Config.seamPages 112) && sharedPart p == k
  | _ => false

/-- An uncorrectable error in shared Seam that declares a device fault: outside the stream table, the candidate buffers and the hot
tables (R359). -/
def eccFatal (e : Ecc) : Bool := eccInPart 1 e || eccInPart 2 e || eccInPart 5 e

/-- The error lies in a page of a context's image: one of `own`, engine Seam, or the hot tables. -/
def eccInImage (own : List Nat) : Ecc → Bool
  | .stack p => own.contains p
  | .seam k p => if k < 112 then decide (p < Config.seamPages k) else eccInPart 4 (.seam k p)
  | _ => false

/-- A stack page that meets an uncorrectable error is poisoned (R255). -/
def State.poison (p : Nat) (s : State) : State :=
  { s with poisoned := if s.poisoned.contains p || Config.stackPages ≤ p then s.poisoned else s.poisoned ++ [p] }

/-- A Seam page that meets an uncorrectable error is poisoned, and leaves its ledger (R256). -/
def State.poisonSeam (scope page : Nat) (s : State) : State :=
  { s with seamPoison := if s.seamPoison.contains (scope, page) || Config.seamPages scope ≤ page then s.seamPoison else s.seamPoison ++ [(scope, page)] }

/-- ECC acts: a corrected error is counted, an uncorrectable one poisons its page, of the stacks when the access reads it. -/
def State.meet (own : List Nat) (e : Ecc) (s : State) : State :=
  match e with
  | .clean => s
  | .corrected => s.devCount Cnt.eccCorrected 1
  | .stack p => if own.contains p then s.poison p else s
  | .seam k p => s.poisonSeam k p

/-- An access that reads the stack pages `own` of an image: a device fault, what an error in the image does (a page poisoned before, by
a scrub, is met here: R257), or what the access does. -/
def State.access (own : List Nat) (e : Ecc) (bad good : State → State) (s : State) : State :=
  let s1 := s.meet own e
  if eccFatal e then s1.deviceFault FaultCause.sharedSeam
  else if eccInImage own e || own.any s.poisoned.contains then bad s1
  else good s1

/-- Stack pages of the installs that a set of pins names, of some kinds, and of adapter versions (R255). -/
def State.imagePages (s : State) (c : Nat) (pins : List Nat) (kinds : List Nat) : List Nat :=
  kinds.flatMap fun k => (((s.ctx c).resident k (pins.getD k 0)).map (·.pages)).getD []

def State.adapterPagesOf (s : State) (apins : List (Nat × Nat)) : List Nat :=
  apins.flatMap fun p => match tget s.adapters p.1 with
    | some a => ((a.versions ++ a.past).filter fun v => v.version == p.2).flatMap (·.pages)
    | none => []

/-- Units of each kind that have not failed. -/
def State.working (s : State) (n : Nat) (mk : Nat → UnitId) : List Nat := (List.range n).filter fun k => !s.failed.contains (mk k)

end Sys2Proof.Machine
end

