-- ==== Sys2Proof/Machine/Control.lean ====
section
/-! DEFINITION. Control port windows: registers, the Lamp, rings and queues, ledgers, link status (R5, R6, R259 to R269,
R293, R304 to R321). -/

namespace Sys2Proof.Machine

/-! ### Instances and access (R275, R276, R304) -/

def State.portDomain (s : State) (port : Nat) : Nat := (s.shaft.getD port ShaftPort.init).domain

/-- A transaction that breaks a rule of Table 12.9 is dropped and counted (R287). -/
def State.memError (dom : Nat) (s : State) : State := s.domCount dom Cnt.memError

/-- An access over an ACTIVE Shaft port to the instance of its domain; without the grant it is dropped and counted. -/
def State.window (t port : Nat) (ctl : CtlPort) (s : State) (f : Inst → State → State) : State :=
  s.live t fun s =>
    if !s.portActive port then s
    else
      let s := s.active
      let dom := s.portDomain port
      if s.granted dom ctl then f ⟨ctl, dom⟩ s else s.memError dom

/-! ### The Lamp (R307 to R309) -/

namespace LampKind
def granted : Nat := 0
def renewed : Nat := 1
def released : Nat := 2
def expired : Nat := 3
def broken : Nat := 4
end LampKind

def portBit (p : CtlPort) : Nat := match p with | .A => 0 | .B => 1

def State.lampEvent (kind : Nat) (l : Lamp) (stamp : Nat) (s : State) : State :=
  s.eventAll Ev.lamp stamp (leBytes 1 kind ++ leBytes 1 (portBit l.port) ++ leBytes 1 l.domain ++ leBytes 1 l.owner)

/-- Record the outcome of an operation in the instance's LAMP_RESULT. -/
def State.lampResult (i : Inst) (op status : Nat) (s : State) : State :=
  s.modInst i fun x => { x with lampStatus := status, lampOp := op }

/-- The requester owns the Lamp from here: GRANT and EXPIRY (R308). -/
def State.lampGrant (i : Inst) (owner kind breaks : Nat) (s : State) : State :=
  let lease := (s.inst i).lease
  let l : Lamp := ⟨true, i.port, i.domain, owner, s.count, s.count + lease * 100000, (s.lamp.breaks + breaks) % 2 ^ 32, i.port, false⟩
  ({ s with lamp := l }).lampEvent kind l s.count

def State.lampOwner (s : State) (i : Inst) (owner : Nat) : Bool :=
  s.lamp.held && s.lamp.port == i.port && s.lamp.domain == i.domain && s.lamp.owner == owner

def State.leaseBad (s : State) (i : Inst) : Bool := (s.inst i).lease < 1 || 10000 < (s.inst i).lease

def State.lampAcquire (i : Inst) (owner : Nat) (s : State) : State :=
  if s.leaseBad i then s.lampResult i 0 E.range
  else if !s.lamp.held then (s.lampGrant i owner LampKind.granted 0).lampResult i 0 E.ok
  else if s.lampOwner i owner then (s.lampGrant i owner LampKind.renewed 0).lampResult i 0 E.ok
  else if s.lampExpired then s.lampResult i 0 E.lamp
  else s.lampResult i 0 E.busy

def State.lampRelease (i : Inst) (owner : Nat) (s : State) : State :=
  if !s.lamp.held then s.lampResult i 1 E.state
  else if s.lampOwner i owner || (s.lampExpired && s.lamp.port == i.port) then
    let s1 := { s with lamp := { s.lamp with held := false } }
    (s1.lampEvent LampKind.released s.lamp s.count).lampResult i 1 E.ok
  else s.lampResult i 1 E.lamp

def State.lampBreak (i : Inst) (owner : Nat) (s : State) : State :=
  if s.leaseBad i then s.lampResult i 2 E.range
  else if !s.lamp.held then s.lampResult i 2 E.state
  else if !s.lampExpired then s.lampResult i 2 E.busy
  else if s.lamp.port == i.port then s.lampResult i 2 E.lamp
  else (s.lampGrant i owner LampKind.broken 1).lampResult i 2 E.ok

/-- The EXPIRED event of a lease that has run out, queued once (R308). -/
def State.lampDue (s : State) : State :=
  if s.lampExpired ∧ !s.lamp.expiryPosted then
    ({ s with lamp := { s.lamp with expiryPosted := true } }).lampEvent LampKind.expired s.lamp s.lamp.expiry
  else s

def execAcquire (t port : Nat) (ctl : CtlPort) (owner : Nat) (s : State) : Host.Outcome State Fault Refusal :=
  done (s.window t port ctl fun i s => s.lampDue.lampAcquire i (owner % 8))
def execRelease (t port : Nat) (ctl : CtlPort) (owner : Nat) (s : State) : Host.Outcome State Fault Refusal :=
  done (s.window t port ctl fun i s => s.lampDue.lampRelease i (owner % 8))
def execBreakLamp (t port : Nat) (ctl : CtlPort) (owner : Nat) (s : State) : Host.Outcome State Fault Refusal :=
  done (s.window t port ctl fun i s => s.lampDue.lampBreak i (owner % 8))

/-- The device count reaches EXPIRY: the Lamp stays held and a LAMP event is queued, once (R308). -/
def execLampExpiry (t : Nat) (s : State) : Host.Outcome State Fault Refusal :=
  done (s.live t State.lampDue)

/-! ### Rings (R311, R261) -/

/-- A CMD_TAIL write: accepted when it moves the tail forward by 1 to 16 - LEVEL slots; a write of the current tail has no
effect; any other value sets DOORBELL_ERROR. Then the Foreman fetches. -/
def State.doorbell (i : Inst) (port v : Nat) (s : State) : State :=
  let x := s.inst i
  let move := (v + 32 - x.cmdQ.wr) % 32
  if 32 ≤ v then s.modInst i fun x => { x with doorbellErr := true }
  else if move = 0 then s
  else if move ≤ 16 - x.cmdQ.level then
    (s.modInst i fun x =>
      { x with cmdQ := x.cmdQ.push move
               slotPort := (List.range move).foldl (fun l k => l.set ((x.cmdQ.wr + k) % 16) port) x.slotPort }).pump pumpFuel
  else s.modInst i fun x => { x with doorbellErr := true }

def State.cplHeadWrite (i : Inst) (v : Nat) (s : State) : State :=
  let x := s.inst i
  let move := (v + 32 - x.cplQ.rd) % 32
  if v < 32 ∧ move ≤ x.cplQ.level then (s.modInst i fun x => { x with cplQ := x.cplQ.pop move }).pump pumpFuel
  else s.modInst i fun x => { x with cplHeadErr := true }

def State.evtHeadWrite (i : Inst) (v : Nat) (s : State) : State :=
  let x := s.inst i
  let move := (v + 512 - x.evtQ.rd) % 512
  if v < 512 ∧ move ≤ x.evtQ.level then s.modInst i fun x => { x with evtQ := x.evtQ.pop move }
  else s.modInst i fun x => { x with evtHeadErr := true }

/-- Unlisted bits of the ring registers are RSV: ignored in a write (R5, Table 13.4a). -/
def execCmdTail (t port : Nat) (ctl : CtlPort) (value : Word) (s : State) : Host.Outcome State Fault Refusal :=
  done (s.window t port ctl fun i s => s.doorbell i port (value.toNat % 32))
def execCplHead (t port : Nat) (ctl : CtlPort) (value : Word) (s : State) : Host.Outcome State Fault Refusal :=
  done (s.window t port ctl fun i s => s.cplHeadWrite i (value.toNat % 32))
def execEvtHead (t port : Nat) (ctl : CtlPort) (value : Word) (s : State) : Host.Outcome State Fault Refusal :=
  done (s.window t port ctl fun i s => s.evtHeadWrite i (value.toNat % 512))

/-- Change queue 0 (command), 1 (completion) or 2 (event) of an instance. -/
def InstState.modQueue (k : Nat) (f : Queue → Queue) (x : InstState) : InstState :=
  match k with
  | 0 => { x with cmdQ := f x.cmdQ }
  | 1 => { x with cplQ := f x.cplQ }
  | 2 => { x with evtQ := f x.evtQ }
  | _ => x

def InstState.queue (k : Nat) (x : InstState) : Queue :=
  match k with | 0 => x.cmdQ | 1 => x.cplQ | _ => x.evtQ

/-- A flush request sets FLUSH_PENDING; one made while one is pending is merged into it (R261). -/
def State.flushReq (i : Inst) (k : Nat) (s : State) : State := s.modInst i fun x => x.modQueue k fun q => { q with flush := true }

def execFlush (t port : Nat) (ctl : CtlPort) (queue : Nat) (s : State) : Host.Outcome State Fault Refusal :=
  done (s.window t port ctl fun i s => s.flushReq i queue)

/-- The pending flush discards the queued items by moving the read pointer, without crossing or notice (R261); freed
completion entries let the Foreman fetch. -/
def execFlushDiscard (t : Nat) (inst : Inst) (queue : Nat) (s : State) : Host.Outcome State Fault Refusal :=
  done (s.live t fun s =>
    if ((s.inst inst).queue queue).flush then
      (s.modInst inst fun x => x.modQueue queue fun q => { q with rd := q.wr, flush := false }).pump pumpFuel
    else s)

/-! ### Ledgers (R266 to R269) -/

/-- The terms of a scope (R266). -/
structure Ledger where
  free : Nat
  held : Nat
  transit : Nat
  orphan : Nat
  deriving DecidableEq, Repr

def Ledger.total (l : Ledger) : Nat := (l.free + l.held + l.transit + l.orphan) % 2 ^ 32
def Ledger.balanced (l : Ledger) : Bool := l.transit == 0 && l.orphan == 0
def Ledger.zero : Ledger := ⟨0, 0, 0, 0⟩

/-- Receive buffer flits per channel (Table 12.3). -/
def vcFlits : List Nat := [1024, 16384, 24576, 16384, 7168]

/-- D of R275: domains that hold at least one enabled port. -/
def State.domainCount (s : State) : Nat := ((List.range 4).filter fun d => s.domains.ports.contains (d, true)).length

/-- A domain's share of a channel (R278). -/
def State.vcShare (s : State) (vc : Nat) : Nat := vcFlits.getD vc 0 / max 1 s.domainCount

def State.shaftLedger (s : State) (dom vc : Nat) : Ledger :=
  let c := s.credits.getD dom DomCredits.init
  if vc < 5 then
    let h := c.granted.getD vc 0
    let tr := c.freed.getD vc 0
    ⟨s.vcShare vc - h - tr, h, tr, 0⟩
  else if vc = 6 then ⟨0, c.relBal, c.relAdv - c.relBal, 0⟩
  else Ledger.zero

/-- Pages that writes in progress are writing, of transfers that are orphaned or not. -/
def State.writePages (s : State) (orphan : Bool) (p : Xfer → Bool) : List Nat :=
  ((s.xfers.filter fun x => x.2.orphan == orphan && p x.2).flatMap (·.2.pages)).eraseDups

/-- Stack pages in TRANSIT: a write in progress, or being zeroed (Table 11.6). -/
def State.transitPages (s : State) : List Nat := (s.zeroing ++ s.writePages false fun _ => true).eraseDups

/-- Stack pages that orphaned writes are writing. -/
def State.orphanPages (s : State) : List Nat := (s.writePages true fun _ => true).filter fun p => !s.transitPages.contains p

/-- Pages of a span that something owns or that stay poisoned, and that are neither in TRANSIT nor ORPHAN. -/
def State.heldIn (s : State) (span : Nat × Nat) : Nat :=
  (s.takenPages.filter fun p => inSpan span p && !s.transitPages.contains p && !s.orphanPages.contains p).length

/-- HELD of a region: the fingerprint store, Ashpit and host-directed regions by their own records, the page sets always (R251). -/
def State.regionHeld (s : State) (r : Nat) : Nat :=
  match r with
  | 0 => s.layout.getD 0 0
  | 2 => 16384 * 13 - ((s.transitPages ++ s.orphanPages).filter (inSpan (s.regionFirst 2, 16384 * 13))).length + s.heldIn s.spareSpan
  | 6 => (s.ashpit.map fun a => pagesOf a.bytes).sum
  | 7 => (s.domains.regions.map fun d => d.2.1).sum
  | _ => s.heldIn (regionSpan s.layout r)

def State.stackLedger (s : State) (r : Nat) : Ledger :=
  let span := regionSpan s.layout r
  let tr := (s.transitPages.filter (inSpan span)).length
  let orph := (s.orphanPages.filter (inSpan span)).length
  let held := s.regionHeld r
  ⟨span.2 - held - tr - orph, held, tr, orph⟩

/-- Stack pages of a context: its snapshots, images, adapter versions and its streams' page sets; context 0: the staging buffers
(R334). -/
def State.ctxPages (s : State) (c : Nat) : List Nat :=
  let x := s.ctx c
  if c = 0 then s.insts.flatMap fun i => i.stagePages.flatten
  else
    ((s.snapshots.filter fun n => n.ctx == c && n.gen == x.gen).flatMap (·.pages)) ++ (x.installs.flatMap fun i => i.install.pages) ++
      ((s.adapters.filter fun a => a.2.ctx == c && a.2.gen == x.gen).flatMap fun a => a.2.versions.flatMap (·.pages)) ++
      (s.ctxStreams c).flatMap fun p => s.pageSet p.1

/-- The stack-page account of a context: its writes are in TRANSIT, its orphaned ones ORPHAN (Table 11.6). -/
def State.ctxStackLedger (s : State) (c : Nat) : Ledger :=
  let tr := s.writePages false fun x => x.ctx == c
  let orph := s.writePages true fun x => x.ctx == c
  ⟨0, (((s.ctxPages c).eraseDups).filter fun p => !tr.contains p && !orph.contains p).length, tr.length, orph.length⟩

def StreamState.transit : StreamState → Bool
  | .faulted => true | _ => false

def State.entryLedger (s : State) (c : Option Nat) : Ledger :=
  let ss := match c with | none => s.streams | some c => s.ctxStreams c
  let tr := (ss.filter fun p => p.2.e.state.transit).length
  let unused := (s.outOfUse.filter fun e => (tget s.streams e).isNone).length
  let extra := match c with | none => unused | some 0 => unused | some _ => 0
  ⟨(if c.isNone then Config.streams - ss.length - extra else 0), ss.length - tr + extra, tr, 0⟩

def Tally.ledger (x : Tally) : Ledger := ⟨x.count, x.consumed, 0, 0⟩

def Ledger.add (a b : Ledger) : Ledger := ⟨a.free + b.free, a.held + b.held, a.transit + b.transit, a.orphan + b.orphan⟩

/-- Image and adapter loads in progress, of one context or of all. -/
def State.loads (s : State) (c : Option Nat) : Nat :=
  (s.insts.filter fun i => match i.working with
    | some ⟨_, .install x _ _ _ _, _⟩ => c.isNone || c == some x
    | some ⟨_, .adapter x _ _, _⟩ => c.isNone || c == some x
    | _ => false).length

/-- Seam pages of a scope (Table 1.4, R25, R256): a poisoned one has left the ledger; the parts of shared Seam that are not allocated
in pages are HELD; TRANSIT is what loads are filling and what is being zeroed. How many pages of a scope an install holds or a load fills
is free (log 4). -/
def State.seamLedger (s : State) (scope : Nat) : Ledger :=
  let total := Config.seamPages scope - (s.seamPoison.filter fun p => p.1 == scope).length
  let held := min total (Config.seamPages scope - Config.seamAlloc scope + s.seamInUse scope)
  let tr := min (total - held) ((tget s.seamZero scope).getD 0 + (if s.loads none = 0 then 0 else Config.seamFill scope (s.loads none)))
  ⟨total - held - tr, held, tr, 0⟩

/-- The terms that LEDGER_SELECT of an instance names (Table 11.7); another domain's scopes read as all 0 (R305). -/
def State.ledger (s : State) (i : Inst) (sel : Nat) : Ledger :=
  let q := bits sel 3 0
  let by_ := bit sel 4
  let scope := bits sel 27 16
  if by_ then
    let c := scope % 1024
    let x := s.ctx c
    if c ≠ 0 ∧ (x.state = .free ∨ x.domain ≠ i.domain) then Ledger.zero
    else
      match q with
      | 2 => ⟨0, Config.seamHeld (1000 + c) x.installs.length, (if s.loads (some c) = 0 then 0 else Config.seamFill (1000 + c) (s.loads (some c))), 0⟩
      | 3 => s.ctxStackLedger c
      | 4 => s.entryLedger (some c)
      | 5 => ((s.tallies.filter fun t => t.2.owner == c && t.2.gen == x.gen).map fun t => t.2.ledger).foldl Ledger.add Ledger.zero
      | 6 => ⟨0, 0, 0, x.orphans⟩
      | _ => Ledger.zero
  else
    match q with
    | 0 => if scope % 4 = i.domain then s.shaftLedger (scope % 4) (scope / 4) else Ledger.zero
    | 1 =>
      match s.drift[scope % 4]? with
      | none => Ledger.zero
      | some d => if 1 ≤ scope / 4 ∧ scope / 4 ≤ 3 then
          let c := d.credits.getD (scope / 4 - 1) 0
          ⟨0, c, 64 - c, 0⟩
        else Ledger.zero
    | 2 => s.seamLedger scope
    | 3 => if scope < 8 then s.stackLedger scope else Ledger.zero
    | 4 => s.entryLedger none
    | 5 => match tget s.tallies scope with
      | none => Ledger.zero
      | some x => if x.owner ≠ 0 ∧ (s.ctx x.owner).domain ≠ i.domain then Ledger.zero else x.ledger
    | _ => Ledger.zero

/-- A read of LEDGER_TOTAL captures the other terms and LEDGER_STATUS into the instance's shadow (R269). -/
def State.ledgerTotal (i : Inst) (s : State) : State × Nat :=
  let l := s.ledger i (s.inst i).ledgerSel.toNat
  (s.modInst i fun x =>
    { x with ledgerShadow := some ⟨[l.free, l.held, l.transit, l.orphan], l.balanced, s.ledgerFault⟩, ledgerRead := [] },
   l.total)

def ledgerStatus (balanced captured fault : Bool) : Nat := b2n balanced + 2 * b2n captured + 4 * b2n fault

/-- A read of another ledger word `k` (0 FREE to 3 ORPHAN, 4 STATUS): the shadow once after a capture, else live. -/
def State.ledgerWord (i : Inst) (k : Nat) (s : State) : State × Nat :=
  let x := s.inst i
  let l := s.ledger i x.ledgerSel.toNat
  match x.ledgerShadow with
  | some sh =>
    if x.ledgerRead.contains k then
      (s, if k = 4 then ledgerStatus l.balanced false s.ledgerFault else [l.free, l.held, l.transit, l.orphan].getD k 0)
    else
      (s.modInst i fun x => { x with ledgerRead := k :: x.ledgerRead },
       if k = 4 then ledgerStatus sh.balanced true sh.fault else sh.terms.getD k 0)
  | none => (s, if k = 4 then ledgerStatus l.balanced false s.ledgerFault else [l.free, l.held, l.transit, l.orphan].getD k 0)

def execLedgerTotalRead (t port : Nat) (ctl : CtlPort) (s : State) : Host.Outcome State Fault Refusal :=
  done (s.window t port ctl fun i s => (s.ledgerTotal i).1)

/-! ### Reads (R5, R6, R306, R307, R311, R293) -/

/-- The live value of a 64-bit quantity by the offset of its low word. -/
def State.wide (s : State) (off : Nat) : Option Nat :=
  match off with
  | 0x008 => some s.count
  | 0x110 => some s.lamp.grant
  | 0x118 => some s.lamp.expiry
  | _ => none

/-- A read of a low word captures the high word into the instance's shadow (R6). -/
def State.lowRead (i : Inst) (off v : Nat) (s : State) : State × Nat :=
  (s.modInst i fun x => { x with shadows := tset x.shadows (off + 4) (BitVec.ofNat 32 (v / 2 ^ 32)) }, v % 2 ^ 32)

/-- The next read of the high word returns the shadow; without one, the live value (R6). -/
def State.highRead (i : Inst) (off v : Nat) (s : State) : State × Nat :=
  match tget (s.inst i).shadows off with
  | some w => (s.modInst i fun x => { x with shadows := tdel x.shadows off }, w.toNat)
  | none => (s, v / 2 ^ 32 % 2 ^ 32)

def execLowWordRead (t port : Nat) (ctl : CtlPort) (off : Nat) (s : State) : Host.Outcome State Fault Refusal :=
  done (s.window t port ctl fun i s =>
    match s.wide off with
    | none => s
    | some v => (s.lowRead i off v).1)

/-- A slot holds an unread entry. -/
def Queue.unread (q : Queue) (k : Nat) : Bool := (List.range q.level).any fun j => q.slot (q.rd + j) == k

def Queue.reg (q : Queue) (k : Nat) : Nat :=
  match k with | 0 => q.status | 4 => q.mark | 8 => q.crossings | _ => 0

/-- The value of a register word without a read effect. -/
def State.plainRead (s : State) (i : Inst) (off : Nat) : Nat :=
  let x := s.inst i
  if off = 0x000 then portBit i.port + 2 * i.domain + 0x100
  else if off = 0x004 then s.mode.code
  else if off = 0x010 then s.foreman.configSeq
  else if off = 0x014 then x.alertEnable
  else if off = 0x018 then x.alertStatus
  else if off = 0x01C then s.recoveries
  else if off = 0x104 then x.lease
  else if off = 0x108 then s.lampStatusWord i
  else if off = 0x10C then x.lampStatus + 256 * x.lampOp
  else if off = 0x120 then s.lamp.breaks
  else if 0x200 ≤ off ∧ off < 0x210 then x.cmdQ.reg (off - 0x200)
  else if off = 0x210 then x.cmdQ.wr
  else if off = 0x214 then x.cmdQ.rd
  else if off = 0x218 then
    ringStatus x (x.working.isSome || (match s.foreman.exec with | none => false | some c => decide (c.inst = i)))
  else if 0x220 ≤ off ∧ off < 0x230 then x.cplQ.reg (off - 0x220)
  else if off = 0x230 then x.cplQ.wr
  else if off = 0x234 then x.cplQ.rd
  else if 0x240 ≤ off ∧ off < 0x250 then x.evtQ.reg (off - 0x240)
  else if off = 0x250 then x.evtQ.wr
  else if off = 0x254 then x.evtQ.rd
  else if off = 0x258 then x.evtLost
  else if off = 0x300 then x.ledgerSel.toNat
  else if 0x400 ≤ off ∧ off < 0x440 then
    let p := (off - 0x400) / 4
    let q := s.shaft.getD p ShaftPort.init
    if q.domain = i.domain then q.status (s.domains.ports.getD p (0, false)).2 else 0
  else if 0x440 ≤ off ∧ off < 0x44C then (s.drift.getD ((off - 0x440) / 4) DriftPort.init).status
  else if off = 0x44C then s.routing.device
  else if off = 0x450 then s.replicaEpoch
  else if 0x800 ≤ off ∧ off < 0xC00 then field x.cmdRing (off - 0x800) 4
  else if 0xC00 ≤ off ∧ off < 0x1000 then
    if x.cplQ.unread ((off - 0xC00) / 64) then field x.cplRing (off - 0xC00) 4 else 0
  else if 0x1000 ≤ off ∧ off < 0x2000 then field x.result (off - 0x1000) 4
  else if 0x2000 ≤ off ∧ off < 0x6000 then
    if x.evtQ.unread ((off - 0x2000) / 64) then field ((tget x.evtRing ((off - 0x2000) / 64)).getD []) (off % 64) 4 else 0
  else 0

/-- A register read over a window: its effect on the instance's shadows, and its value. -/
def State.readReg (i : Inst) (off : Nat) (s : State) : State × Nat :=
  match s.wide off with
  | some v => s.lowRead i off v
  | none =>
    match s.wide (off - 4) with
    | some v => if 4 ≤ off then s.highRead i off v else (s, 0)
    | none =>
      if off = 0x304 then s.ledgerTotal i
      else if 0x308 ≤ off ∧ off ≤ 0x318 then s.ledgerWord i ((off - 0x308) / 4)
      else (s, s.plainRead i off)

/-! ### Writes -/

/-- One Lamp operation written to LAMP_CTRL; OP 3 is ignored (R307). -/
def State.lampCtrl (i : Inst) (v : Nat) (s : State) : State :=
  match v % 4 with
  | 0 => s.lampDue.lampAcquire i (bits v 6 4)
  | 1 => s.lampDue.lampRelease i (bits v 6 4)
  | 2 => s.lampDue.lampBreak i (bits v 6 4)
  | _ => s

/-- A write to a word of a queue block (Table 11.4). -/
def Queue.write (q : Queue) (k v : Nat) : Queue :=
  match k with
  | 0 => if bit v 18 then { q with wm := false } else q
  | 4 => { q with mark := v % 65536 }
  | 12 => if bit v 0 then { q with flush := true } else q
  | _ => q

/-- A register write over a window (Tables 13.1 to 13.4a, 11.4, 11.7, 12.12): each field acts as its access code states. -/
def State.writeReg (i : Inst) (port off v : Nat) (s : State) : State :=
  if off = 0x014 then s.modInst i fun x => { x with alertEnable := v % 64 }
  else if off = 0x018 then
    s.modInst i fun x => { x with lampEvent := x.lampEvent && !bit v 3, recovered := x.recovered && !bit v 5 }
  else if off = 0x100 then s.lampCtrl i v
  else if off = 0x104 then s.modInst i fun x => { x with lease := v % 16384 }
  else if 0x200 ≤ off ∧ off < 0x210 then s.modInst i fun x => { x with cmdQ := x.cmdQ.write (off - 0x200) v }
  else if off = 0x210 then s.doorbell i port (v % 32)
  else if off = 0x218 then
    (s.modInst i fun x =>
      { x with doorbellErr := x.doorbellErr && !bit v 0, cplHeadErr := x.cplHeadErr && !bit v 1,
               evtHeadErr := x.evtHeadErr && !bit v 2, resultBusy := x.resultBusy && !bit v 4 }).pump pumpFuel
  else if 0x220 ≤ off ∧ off < 0x230 then s.modInst i fun x => { x with cplQ := x.cplQ.write (off - 0x220) v }
  else if off = 0x234 then s.cplHeadWrite i (v % 32)
  else if 0x240 ≤ off ∧ off < 0x250 then s.modInst i fun x => { x with evtQ := x.evtQ.write (off - 0x240) v }
  else if off = 0x254 then s.evtHeadWrite i (v % 512)
  else if off = 0x300 then s.modInst i fun x => { x with ledgerSel := BitVec.ofNat 32 (v % 32 + 65536 * bits v 27 16) }
  else if off = 0x318 then (if bit v 2 then { s with ledgerFault := false } else s)
  else if 0x400 ≤ off ∧ off < 0x440 then
    let p := (off - 0x400) / 4
    if bit v 20 ∧ s.portDomain p = i.domain then { s with shaft := lmod s.shaft p fun x => { x with event := false } } else s
  else if 0x440 ≤ off ∧ off < 0x44C then
    (if bit v 17 then { s with drift := lmod s.drift ((off - 0x440) / 4) fun x => { x with event := false } } else s)
  else if 0x800 ≤ off ∧ off < 0xC00 then s.modInst i fun x => { x with cmdRing := splice x.cmdRing (off - 0x800) (leBytes 4 v) }
  else s

/-- REGISTER_WRITE: a 4-byte aligned word of the window (R6, R287). -/
def execRegisterWrite (t port : Nat) (ctl : CtlPort) (off : Nat) (value : Word) (s : State) :
    Host.Outcome State Fault Refusal :=
  done (s.window t port ctl fun i s =>
    if off % 4 = 0 ∧ off < 65536 then s.writeReg i port off value.toNat else s.memError i.domain)

end Sys2Proof.Machine
end

