-- ==== Sys2Proof/Machine/Crypto.lean ====
section
/-! DEFINITION. SHA-256 and SHA-384 (FIPS 180-4) and ECDSA on NIST P-384 (FIPS 186-5), which R44, R392 to R398 name. -/

namespace Sys2Proof.Machine

/-! ### SHA -/

/-- Round constants of SHA-384; SHA-256 uses the upper halves of the first 64. -/
def shaK : List Nat :=
  [0x428A2F98D728AE22, 0x7137449123EF65CD, 0xB5C0FBCFEC4D3B2F, 0xE9B5DBA58189DBBC] ++
  [0x3956C25BF348B538, 0x59F111F1B605D019, 0x923F82A4AF194F9B, 0xAB1C5ED5DA6D8118] ++
  [0xD807AA98A3030242, 0x12835B0145706FBE, 0x243185BE4EE4B28C, 0x550C7DC3D5FFB4E2] ++
  [0x72BE5D74F27B896F, 0x80DEB1FE3B1696B1, 0x9BDC06A725C71235, 0xC19BF174CF692694] ++
  [0xE49B69C19EF14AD2, 0xEFBE4786384F25E3, 0x0FC19DC68B8CD5B5, 0x240CA1CC77AC9C65] ++
  [0x2DE92C6F592B0275, 0x4A7484AA6EA6E483, 0x5CB0A9DCBD41FBD4, 0x76F988DA831153B5] ++
  [0x983E5152EE66DFAB, 0xA831C66D2DB43210, 0xB00327C898FB213F, 0xBF597FC7BEEF0EE4] ++
  [0xC6E00BF33DA88FC2, 0xD5A79147930AA725, 0x06CA6351E003826F, 0x142929670A0E6E70] ++
  [0x27B70A8546D22FFC, 0x2E1B21385C26C926, 0x4D2C6DFC5AC42AED, 0x53380D139D95B3DF] ++
  [0x650A73548BAF63DE, 0x766A0ABB3C77B2A8, 0x81C2C92E47EDAEE6, 0x92722C851482353B] ++
  [0xA2BFE8A14CF10364, 0xA81A664BBC423001, 0xC24B8B70D0F89791, 0xC76C51A30654BE30] ++
  [0xD192E819D6EF5218, 0xD69906245565A910, 0xF40E35855771202A, 0x106AA07032BBD1B8] ++
  [0x19A4C116B8D2D0C8, 0x1E376C085141AB53, 0x2748774CDF8EEB99, 0x34B0BCB5E19B48A8] ++
  [0x391C0CB3C5C95A63, 0x4ED8AA4AE3418ACB, 0x5B9CCA4F7763E373, 0x682E6FF3D6B2B8A3] ++
  [0x748F82EE5DEFB2FC, 0x78A5636F43172F60, 0x84C87814A1F0AB72, 0x8CC702081A6439EC] ++
  [0x90BEFFFA23631E28, 0xA4506CEBDE82BDE9, 0xBEF9A3F7B2C67915, 0xC67178F2E372532B] ++
  [0xCA273ECEEA26619C, 0xD186B8C721C0C207, 0xEADA7DD6CDE0EB1E, 0xF57D4F7FEE6ED178] ++
  [0x06F067AA72176FBA, 0x0A637DC5A2C898A6, 0x113F9804BEF90DAE, 0x1B710B35131C471B] ++
  [0x28DB77F523047D84, 0x32CAAB7B40C72493, 0x3C9EBE0A15C9BEBC, 0x431D67C49C100D4C] ++
  [0x4CC5D4BECB3E42B6, 0x597F299CFC657E2A, 0x5FCB6FAB3AD6FAEC, 0x6C44198C4A475817]

def sha384Init : List Nat :=
  [0xCBBB9D5DC1059ED8, 0x629A292A367CD507, 0x9159015A3070DD17, 0x152FECD8F70E5939] ++
  [0x67332667FFC00B31, 0x8EB44A8768581511, 0xDB0C2E0D64F98FA7, 0x47B5481DBEFA4FA4]

def sha256Init : List Nat :=
  [0x6A09E667, 0xBB67AE85, 0x3C6EF372, 0xA54FF53A] ++
  [0x510E527F, 0x9B05688C, 0x1F83D9AB, 0x5BE0CD19]

/-- Big-endian value of an octet string. -/
def beNat (bs : Bytes) : Nat := bs.foldl (fun a b => a * 256 + b.toNat) 0

/-- The `n` octets of a value, most significant first. -/
def beBytes (n v : Nat) : Bytes := (leBytes n v).reverse

/-- Rotation counts of a SHA variant: word bits, Sigma0, Sigma1 (three rotations), sigma0, sigma1 (two rotations, a shift). -/
structure ShaParams where
  w : Nat
  s0 : Nat × Nat × Nat
  s1 : Nat × Nat × Nat
  g0 : Nat × Nat × Nat
  g1 : Nat × Nat × Nat
  k : List Nat

def sha384Params : ShaParams := ⟨64, (28, 34, 39), (14, 18, 41), (1, 8, 7), (19, 61, 6), shaK⟩
def sha256Params : ShaParams :=
  ⟨32, (2, 13, 22), (6, 11, 25), (7, 18, 3), (17, 19, 10), (shaK.take 64).map (· / 2 ^ 32)⟩

def rotr (w x n : Nat) : Nat := x / 2 ^ n + x % 2 ^ n * 2 ^ (w - n)

def bigSigma (w : Nat) (r : Nat × Nat × Nat) (x : Nat) : Nat := (rotr w x r.1 ^^^ rotr w x r.2.1) ^^^ rotr w x r.2.2
def smallSigma (w : Nat) (r : Nat × Nat × Nat) (x : Nat) : Nat := (rotr w x r.1 ^^^ rotr w x r.2.1) ^^^ (x / 2 ^ r.2.2)

/-- Extend the message schedule, newest word first. -/
def shaExtend (p : ShaParams) : Nat → List Nat → List Nat
  | 0, ws => ws
  | n + 1, ws =>
    let x := (smallSigma p.w p.g1 (ws.getD 1 0) + ws.getD 6 0 + smallSigma p.w p.g0 (ws.getD 14 0) + ws.getD 15 0) % 2 ^ p.w
    shaExtend p n (x :: ws)

/-- One round on the eight working variables. -/
def shaRound (p : ShaParams) (v : List Nat) (kw : Nat × Nat) : List Nat :=
  match v with
  | [a, b, c, d, e, f, g, h] =>
    let m := 2 ^ p.w
    let ch := (e &&& f) ^^^ ((m - 1 - e) &&& g)
    let t1 := h + bigSigma p.w p.s1 e + ch + kw.1 + kw.2
    let maj := ((a &&& b) ^^^ (a &&& c)) ^^^ (b &&& c)
    let t2 := bigSigma p.w p.s0 a + maj
    [(t1 + t2) % m, a, b, c, (d + t1) % m, e, f, g]
  | x => x

/-- One block of 16 words. -/
def shaBlock (p : ShaParams) (h : List Nat) (blk : Bytes) : List Nat :=
  let b := p.w / 8
  let ws := (List.range 16).map fun i => beNat ((blk.drop (b * i)).take b)
  let all := (shaExtend p (p.k.length - 16) ws.reverse).reverse
  ((p.k.zip all).foldl (shaRound p) h).zipWith (fun x y => (x + y) % 2 ^ p.w) h

/-- The padded blocks of a message. -/
def shaBlocks (p : ShaParams) : Nat → List Nat → Bytes → List Nat
  | 0, h, _ => h
  | n + 1, h, bs => shaBlocks p n (shaBlock p h (bs.take (2 * p.w))) (bs.drop (2 * p.w))

def shaDigest (p : ShaParams) (init : List Nat) (msg : Bytes) : Bytes :=
  let blk := 2 * p.w
  let lenB := p.w / 4
  let z := (2 * blk - (msg.length + 1 + lenB) % blk) % blk
  let padded := msg ++ [0x80#8] ++ List.replicate z 0 ++ beBytes lenB (8 * msg.length)
  (shaBlocks p (padded.length / blk) init padded).flatMap (beBytes (p.w / 8))

/-- SHA-384 (R394). -/
def sha384 (msg : Bytes) : Bytes := (shaDigest sha384Params sha384Init msg).take 48
/-- SHA-256 (R44). -/
def sha256 (msg : Bytes) : Bytes := shaDigest sha256Params sha256Init msg

/-! ### P-384 -/

namespace P384
def p : Nat := 2 ^ 384 - 2 ^ 128 - 2 ^ 96 + 2 ^ 32 - 1
def b : Nat := 0xB3312FA7E23EE7E4988E056BE3F82D19181D9C6EFE8141120314088F5013875AC656398D8A2ED19D2A85C8EDD3EC2AEF
def n : Nat := 0xFFFFFFFFFFFFFFFFFFFFFFFFFFFFFFFFFFFFFFFFFFFFFFFFC7634D81F4372DDF581A0DB248B0A77AECEC196ACCC52973
def gx : Nat := 0xAA87CA22BE8B05378EB1C71EF320AD746E1D3B628BA79B9859F741E082542A385502F25DBF55296C3A545E3872760AB7
def gy : Nat := 0x3617DE4A96262C6F5D9E98BF9292DC29F8F41DBD289A147CE9DA3113B5F0B8C00A60B1CE1D7E819D7A431D7C90EA0E5F

/-- x^e mod m by square and multiply over `fuel` bits. -/
def pow (m : Nat) : Nat → Nat → Nat → Nat
  | 0, _, _ => 1
  | fuel + 1, x, e =>
    let h := pow m fuel (x * x % m) (e / 2)
    if e % 2 = 1 then x * h % m else h

def inv (m x : Nat) : Nat := pow m 384 (x % m) (m - 2)
def sub (x y : Nat) : Nat := (x + p - y % p) % p

def onCurve (q : Nat × Nat) : Bool :=
  decide (q.1 < p) && decide (q.2 < p) && q.2 * q.2 % p == (sub (q.1 * q.1 % p * q.1) (3 * q.1) + b) % p

/-- A point in Jacobian coordinates, x / z^2 and y / z^3; z = 0 is the point at infinity. -/
structure Point where
  x : Nat
  y : Nat
  z : Nat

def ofAffine (q : Nat × Nat) : Point := ⟨q.1, q.2, 1⟩
def infinity : Point := ⟨1, 1, 0⟩

def dbl (q : Point) : Point :=
  let d := q.z * q.z % p
  let g := q.y * q.y % p
  let e := q.x * g % p
  let a := 3 * sub q.x d * (q.x + d) % p
  let x3 := sub (a * a) (8 * e)
  ⟨x3, sub (a * sub (4 * e) x3) (8 * g * g), 2 * q.y * q.z % p⟩

def add (q r : Point) : Point :=
  if q.z = 0 then r
  else if r.z = 0 then q
  else
    let c := q.z * q.z % p
    let d := r.z * r.z % p
    let u := q.x * d % p
    let v := r.x * c % p
    let s := q.y * d % p * r.z % p
    let t := r.y * c % p * q.z % p
    if u = v then (if s = t then dbl q else infinity)
    else
      let h := sub v u
      let w := sub t s
      let h2 := h * h % p
      let h3 := h * h2 % p
      let m := u * h2 % p
      let x3 := sub (w * w) (h3 + 2 * m)
      ⟨x3, sub (w * sub m x3) (s * h3), q.z * r.z % p * h % p⟩

/-- The multiple of a point, over `fuel` bits. -/
def mul : Nat → Nat → Point → Point
  | 0, _, _ => infinity
  | fuel + 1, k, q =>
    let h := mul fuel (k / 2) (dbl q)
    if k % 2 = 1 then add q h else h

/-- The x coordinate of a point; none at infinity. -/
def affineX (q : Point) : Option Nat := if q.z = 0 then none else some (q.x * inv p (q.z * q.z) % p)

end P384

/-- A key of 96 octets as a point: x then y (R398). -/
def keyPoint (key : Bytes) : Nat × Nat := (beNat (key.take 48), beNat ((key.drop 48).take 48))

/-- ECDSA verification of r then s over a digest. -/
def ecdsaVerify (key sig digest : Bytes) : Bool :=
  let q := keyPoint key
  let r := beNat (sig.take 48)
  let s := beNat ((sig.drop 48).take 48)
  let z := beNat digest
  if P384.onCurve q ∧ 0 < r ∧ r < P384.n ∧ 0 < s ∧ s < P384.n then
    let w := P384.inv P384.n s
    match P384.affineX (P384.add (P384.mul 384 (z * w % P384.n) (P384.ofAffine (P384.gx, P384.gy))) (P384.mul 384 (r * w % P384.n) (P384.ofAffine q))) with
    | none => false
    | some x => x % P384.n == r
  else false

/-- ECDSA signature with a nonce: r then s. -/
def ecdsaSign (d k : Nat) (digest : Bytes) : Bytes :=
  let z := beNat digest
  let r := match P384.affineX (P384.mul 384 (k % P384.n) (P384.ofAffine (P384.gx, P384.gy))) with | none => 0 | some x => x % P384.n
  let s := P384.inv P384.n k * (z + r * d) % P384.n
  beBytes 48 r ++ beBytes 48 s

end Sys2Proof.Machine
end

