-- ==== Sys2Proof/Machine/Container.lean ====
section
/-! DEFINITION. Opvex containers: header, section table, signature block and the checks of R398; the tested-combination
table (R387) and what an image ABI must match. -/

namespace Sys2Proof.Machine

/-! ### The container header (Table 17.8) -/

namespace Img
def magic (b : Bytes) : Nat := field b 0x00 4
def kind (b : Bytes) : Nat := field b 0x04 1
def sections (b : Bytes) : Nat := field b 0x06 2
def version (b : Bytes) : List Nat := [field b 0x08 2, field b 0x0A 2, field b 0x0C 2]
def abi (b : Bytes) : Nat × Nat := (field b 0x12 2, field b 0x10 2)
def boundG (b : Bytes) : Nat := field b 0x14 4
def boundC (b : Bytes) : Nat := field b 0x18 4
def tallyCount (b : Bytes) : Nat := field b 0x1C 2
def bundleId (b : Bytes) : Bytes := slice b 0x20 16
def imageBytes (b : Bytes) : Nat := field b 0x30 8
def sectionTable (b : Bytes) : Nat := field b 0x38 8
def sigOffset (b : Bytes) : Nat := field b 0x40 8
/-- The reserved bytes of the header are zero. -/
def reservedOk (b : Bytes) : Bool :=
  zeroRange b 0x05 1 && zeroRange b 0x0E 2 && zeroRange b 0x1E 2 && zeroRange b 0x48 24
end Img

/-- A section table entry (R396). -/
structure SectionEntry where
  type : Nat
  off : Nat
  bytes : Nat
  reservedOk : Bool

def Img.sectionAt (b : Bytes) (i : Nat) : SectionEntry :=
  let o := Img.sectionTable b + 32 * i
  ⟨field b o 2, field b (o + 8) 8, field b (o + 16) 8, zeroRange b (o + 2) 6 && zeroRange b (o + 24) 8⟩

def Img.sectionList (b : Bytes) : List SectionEntry := (List.range (Img.sections b)).map (Img.sectionAt b)

/-- Section TYPE and least and most counts by KIND (Table 17.9). -/
def kindSections (kind : Nat) : List (Nat × Nat × Nat) :=
  match kind with
  | 0 => [(1, 1, 1)]
  | 1 => [(2, 1, 1), (3, 0, 8)]
  | 2 => [(4, 1, 1)]
  | 3 => [(4, 1, 1)]
  | 4 => [(5, 1, 1)]
  | 5 => [(6, 1, 1)]
  | 6 => [(7, 1, 1)]
  | 7 => [(8, 1, 1)]
  | 8 => [(9, 1, 1)]
  | 9 => [(10, 1, 1)]
  | _ => []

/-- No two ranges (offset, bytes) overlap. -/
def disjointRanges : List (Nat × Nat) → Bool
  | [] => true
  | (o, n) :: rest => rest.all (fun r => decide (o + n ≤ r.1) || decide (r.1 + r.2 ≤ o)) && disjointRanges rest

/-! ### Directories (R396) -/

structure Block where
  off : Nat
  btype : Nat
  bytes : Nat
  clean : Bool

def dirBlocks (sec : Bytes) : List Block :=
  (List.range (field sec 0 4)).map fun i =>
    let o := 8 + 16 * i
    ⟨field sec o 6, field sec (o + 6) 1, field sec (o + 8) 6, zeroRange sec (o + 7) 1 && zeroRange sec (o + 14) 2⟩

def Block.data (sec : Bytes) (b : Block) : Bytes := slice sec b.off b.bytes

/-- The directory and its blocks lie in the section, aligned and without overlap (R398). -/
def blocksOk (sec : Bytes) : Bool :=
  let bs := dirBlocks sec
  let head := 8 + 16 * field sec 0 4
  decide (head ≤ sec.length) && bs.all (fun b => b.off % 64 == 0 && decide (b.off + b.bytes ≤ sec.length)) &&
    disjointRanges ((0, head) :: bs.map fun b => (b.off, b.bytes))

/-- The reserved bits of a directory are zero, and its blocks of the types of the kind. -/
def dirOk (types : List Nat) (sec : Bytes) : Bool :=
  zeroRange sec 4 4 && (dirBlocks sec).all fun b => b.clean && types.contains b.btype

/-! ### Signatures (R398) -/

/-- The public key of a root and whether a domain may use it: root 0 is Salfort's and admits every domain. -/
def State.rootKey (s : State) (root : Nat) (dom : Option Nat) : Option Bytes :=
  if root = 0 then some s.fuses.rootKey
  else
    match s.roots[root - 1]? with
    | none => none
    | some r => match dom with
      | none => none
      | some d => if r.key ≠ [] ∧ bit r.mask d then some r.key else none

/-- Step 1 of R398: whether the container's signature checks pass. `dom` is the command's domain; a bundle has none. -/
def State.sigOk (s : State) (dom : Option Nat) (b : Bytes) : Bool :=
  let n := Img.imageBytes b
  let so := Img.sigOffset b
  let root := field b so 1
  let key := slice b (so + 0x08) 96
  let mask := field b (so + 0xC8) 2
  if b.length < 416 ∨ Img.magic b ≠ 0x5856504F ∨ n ≠ b.length ∨ so + 320 ≠ n then false
  else if !(zeroRange b (so + 1) 7 && zeroRange b (so + 0xCA) 6 && zeroRange b (so + 0x130) 16) then false
  else if 8 ≤ Img.kind b ∧ root ≠ 0 then false
  else if !(decide (Img.kind b < 16) && bit mask (Img.kind b)) then false
  else
    match s.rootKey root dom with
    | none => false
    | some rk =>
      ecdsaVerify rk (slice b (so + 0x68) 96) (sha384 (key ++ slice b (so + 0xC8) 2)) &&
        ecdsaVerify key (slice b (so + 0xD0) 96) (sha384 (b.take so))

/-- The bytes of the first section of a TYPE. -/
def Img.sectionOf (b : Bytes) (type : Nat) : Bytes :=
  match (Img.sectionList b).find? fun e => e.type == type with
  | none => []
  | some e => slice b e.off e.bytes

/-- A header count or size outside its range (R413, Table 17.8). -/
def headerRangeBad (b : Bytes) : Bool :=
  Img.imageBytes b % 64 != 0 || decide (268435456 < Img.imageBytes b) || decide (256 < Img.tallyCount b)

/-- The TYPE of the section of a kind that has a directory. -/
def directoryOf (kind : Nat) : Option Nat :=
  match kind with
  | 0 => some 1
  | 2 => some 4
  | 3 => some 4
  | 4 => some 5
  | 5 => some 6
  | _ => none

/-- Step 3 of R398: the container's form. -/
def containerFieldOk (kind : Nat) (b : Bytes) : Bool :=
  let secs := Img.sectionList b
  let so := Img.sigOffset b
  Img.kind b == kind && Img.reservedOk b && (if 8 ≤ kind then Img.abi b == (0, 0) else (Img.bundleId b).all (· == 0)) &&
    Img.sectionTable b % 64 == 0 && decide (Img.sectionTable b + 32 * Img.sections b ≤ so) &&
    decide (1 ≤ Img.sections b) && decide (Img.sections b ≤ 16) &&
    secs.all (fun e => e.reservedOk && (kindSections kind).any (fun k => k.1 == e.type)) &&
    (kindSections kind).all (fun k =>
      let c := (secs.filter fun e => e.type == k.1).length
      decide (k.2.1 ≤ c) && decide (c ≤ k.2.2)) &&
    secs.all (fun e => e.off % 64 == 0 && decide (e.off + e.bytes ≤ so)) &&
    disjointRanges (secs.map fun e => (e.off, e.bytes)) && ((directoryOf kind).all fun ty => blocksOk (Img.sectionOf b ty))

/-! ### The tested-combination table (R387, Table 17.3) -/

/-- The image ABI ranges (major, least minor, greatest minor) of the row that a stepping and a firmware version match. -/
def comboRow (b0 : Bool) (fw : List Nat) : Option (List (Nat × Nat × Nat)) :=
  let v := (fw.getD 0 0, fw.getD 1 0)
  if !b0 ∧ v.1 = 1 ∧ v.2 ≤ 2 then some [(1, 0, 3)]
  else if !b0 ∧ v.1 = 1 ∧ v.2 ≤ 4 then some [(1, 0, 5)]
  else if b0 ∧ v = (1, 4) then some [(1, 0, 5)]
  else if b0 ∧ v.1 = 2 ∧ v.2 ≤ 1 then some [(1, 4, 5), (2, 0, 2)]
  else none

/-- The stoker code has the firmware's major.minor (R387). -/
def stokerOk (fw stoker : List Nat) : Bool := fw.take 2 == stoker.take 2

def rowAccepts (row : Option (List (Nat × Nat × Nat))) (abi : Nat × Nat) : Bool :=
  match row with
  | none => false
  | some rs => rs.any fun r => r.1 == abi.1 && decide (r.2.1 ≤ abi.2) && decide (abi.2 ≤ r.2.2)

/-- An image ABI is accepted by the ACTIVE row, and by the COMMITTED row while there is one (R388). -/
def State.abiOk (s : State) (abi : Nat × Nat) : Bool :=
  rowAccepts (comboRow s.fuses.b0 s.boot.activeFw) abi &&
    (s.boot.staged != .committed || rowAccepts (comboRow s.fuses.b0 s.boot.stagedFw) abi)

/-- The container checks of R398 for a command: E_IMAGE_SIG, E_IMAGE_ABI, E_FIELD in order, 0 when all pass. -/
def State.containerCheck (s : State) (dom kind : Nat) (b : Bytes) : Nat :=
  firstFail [(!s.sigOk (some dom) b, E.imageSig), (!s.abiOk (Img.abi b), E.imageAbi), (!containerFieldOk kind b, E.field)]

/-! ### Bundles (R386 to R389) -/

/-- The two containers of a bundle: FIRMWARE, then STOKER. -/
def bundleHalves (b : Bytes) : Bytes × Bytes := (b.take (Img.imageBytes b), b.drop (Img.imageBytes b))

/-- Step 2 of R388. -/
def State.bundleSigOk (s : State) (b : Bytes) : Bool :=
  let h := bundleHalves b
  s.sigOk none h.1 && s.sigOk none h.2 && containerFieldOk 8 h.1 && containerFieldOk 9 h.2 && !headerRangeBad h.1 && !headerRangeBad h.2 &&
    Img.bundleId h.1 == Img.bundleId h.2

/-- Step 3 of R388. -/
def State.bundleComboOk (s : State) (b : Bytes) : Bool :=
  let h := bundleHalves b
  (comboRow s.fuses.b0 (Img.version h.1)).isSome && stokerOk (Img.version h.1) (Img.version h.2)

/-- The first install, adapter version or vocabulary that a row does not accept, as (context, kind, number) in ascending
order (R388 step 4). -/
def State.abiOffender (s : State) (row : Option (List (Nat × Nat × Nat))) : Option (Nat × Nat × Nat) :=
  let vs := s.vocabs.filterMap fun p => if rowAccepts row p.2.abi then none else some (0, 6, p.1)
  let is := s.ctxs.flatMap fun p => p.2.installs.filterMap fun r =>
    if rowAccepts row r.install.abi then none else some (p.1, r.kind, r.install.num)
  let as := s.adapters.flatMap fun a => a.2.versions.filterMap fun v =>
    if rowAccepts row v.abi then none else some (a.2.ctx, 7, v.version)
  (sortBy (fun a b => decide (a.1 < b.1) || (a.1 == b.1 && (decide (a.2.1 < b.2.1) ||
    (a.2.1 == b.2.1 && decide (a.2.2 ≤ b.2.2))))) (vs ++ is ++ as)).head?

/-- The Foreman start's ROM checks (R389): promote a COMMITTED copy that passes; a failing one leaves ACTIVE and its
code as the boot status. The answer says whether ACTIVE may run. -/
def State.foremanStart (s : State) : State × Bool :=
  let b := s.boot
  let code := firstFail [(!s.bundleSigOk b.stagedBytes, E.imageSig), (!s.bundleComboOk b.stagedBytes, 0x0E)]
  let b1 : Boot :=
    if b.staged = .committed then
      if code = 0 then
        { b with active := b.stagedBytes, activeFw := b.stagedFw, activeStoker := b.stagedStoker, staged := .empty,
                 stagedBytes := [], stagedFw := [], stagedStoker := [], status := 0 }
      else { b with status := code }
    else b
  let ok := b1.active ≠ [] ∧ s.bundleSigOk b1.active ∧ s.bundleComboOk b1.active
  ({ s with boot := b1 }, decide ok)

/-- Banked mode with a boot status and the BOOT report (R389, R391, R406). -/
def State.enterBanked (status : Nat) (s : State) : State :=
  ({ s with mode := .banked, power := .banked, recovery := none, boot := { s.boot with status := status, phase := .done },
            rows := s.rows.map fun (r : Row) => { r with power := .off, waking := false } }).report Rep.boot [1, status]

end Sys2Proof.Machine
end

