-- ==== Sys2Proof/Machine/Fp32.lean ====
section
/-! DEFINITION. FP32 arithmetic as R124 states it, and conversions between FP32, FP16, BF16, FP8 and integers. -/

namespace Sys2Proof.Machine

/-- A floating-point datum: not a number, an infinity, or plus or minus m * 2^e. -/
inductive FVal where
  | nan
  | inf (neg : Bool)
  | fin (neg : Bool) (m : Nat) (e : Int)
  deriving DecidableEq, Repr

/-- The canonical NaN (R124). -/
def fNan : Fp32 := 0x7FC00000#32
def fInf (neg : Bool) : Fp32 := if neg then 0xFF800000#32 else 0x7F800000#32
def fZero (neg : Bool) : Fp32 := if neg then 0x80000000#32 else 0#32
def fOne : Fp32 := 0x3F800000#32

/-- Decode an encoding of `eb` exponent bits and `mb` fraction bits whose top exponent is reserved. -/
def decodeFloat (eb mb w : Nat) : FVal :=
  let frac := w % 2 ^ mb
  let ex := w / 2 ^ mb % 2 ^ eb
  let neg := bit w (eb + mb)
  let bias : Int := 2 ^ (eb - 1) - 1
  if ex = 2 ^ eb - 1 then (if frac = 0 then .inf neg else .nan)
  else if ex = 0 then .fin neg frac (1 - bias - mb)
  else .fin neg (2 ^ mb + frac) (ex - bias - mb)

def decode32 (x : Fp32) : FVal := decodeFloat 8 23 x.toNat
def decode16 (x : Fp16) : FVal := decodeFloat 5 10 x.toNat
/-- FP8 E5M2; E4M3 keeps its top exponent for numbers, and only S.1111.111 is a NaN (R119). -/
def decodeE5M2 (w : Nat) : FVal := decodeFloat 5 2 w
def decodeE4M3 (w : Nat) : FVal :=
  let ex := w / 8 % 16
  let frac := w % 8
  let neg := bit w 7
  if ex = 15 ∧ frac = 7 then .nan
  else if ex = 0 then .fin neg frac (-9)
  else .fin neg (8 + frac) (ex - 10)

/-- Divide by 2^k to nearest, ties to even. -/
def shiftRNE (m k : Nat) : Nat :=
  let q := m / 2 ^ k
  let r := m % 2 ^ k
  if k = 0 then m
  else if 2 ^ (k - 1) < r then q + 1
  else if r = 2 ^ (k - 1) then q + q % 2
  else q

/-- Round plus or minus m * 2^e to FP32: significand first with an unbounded exponent, then overflow to infinity and the
flush below 2^-126 (R124). -/
def round32 (neg : Bool) (m : Nat) (e : Int) : Fp32 :=
  if m = 0 then fZero neg
  else
    let k := (m.log2 + 1) - 24
    let q := shiftRNE m k
    let top : Int := q.log2 + (e + k)
    if top < -126 then fZero neg
    else if 127 < top then fInf neg
    else
      let sig := if q.log2 ≤ 23 then q * 2 ^ (23 - q.log2) else q / 2 ^ (q.log2 - 23)
      BitVec.ofNat 32 (2 ^ 31 * b2n neg + (top + 127).toNat * 2 ^ 23 + (sig - 2 ^ 23))

def FVal.toFp32 : FVal → Fp32
  | .nan => fNan
  | .inf n => fInf n
  | .fin n m e => round32 n m e

def fIsNan (x : Fp32) : Bool := decode32 x == .nan
def fFinite (x : Fp32) : Bool := match decode32 x with | .fin .. => true | _ => false

/-- A signed significand at a common exponent. -/
def sgn (neg : Bool) (m : Nat) : Int := if neg then -(m : Int) else m

def roundInt32 (z : Int) (e : Int) (zeroNeg : Bool) : Fp32 :=
  if z = 0 then fZero zeroNeg else round32 (decide (z < 0)) z.natAbs e

def fadd (a b : Fp32) : Fp32 :=
  match decode32 a, decode32 b with
  | .nan, _ => fNan
  | _, .nan => fNan
  | .inf x, .inf y => if x = y then fInf x else fNan
  | .inf x, _ => fInf x
  | _, .inf y => fInf y
  | .fin n1 m1 e1, .fin n2 m2 e2 =>
    let e := min e1 e2
    roundInt32 (sgn n1 (m1 * 2 ^ (e1 - e).toNat) + sgn n2 (m2 * 2 ^ (e2 - e).toNat)) e (n1 && n2)

def fneg (a : Fp32) : Fp32 := if fIsNan a then fNan else a ^^^ 0x80000000#32
def fabs32 (a : Fp32) : Fp32 := if fIsNan a then fNan else a &&& 0x7FFFFFFF#32
def fsub (a b : Fp32) : Fp32 := fadd a (fneg b)

def fmul (a b : Fp32) : Fp32 :=
  match decode32 a, decode32 b with
  | .nan, _ => fNan
  | _, .nan => fNan
  | .inf x, .inf y => fInf (x != y)
  | .inf x, .fin y m _ => if m = 0 then fNan else fInf (x != y)
  | .fin x m _, .inf y => if m = 0 then fNan else fInf (x != y)
  | .fin n1 m1 e1, .fin n2 m2 e2 => round32 (n1 != n2) (m1 * m2) (e1 + e2)

def fdiv (a b : Fp32) : Fp32 :=
  match decode32 a, decode32 b with
  | .nan, _ => fNan
  | _, .nan => fNan
  | .inf _, .inf _ => fNan
  | .inf x, .fin y _ _ => fInf (x != y)
  | .fin x _ _, .inf y => fZero (x != y)
  | .fin n1 m1 e1, .fin n2 m2 e2 =>
    if m2 = 0 then (if m1 = 0 then fNan else fInf (n1 != n2))
    else
      let q := m1 * 2 ^ 64 / m2
      let sticky := if m1 * 2 ^ 64 % m2 = 0 then 0 else 1
      round32 (n1 != n2) (2 * q + sticky) (e1 - e2 - 65)

/-- Order of numbers; false when either is a NaN. Both zeros are equal. -/
def fcmp (a b : Fp32) : Option Ordering :=
  match decode32 a, decode32 b with
  | .nan, _ => none
  | _, .nan => none
  | .inf x, .inf y => some (if x = y then .eq else if x then .lt else .gt)
  | .inf x, _ => some (if x then .lt else .gt)
  | _, .inf y => some (if y then .gt else .lt)
  | .fin n1 m1 e1, .fin n2 m2 e2 =>
    let e := min e1 e2
    some (compare (sgn n1 (m1 * 2 ^ (e1 - e).toNat)) (sgn n2 (m2 * 2 ^ (e2 - e).toNat)))

def flt (a b : Fp32) : Bool := fcmp a b == some .lt
def fle (a b : Fp32) : Bool := fcmp a b == some .lt || fcmp a b == some .eq
def feq (a b : Fp32) : Bool := fcmp a b == some .eq
/-- The larger; a NaN operand gives the canonical NaN. -/
def fmax (a b : Fp32) : Fp32 := if fIsNan a || fIsNan b then fNan else if flt a b then b else a

def fOfInt (z : Int) : Fp32 := roundInt32 z 0 false
def fOfNat (n : Nat) : Fp32 := round32 false n 0

/-- Nearest integer, ties to even, of a finite value; 0 otherwise. -/
def fRoundInt (x : Fp32) : Int :=
  match decode32 x with
  | .fin n m e => sgn n (if 0 ≤ e then m * 2 ^ e.toNat else shiftRNE m (-e).toNat)
  | _ => 0

/-- A product before any rounding. -/
def exactMul (a b : Fp32) : FVal :=
  match decode32 a, decode32 b with
  | .nan, _ => .nan
  | _, .nan => .nan
  | .inf x, .inf y => .inf (x != y)
  | .inf x, .fin y m _ => if m = 0 then .nan else .inf (x != y)
  | .fin x m _, .inf y => if m = 0 then .nan else .inf (x != y)
  | .fin n1 m1 e1, .fin n2 m2 e2 => .fin (n1 != n2) (m1 * m2) (e1 + e2)

/-- Plus or minus m * 2^e to the nearest integer, ties to even. -/
def exactRound (neg : Bool) (m : Nat) (e : Int) : Int := sgn neg (if 0 ≤ e then m * 2 ^ e.toNat else shiftRNE m (-e).toNat)

/-- The exact value of a finite encoding. -/
def fToRat (x : Fp32) : Rat :=
  match decode32 x with
  | .fin n m e => (sgn n m : Rat) * (if 0 ≤ e then (2 : Rat) ^ e.toNat else 1 / (2 : Rat) ^ (-e).toNat)
  | _ => 0

/-! ### Conversions (R119, R124) -/

def ofFp16 (x : Fp16) : Fp32 := (decode16 x).toFp32
/-- BF16 is the upper half of an FP32 encoding (R119). -/
def ofBf16 (x : Fp16) : Fp32 := x ++ 0#16
/-- BF16 with subnormals read as zero of the same sign (R123). -/
def ofBf16Flush (x : Fp16) : Fp32 := if x.toNat / 128 % 256 = 0 then fZero (bit x.toNat 15) else ofBf16 x

/-- FP32 to a narrower format: to nearest even, an overflow or infinity to the largest finite value, a NaN to the
format's NaN. The flag says that the conversion saturated. -/
def narrow (eb mb : Nat) (emin : Int) (maxEnc nanEnc : Nat) (x : Fp32) : Nat × Bool :=
  let s := fun (n : Bool) => b2n n * 2 ^ (eb + mb)
  match decode32 x with
  | .nan => (nanEnc, false)
  | .inf n => (s n + maxEnc, true)
  | .fin n m e =>
    if m = 0 then (s n, false)
    else
      let top : Int := max (m.log2 + e) emin
      let d : Int := top - mb - e
      let k := if 0 ≤ d then shiftRNE m d.toNat else m * 2 ^ (-d).toNat
      let enc := (top - emin).toNat * 2 ^ mb + k
      if maxEnc < enc then (s n + maxEnc, true) else (s n + enc, false)

def toFp16 (x : Fp32) : Fp16 × Bool := let r := narrow 5 10 (-14) 0x7BFF 0x7E00 x; (BitVec.ofNat 16 r.1, r.2)
def toBf16 (x : Fp32) : Fp16 × Bool := let r := narrow 8 7 (-126) 0x7F7F 0x7FC0 x; (BitVec.ofNat 16 r.1, r.2)
def toE4M3 (x : Fp32) : Nat × Bool := narrow 4 3 (-6) 0x7E 0x7F x
def toE5M2 (x : Fp32) : Nat × Bool := narrow 5 2 (-14) 0x7B 0x7E x

end Sys2Proof.Machine
end

