-- ==== Sys2Proof/Machine/Elementwise.lean ====
section
/-! DEFINITION. The element-wise functions of R147 and the exp of R208: the device's single algorithm, kept within 2 units in the last
place of the exact function. The exact values are rationals within 2^-90 of them, relatively (DEDUCED, log 107). -/

namespace Sys2Proof.Machine

/-! ### Rationals near the exact values -/

/-- The power of two at or below a positive rational. -/
def ratLog2 (a : Rat) : Int :=
  let k : Int := (a.num.natAbs.log2 : Int) - a.den.log2
  let p : Rat := if 0 ≤ k then (2 : Rat) ^ k.toNat else 1 / (2 : Rat) ^ (-k).toNat
  if p ≤ |a| then k else k - 1

/-- A rational to FP32 (R124). -/
def ratTo32 (a : Rat) : Fp32 :=
  let k := 64 + a.den.log2
  let n := a.num.natAbs * 2 ^ k
  round32 (decide (a < 0)) (2 * (n / a.den) + b2n (decide (n % a.den ≠ 0))) (-(k : Int) - 1)

/-- The device's value where it lies within 2 units in the last place of the exact one, the exact one rounded otherwise (R147). -/
def near2 (a : Rat) (raw : Fp32) : Fp32 :=
  let e := max (ratLog2 a) (-126) - 22
  let bound : Rat := if 0 ≤ e then (2 : Rat) ^ e.toNat else 1 / (2 : Rat) ^ (-e).toNat
  if fFinite raw && decide (|fToRat raw - a| ≤ bound) then raw else ratTo32 a

/-- ln 2 and sqrt (2 / π), times 2^160. -/
def ln2Fix : Int := 1013035739299659071135698605846798551586536899366
def geluFix : Int := 1166109592014436081468383460887399764390691815008

/-- e^(t / 2^160) times 2^160 for a small t, by its series. -/
def expSeries (t : Int) : Int :=
  ((List.range 48).foldl (fun (a : Int × Int) (k : Nat) =>
    let term := a.2 * t / (2 ^ 160 * ((k : Int) + 1))
    (a.1 + term, term)) (2 ^ 160, 2 ^ 160)).1

/-- e^x; an argument beyond 400 either way stands for 400, where every result overflows or is flushed alike. -/
def expReal (x : Rat) : Rat :=
  let q : Int := (max (-400) (min 400 x) * 2 ^ 160).floor
  let n : Int := (q + ln2Fix / 2) / ln2Fix
  let m : Rat := (expSeries (q - n * ln2Fix) : Rat) / 2 ^ 160
  if 0 ≤ n then m * 2 ^ n.toNat else m / 2 ^ (-n).toNat

def sigmoidReal (x : Rat) : Rat := 1 / (1 + expReal (-x))

def tanhReal (x : Rat) : Rat :=
  if |x| < 1 / 2 ^ 20 then x - x ^ 3 / 3 + 2 * x ^ 5 / 15 else (1 - expReal (-2 * x)) / (1 + expReal (-2 * x))

/-- FUNC 2 GELU in its tanh form, 3 SILU, 4 SIGMOID, 5 TANH on a number. -/
def funcReal (f : Nat) (x : Rat) : Rat :=
  match f with
  | 2 => x * sigmoidReal (2 * ((geluFix : Rat) / 2 ^ 160) * (x + 44715 * x ^ 3 / 1000000))
  | 3 => x * sigmoidReal x
  | 4 => sigmoidReal x
  | _ => tanhReal x

/-- 1 / sqrt d of a positive number. -/
def rootReal (d : Rat) : Rat := (Nat.sqrt ((2 ^ 512 / d).floor).toNat : Rat) / 2 ^ 256

/-! ### The functions -/

/-- FUNC (R147): RELU is exact. Of an infinity GELU, SILU, SIGMOID and TANH are free: no exact value is stated (log 4). -/
def applyFunc (f : Nat) (x : Fp32) : Fp32 :=
  if f = 0 then x
  else if f = 1 then (if fIsNan x then fNan else if flt x (fZero false) then fZero false else x)
  else match decode32 x with
    | .nan => fNan
    | .inf _ => Config.elementwise f x
    | .fin .. => near2 (funcReal f (fToRat x)) (Config.elementwise f x)

/-- exp (R147, R208). -/
def exp2ulp (x : Fp32) : Fp32 :=
  match decode32 x with
  | .nan => fNan
  | .inf n => if n then fZero false else fInf false
  | .fin .. => near2 (expReal (fToRat x)) (Config.exp32 x)

/-- 1 / sqrt of NORM (R147). -/
def rootInv (d : Fp32) : Fp32 :=
  match decode32 d with
  | .nan => fNan
  | .inf n => if n then fNan else fZero false
  | .fin n m _ => if m = 0 then fInf n else if n then fNan else near2 (rootReal (fToRat d)) (Config.rsqrt32 d)

end Sys2Proof.Machine
end

