-- ==== Sys2Proof/Machine/Neural.lean ====
section
/-! DEFINITION. Neural arithmetic of the Hearths and Flues (R114 to R126) and the layer programs (R145 to R147, R150,
R151, R155). -/

namespace Sys2Proof.Machine

/-- A calculation that counts conversions that saturated and NaNs made from numbers (R120, R124). -/
abbrev Calc := StateM (Nat × Nat)

namespace Calc
def saturate (n : Nat) : Calc Unit := modify fun p => (p.1 + n, p.2)
/-- Count a NaN that an operation made of operands none of which is a NaN. -/
def note (args : List Fp32) (r : Fp32) : Calc Fp32 := do
  if fIsNan r && !(args.any fIsNan) then modify fun p => (p.1, p.2 + 1)
  return r
def add (a b : Fp32) : Calc Fp32 := note [a, b] (fadd a b)
def sub (a b : Fp32) : Calc Fp32 := note [a, b] (fsub a b)
def mul (a b : Fp32) : Calc Fp32 := note [a, b] (fmul a b)
def div (a b : Fp32) : Calc Fp32 := note [a, b] (fdiv a b)
/-- The sum of a list, first term first. -/
def sum : List Fp32 → Calc Fp32
  | [] => pure (fZero false)
  | x :: xs => xs.foldlM add x
end Calc

/-- What a pass or chain fixes beside its inputs: the lane-group width of vector reductions and, on a Hearth, the order
in which tile partials arrive (R126); the sizes of the vocabularies (EMBED); the adapters of the stream in pin order. -/
structure PassEnv where
  width : Nat
  order : Option (List Nat)
  vocabSize : Nat → Nat
  adapters : List Adapter
  source : Option Model

/-- 512 divided by the batch, rounded down to a power of two (R126). -/
def laneWidth (batch : Nat) : Nat := 2 ^ (512 / max batch 1).log2

/-- A vector-unit reduction: the device's sum where it lies within 2(L-1)u times the sum of magnitudes plus 2Lf of the
ascending sum (Table 6.3), the ascending sum otherwise (log 4). -/
def reduceVec (width : Nat) (xs : List Fp32) : Calc Fp32 := do
  let a ← Calc.sum xs
  let r := Config.reduceSum width xs
  let l : Rat := xs.length
  let bound := 2 * (l - 1) / 2 ^ 24 * (xs.map fun x => |fToRat x|).sum + 2 * l / 2 ^ 126
  return if fFinite a && fFinite r && decide (|fToRat r - fToRat a| ≤ bound) then r else a

/-- The elements of a list in the order of an index list; elements it misses follow in their own order. -/
def arrange {α : Type} (order : List Nat) (xs : List α) : List α :=
  let idx := (order.filter fun i => decide (i < xs.length)).dedup
  idx.filterMap (fun i => xs[i]?) ++ (List.range xs.length).filterMap (fun i => if idx.contains i then none else xs[i]?)

/-! ### Formats (R115, R117, R119, R127 to R129) -/

/-- Bits of a weight by FORMAT (R129). -/
def weightBits (fmt : Nat) : Nat := [2, 4, 4, 8, 8, 8, 16].getD fmt 8
/-- N of a tile (Table 6.2). -/
def tileN (fmt : Nat) : Nat := 1024 / weightBits fmt
/-- Activation bits of an integer format. -/
def actBits (fmt : Nat) : Nat := if fmt ≤ 1 then 4 else 8
/-- The scale group size of a GROUP code (Table 6.5); 0 is per column. -/
def groupSize (g : Nat) : Nat := if g = 0 then 1024 else 2 ^ (g + 4)

def signed (b v : Nat) : Int := if 2 ^ (b - 1) ≤ v then (v : Int) - 2 ^ b else v

/-- The raw weight of row k and column n of a tile's data block (R129). -/
def rawWeight (data : Bytes) (fmt : Nat) (t : Tile) (k n : Nat) : Nat :=
  let b := weightBits fmt
  let off := t.dataIndex * 131072 + 128 * k + b * n / 8
  field data off 2 / 2 ^ (b * n % 8) % 2 ^ b

/-- The BF16 scale of group g and column n of a tile (R129). -/
def tileScale (scales : Bytes) (fmt : Nat) (t : Tile) (g n : Nat) : Fp32 :=
  ofBf16 (BitVec.ofNat 16 (field scales (t.dataIndex * 8192 + 2 * (g * tileN fmt + n)) 2))

/-! ### Activations (R120) -/

/-- FP32 to integer activations: the values and the scale. Each product is rounded once, to an integer. -/
def quantize (b : Nat) (dyn : Bool) (static : Fp32) (xs : List Fp32) : Calc (List Int × Fp32) := do
  let qmax : Int := 2 ^ (b - 1) - 1
  let m := (xs.map fabs32).foldl fmax (fZero false)
  let s ← if dyn then Calc.div m (fOfInt qmax) else pure static
  if dyn && feq m (fZero false) then return (xs.map fun _ => 0, s)
  else
    let r ← Calc.div fOne s
    let qs ← xs.mapM fun x => do
      let v ← Calc.mul x r
      let z : Int := match exactMul x r with
        | .nan => Config.quantNan v
        | .inf n => if n then -qmax - 2 else qmax + 1
        | .fin n m e => exactRound n m e
      let c := max (-qmax - 1) (min qmax z)
      if c ≠ z ∧ !fIsNan v then Calc.saturate 1
      return c
    return (qs, s)

/-! ### Products (R118, R121 to R123) -/

/-- The tiles of one block of output columns, K ascending. -/
def tilesOf (tiles : List Tile) (layer nb : Nat) : List Tile :=
  sortBy (fun a b => decide (a.kBlock ≤ b.kBlock)) (tiles.filter fun t => t.layer == layer && t.nBlock == nb)

/-- The exact sum of weights times activations over rows [k0, k1) of a tile's column (R121). -/
def intDot (data : Bytes) (fmt : Nat) (t : Tile) (n k0 k1 : Nat) (q : List Int) : Int :=
  ((List.range (k1 - k0)).map fun d =>
    let k := k0 + d
    if k < t.kValid then signed (weightBits fmt) (rawWeight data fmt t k n) * q.getD (1024 * t.kBlock + k) 0 else 0).sum

/-- One output column of an integer product before the activation scale (R121). -/
def intColumn (data scales : Bytes) (fmt : Nat) (ts : List Tile) (n : Nat) (q : List Int) (order : Option (List Nat)) :
    Calc Fp32 := do
  if ts.all fun t => t.group == 0 then
    let s := (ts.map fun t => intDot data fmt t n 0 1024 q).sum
    match ts with
    | [] => return fZero false
    | t :: _ => Calc.mul (fOfInt s) (tileScale scales fmt t 0 n)
  else
    let parts ← ts.mapM fun t => do
      let g := groupSize t.group
      let terms ← (List.range (ceilDiv t.kValid g)).mapM fun i =>
        Calc.mul (fOfInt (intDot data fmt t n (i * g) (i * g + g) q)) (tileScale scales fmt t i n)
      Calc.sum terms
    Calc.sum (match order with | none => parts | some o => arrange o parts)

/-- A floating weight or activation element by FORMAT: 4 E4M3, 5 E5M2, 6 BF16 with subnormals read as zero. -/
def fpElem (fmt v : Nat) : FVal :=
  if fmt = 4 then decodeE4M3 v else if fmt = 5 then decodeE5M2 v
  else match decodeFloat 8 7 v with
    | .fin n m e => if m < 128 then .fin n 0 e else .fin n m e
    | x => x

/-- Fraction bits by floating FORMAT. -/
def fpFrac (fmt : Nat) : Int := if fmt = 4 then 3 else if fmt = 5 then 2 else 7
/-- Alignment bits and clamp of R122 and R123. -/
def fpAlign (fmt : Nat) : Int := if fmt = 6 then 11 else 6

/-- The largest exponent of the non-zero elements of a group; a subnormal counts with the least exponent (R122). -/
def groupExp (fmt : Nat) (xs : List FVal) : Int :=
  (xs.filterMap fun x => match x with
    | .fin _ m e => if m = 0 then none else some (e + fpFrac fmt)
    | _ => none).foldl max (-200)

/-- The aligned significand of an element (R122, R123). -/
def alignElem (fmt : Nat) (big : Int) (x : FVal) : Int :=
  match x with
  | .fin n m e =>
    let d := e + fpAlign fmt - big
    let lim : Nat := if fmt = 6 then 4095 else 127
    sgn n (min lim (if 0 ≤ d then m * 2 ^ d.toNat else shiftRNE m (-d).toNat))
  | _ => 0

/-- The partial of one group of 32 (R122, R123). -/
def fpGroup (fmt : Nat) (ws as : List FVal) : Fp32 :=
  let prods := (ws.zip as).filterMap fun p => match p.1, p.2 with
    | _, .nan => some FVal.nan
    | .fin n m _, .inf s => some (if m = 0 then FVal.nan else .inf (n != s))
    | _, _ => none
  if prods.contains .nan || (prods.contains (.inf true) && prods.contains (.inf false)) then fNan
  else if prods.contains (.inf true) then fInf true
  else if prods.contains (.inf false) then fInf false
  else
    let ew := groupExp fmt ws
    let ea := groupExp fmt as
    let s := ((ws.zip as).map fun p => alignElem fmt ew p.1 * alignElem fmt ea p.2).sum
    roundInt32 s (ew + ea - 2 * fpAlign fmt) false

/-- One output column of a floating product (R122, R123, R121 steps 3 and 4). A per-column scale applies to the sum. -/
def fpColumn (data scales : Bytes) (fmt : Nat) (ts : List Tile) (n : Nat) (act : List Nat) (order : Option (List Nat)) :
    Calc Fp32 := do
  let parts ← ts.mapM fun t => do
    let terms ← (List.range (ceilDiv t.kValid 32)).mapM fun i => do
      let ks := (List.range 32).map fun d => 32 * i + d
      let ws := ks.map fun k => if k < t.kValid then fpElem fmt (rawWeight data fmt t k n) else .fin false 0 0
      let as := ks.map fun k => if k < t.kValid then fpElem fmt (act.getD (1024 * t.kBlock + k) 0) else .fin false 0 0
      let p ← Calc.note (as.map FVal.toFp32) (fpGroup fmt ws as)
      if t.group = 0 then return p else Calc.mul p (tileScale scales fmt t (32 * i / groupSize t.group) n)
    Calc.sum terms
  let s ← Calc.sum (match order with | none => parts | some o => arrange o parts)
  match ts with
  | [] => return s
  | t :: _ => if fmt = 6 || t.group != 0 then return s else Calc.mul s (tileScale scales fmt t 0 n)

/-! ### Layers (Table 7.3) -/

def param32 (m : Model) (off : Nat) : Fp32 := BitVec.ofNat 32 (field m.params off 4)
def param16 (m : Model) (off : Nat) : Fp32 := ofBf16 (BitVec.ofNat 16 (field m.params off 2))

/-- An integer product of GROUP 0 in W8A8 between an adapter matrix and A8 activations (R155). -/
def adapterProduct (a : Adapter) (first inW outW : Nat) (q : List Int) (s : Fp32) : Calc (List Fp32) := do
  let cnt := ceilDiv inW 1024 * ceilDiv outW 128
  let ts := (a.tiles.drop first).take cnt
  (List.range outW).mapM fun n => do
    let col := sortBy (fun x y => decide (x.kBlock ≤ y.kBlock)) (ts.filter fun t => t.nBlock == n / 128)
    let v ← intColumn a.tileData a.scaleData 3 col (n % 128) q none
    Calc.mul v s

/-- The adapter terms of a layer, in pin order, added to the pre-bias product (R155). A resolver takes those of its source, at the layer of
the same index where the widths agree (R185; log 107). -/
def addAdapters (env : PassEnv) (m : Model) (idx : Nat) (l : Layer) (x p : List Fp32) : Calc (List Fp32) :=
  let t := env.source.getD m
  let k := if env.source.isSome then (t.layers.getD idx l) else l
  env.adapters.foldlM (fun p a =>
    match if a.target = t.modelId ∧ k.adaptable ∧ l.inWidth = k.inWidth ∧ l.outWidth = k.outWidth then a.targets.find? (fun e => e.1 == idx) else none with
    | none => pure p
    | some (_, fa, fb) => do
      let (q, s) ← quantize 8 true (fZero false) x
      let u ← adapterProduct a fa l.inWidth a.rank q s
      let (qu, su) ← quantize 8 true (fZero false) u
      let v ← adapterProduct a fb a.rank l.outWidth qu su
      (p.zip v).mapM fun e => do Calc.add e.1 (← Calc.mul a.alpha e.2)) p

/-- LINEAR: y = FUNC(W q(x) + bias) (R120 to R123, R155). -/
def linear (env : PassEnv) (m : Model) (idx : Nat) (l : Layer) (x : List Fp32) : Calc (List Fp32) := do
  let static := param32 m (l.param + (if l.bias then 4 * l.outWidth else 0))
  let nT := tileN m.format
  let order := if m.flue then none else env.order
  let p ← if m.format ≤ 3 then do
      let (q, s) ← quantize (actBits m.format) l.dynScale static x
      (List.range l.outWidth).mapM fun n => do
        let v ← intColumn m.tileData m.scaleData m.format (tilesOf m.tiles idx (n / nT)) (n % nT) q order
        Calc.mul v s
    else do
      let act ← x.mapM fun v => do
        let r : Nat × Bool := if m.format = 4 then toE4M3 v else if m.format = 5 then toE5M2 v
          else ((toBf16 v).1.toNat, (toBf16 v).2)
        if r.2 then Calc.saturate 1
        return r.1
      (List.range l.outWidth).mapM fun n =>
        fpColumn m.tileData m.scaleData m.format (tilesOf m.tiles idx (n / nT)) (n % nT) act order
  let p ← addAdapters env m idx l x p
  ((List.range l.outWidth).zip p).mapM fun e => do
    let v ← if l.bias then Calc.add e.2 (param32 m (l.param + 4 * e.1)) else pure e.2
    Calc.note [v] (applyFunc l.func v)

/-- The int8 rows of a position's tokens times their BF16 scales, concatenated; a missing token is a row of zeros
(Table 7.3, R151). In a PROMPT model the row of ORIGIN is added. -/
def embed (env : PassEnv) (m : Model) (l : Layer) (toks : List (Option Nat)) (origin : Option Nat) : Calc (List Fp32) := do
  let v := env.vocabSize (l.arg % 8)
  let w := if m.token then l.outWidth / max m.stride 1 else l.outWidth
  let rows ← toks.mapM fun tk =>
    match tk with
    | none => pure (List.replicate w (fZero false))
    | some id => (List.range w).mapM fun j =>
        Calc.mul (fOfInt (signed 8 (field m.params (l.param + id * w + j) 1))) (param16 m (l.param + v * w + 2 * id))
  let y := rows.flatten
  match origin with
  | none => return y
  | some o => (y.zip (List.range w)).mapM fun e => Calc.add e.1 (param16 m (l.param + v * w + 2 * v + 2 * (o * w + e.2)))

/-- NORM (Table 7.3). -/
def norm (env : PassEnv) (m : Model) (l : Layer) (x : List Fp32) : Calc (List Fp32) := do
  let sq ← x.mapM fun v => Calc.mul v v
  let ss ← reduceVec env.width sq
  let mean ← Calc.div ss (fOfNat x.length)
  let d ← Calc.add mean (param32 m (l.param + 4 * l.outWidth))
  let r ← Calc.note [d] (rootInv d)
  ((List.range x.length).zip x).mapM fun e => do Calc.mul (← Calc.mul e.2 (param32 m (l.param + 4 * e.1))) r

def sliceWords (st : List Fp32) (off n : Nat) : List Fp32 := (List.range n).map fun i => st.getD (off + i) (fZero false)

def putWords (st : List Fp32) (off : Nat) (v : List Fp32) : List Fp32 :=
  let st' := st ++ List.replicate (off + v.length - st.length) (fZero false)
  st'.take off ++ v ++ st'.drop (off + v.length)

/-- c times h plus (1 - c) times x, element by element (RECUR, EMA). -/
def blend (c h x : List Fp32) : Calc (List Fp32) :=
  (c.zip (h.zip x)).mapM fun e => do
    Calc.add (← Calc.mul e.1 e.2.1) (← Calc.mul (← Calc.sub fOne e.1) e.2.2)

/-- The causal convolution of a channel over the last inputs, oldest first (CONV; log 21). -/
def conv (m : Model) (l : Layer) (hist : List (List Fp32)) : Calc (List Fp32) :=
  (List.range l.outWidth).mapM fun c => do
    let ts ← ((List.range hist.length).zip hist).mapM fun e =>
      Calc.mul (param16 m (l.param + 2 * (e.1 * l.outWidth + c))) (e.2.getD c (fZero false))
    Calc.sum ts

def chunksOf (w : Nat) : Nat → List Fp32 → List (List Fp32)
  | 0, _ => []
  | n + 1, xs => xs.take w :: chunksOf w n (xs.drop w)

/-- The input of a model's first record, and what later records read beside it. -/
structure ModelIn where
  toks : List (Option Nat)
  origin : Option Nat
  tap : List Fp32
  summary : List Fp32

/-- One layer: its output and the model's state (Table 7.3). POOL is not stepped here. -/
def layerStep (env : PassEnv) (m : Model) (inp : ModelIn) (idx : Nat) (l : Layer) (outs : List (List Fp32))
    (x st : List Fp32) : Calc (List Fp32 × List Fp32) := do
  let src := outs.getD l.source []
  let so := l.stateOff / 4
  match l.op with
  | 0 => return (← embed env m l inp.toks inp.origin, st)
  | 1 => return (← linear env m idx l x, st)
  | 2 => return (← norm env m l x, st)
  | 3 => return (← (x.zip src).mapM fun e => Calc.add e.1 e.2, st)
  | 4 => return (← (x.zip src).mapM fun e => Calc.mul e.1 e.2, st)
  | 5 =>
    let a := src.map (applyFunc 4)
    let h ← blend a (sliceWords st so l.outWidth) x
    return (h, putWords st so h)
  | 6 =>
    let old := chunksOf l.outWidth (l.arg - 1) (sliceWords st so ((l.arg - 1) * l.outWidth))
    let hist := old ++ [x]
    return (← conv m l hist, putWords st so (hist.drop 1).flatten)
  | 8 => return (← x.mapM fun v => Calc.note [v] (applyFunc l.func v), st)
  | 9 => return (inp.tap, st)
  | 10 => return (x ++ inp.summary, st)
  | 11 =>
    let d := (List.range l.outWidth).map fun i => param16 m (l.param + 2 * i)
    let h ← blend d (sliceWords st so l.outWidth) x
    return (h, putWords st so h)
  | _ => return (x, st)

/-- Run records from index `i`: every output so far, the last output, the state. -/
def runLayers (env : PassEnv) (m : Model) (inp : ModelIn) (i : Nat) (ls : List Layer) (outs : List (List Fp32))
    (x st : List Fp32) : Calc (List (List Fp32) × List Fp32 × List Fp32) := do
  let r ← (ls.zip (List.range ls.length)).foldlM (fun (a : List (List Fp32) × List Fp32 × List Fp32) e => do
    let y ← layerStep env m inp (i + e.2) e.1 a.1 a.2.1 a.2.2
    pure (a.1 ++ [y.1], y.1, y.2)) (outs, x, st)
  return r

/-- A TOKEN model or probe on one position: its HEAD or last output, and its state (R151, R162). -/
def evalToken (env : PassEnv) (m : Model) (inp : ModelIn) (st : List Fp32) : Calc (List Fp32 × List Fp32) := do
  let r ← runLayers env m inp 0 m.layers [] [] st
  return (r.2.1, r.2.2)

/-- POOL (Table 7.3). -/
def pool (env : PassEnv) (arg : Nat) (vs : List (List Fp32)) : Calc (List Fp32) :=
  match arg with
  | 0 => (List.range (vs.headD []).length).mapM fun c => do
      Calc.div (← reduceVec env.width (vs.map fun v => v.getD c (fZero false))) (fOfNat vs.length)
  | 1 => pure ((List.range (vs.headD []).length).map fun c =>
      ((vs.map fun v => v.getD c (fZero false)).foldl fmax ((vs.headD []).getD c (fZero false))))
  | _ => pure (vs.getLastD [])

/-- A PROMPT model on one slice: its scores, the POOL output, and its state (R150). -/
def evalSlice (env : PassEnv) (m : Model) (toks : List Nat) (origin : Nat) (st : List Fp32) :
    Calc (List Fp32 × List Fp32 × List Fp32) := do
  let pre := m.layers.takeWhile fun l => l.op != 7
  let post := m.layers.drop pre.length
  let r ← toks.foldlM (fun (a : List (List Fp32) × List (List Fp32) × List Fp32) tk => do
    let y ← runLayers env m ⟨[some tk], some origin, [], []⟩ 0 pre [] [] a.2.2
    pure (a.1 ++ [y.2.1], y.1, y.2.2)) ([], [], st)
  match post with
  | [] => return (r.1.getLastD [], [], r.2.2)
  | p :: rest =>
    let v ← pool env p.arg r.1
    let y ← runLayers env m ⟨[], none, [], []⟩ (pre.length + 1) rest (r.2.1 ++ [v]) v r.2.2
    return (y.2.1, v, y.2.2)

/-! ### Taps (R159, R160) -/

/-- Normalise a slot vector with a bank; a missing element becomes 0. -/
def normalise (bank : List (Fp16 × Fp16)) (values : List Byte) (valid : List Bool) : Calc (List Fp32) :=
  ((List.range values.length).zip values).mapM fun e => do
    if valid.getD e.1 false then
      let p := bank.getD e.1 (0, 0)
      Calc.mul (← Calc.sub (fOfInt (signed 8 e.2.toNat)) (ofBf16 p.1)) (ofBf16 p.2)
    else return fZero false

end Sys2Proof.Machine
end

