-- ==== Sys2Proof/Machine/Images.lean ====
section
/-! DEFINITION. Load checks and content of pattern sets, fingerprint selections, vocabularies, models and adapters
(R57, R71, R72, R90 to R92, R96, R97, R127 to R130, R145 to R148, R154, R396, R397, R413). -/

namespace Sys2Proof.Machine

/-- The outcome of a load: a count or size out of range (step 1 of R413), a format breach (step 2), the content. -/
structure Loaded (α : Type) where
  range : Bool
  bad : Bool
  body : α

/-- The code of the first two steps of R413. -/
def Loaded.code {α : Type} (l : Loaded α) : Nat := firstFail [(l.range, E.range), (l.bad, E.field)]

/-- Put the loads of several blocks together. -/
def Loaded.all {α : Type} (ls : List (Loaded α)) : Loaded (List α) :=
  ⟨ls.any (·.range), ls.any (·.bad), ls.map (·.body)⟩

/-- Values that occur twice. -/
def hasDup (l : List Nat) : Bool := !(l.eraseDups.length == l.length)

/-! ### Pattern sets (Tables 4.1, 4.6 to 4.8) -/

/-- Words of a row by form. -/
def rowWords (form sparse classes : Nat) : Nat := match form with | 0 => classes + 2 | 1 => 1 + sparse | _ => 1

/-- The next state of a class (Table 4.8). -/
def patNext (st : PatState) (c : Nat) : Nat :=
  match st.form with
  | 0 => st.row.getD c 0 % 2 ^ 24
  | 1 =>
    match (st.row.drop 1).find? fun w => w % 256 == c with
    | some w => w / 256
    | none => st.row.headD 0 % 2 ^ 24
  | _ => st.row.headD 0 % 2 ^ 24

/-- Every next state that a row names. -/
def patTargets (st : PatState) : List Nat :=
  match st.form with
  | 1 => (st.row.headD 0 % 2 ^ 24) :: (st.row.drop 1).map (· / 256)
  | _ => st.row.map (· % 2 ^ 24)

/-- Bytes of a state's tables: descriptor, row and match entries. DESIGN CHOICE: R88 states no measure of a tier part; each state counts 16
bytes, 4 a row word and 8 a match entry, shared rows for each state (log 104). -/
def patSize (st : PatState) : Nat := 16 + 4 * st.row.length + 8 * st.matchCount

/-- The match entries of a state. -/
def setEntries (p : PatternSet) (st : PatState) : List MatchEntry := (p.matchList.drop st.matchIndex).take st.matchCount

def setState (p : PatternSet) (n : Nat) : PatState := p.states.getD n ⟨2, [0], 0, false, 0, 0⟩

/-- A lookahead set: OUTPUT with action BLOCK or STOP (R82). -/
def setLookahead (p : PatternSet) : Bool := p.output && (p.action == 2 || p.action == 3)

def ascending : List Nat → Bool
  | a :: b :: r => decide (a < b) && ascending (b :: r)
  | _ => true

/-- Words of one descriptor: its 128 bits as a number. -/
def readState (b : Bytes) (classes i : Nat) : PatState :=
  let d := field b (field b 0x30 8 + 16 * i) 16
  let form := bits d 33 32
  let off := field b 0x38 8 + 4 * (d % 2 ^ 32)
  ⟨form, (List.range (rowWords form (bits d 37 34) classes)).map fun k => field b (off + 4 * k) 4, bits d 49 38, bit d 50,
    bits d 95 64, bits d 102 96⟩

/-- Reserved bits and row placement of one descriptor (R91, R92). -/
def stateFormOk (b : Bytes) (classes i : Nat) : Bool :=
  let d := field b (field b 0x30 8 + 16 * i) 16
  let form := bits d 33 32
  let n := bits d 37 34
  form != 3 && bits d 63 51 == 0 && bits d 127 103 == 0 && (if form = 1 then n != 0 else n == 0) &&
    decide (4 * (d % 2 ^ 32 + rowWords form n classes) ≤ field b 0x48 8)

/-- The content checks of one state (R92). -/
def setStateOk (p : PatternSet) (entryCount : Nat) (st : PatState) : Bool :=
  let es := setEntries p st
  let fresh := es.filter fun e => !e.cont
  let cont := es.filter (·.cont)
  (patTargets st).all (fun n => decide (n < p.states.length)) &&
    (if st.form = 1 then
        let cs := (st.row.drop 1).map (· % 256)
        (st.row.headD 0 / 2 ^ 24 == 0) && ascending cs && cs.all fun c => decide (c < p.classCount + 2)
      else st.row.all fun w => w / 2 ^ 24 == 0) &&
    decide (st.matchIndex + st.matchCount ≤ entryCount) && (st.newMatch == !fresh.isEmpty) && (es == fresh ++ cont) &&
    ascending (fresh.map (·.pattern)) && ascending (cont.map (·.pattern)) &&
    decide (st.partialDepth ≤ p.lookbehind)

/-- Each tier-2 block starts at the first tier-2 state, ascends, and its states' tables fit 4 KiB (R87, R92). -/
def blockMapOk (p : PatternSet) : Bool :=
  let first := p.tier0 + p.tier1
  let n := p.states.length
  if n ≤ first then p.blockMap.isEmpty
  else
    p.blockMap.head? == some first && ascending p.blockMap &&
      (p.blockMap.zip (p.blockMap.drop 1 ++ [n])).all fun r =>
        decide ((((p.states.drop r.1).take (r.2 - r.1)).map patSize).sum ≤ 4096) && decide (r.1 < n)

/-- Read a pattern-set block. DESIGN CHOICE: the header gives no count of block-map words; they are taken while they lie from the first
tier-2 state up to STATE_COUNT (log 104). -/
def readPattern (b : Bytes) : PatternSet :=
  let classes := field b 3 1
  let flags := field b 2 1
  let nStates := field b 8 4
  let t2 := nStates - field b 0x0C 4 - field b 0x10 4
  let bm := field b 0x50 8
  { index := field b 0 1 % 64, action := field b 1 1 % 4, input := bit flags 0, output := bit flags 1, holdPartial := bit flags 2,
    classCount := classes, patternCount := field b 4 4, tier0 := field b 0x0C 4, tier1 := field b 0x10 4,
    lookbehind := field b 0x14 2, fetchBound := field b 0x16 2, lookaheadCycles := field b 0x18 4, winLength := field b 0x1C 4,
    winThreshold := field b 0x20 2, winAction := bits (field b 0x22 1) 1 0, winContext := bit (field b 0x22 1) 4,
    classMap := (List.range 256).map fun k => field b (field b 0x28 8 + k) 1,
    states := (List.range nStates).map (readState b classes),
    matchList := (List.range (field b 0x24 4)).map fun k =>
      let w := field b (field b 0x40 8 + 8 * k) 8
      ⟨bits w 21 0, bits w 33 22, bit w 34⟩
    blockMap := if t2 = 0 then [] else
      (List.range ((b.length - bm) / 4)).map (fun k => field b (bm + 4 * k) 4) |>.takeWhile fun v => decide (nStates - t2 ≤ v) && decide (v < nStates) }

/-- The limits of Tables 4.1 and 4.6 (R71, R413). -/
def patternRangeBad (b : Bytes) : Bool :=
  let n := field b 8 4
  let t0 := field b 0x0C 4
  let t1 := field b 0x10 4
  let w := field b 0x1C 4
  field b 3 1 == 0 || field b 3 1 == 255 || field b 4 4 == 0 || decide (4194304 < field b 4 4) || decide (n < 2) ||
    decide (16777216 < n) || decide (t0 < 2) || decide (n < t0) || decide (n < t0 + t1) || field b 0x14 2 == 0 ||
    decide (4095 < field b 0x14 2) || decide (1024 < field b 0x16 2) || (n == t0 + t1 && field b 0x16 2 != 0) ||
    (w != 0 && decide (w < 100)) || ((w == 0) != (field b 0x20 2 == 0)) ||
    (List.range (min n 16777216)).any fun i => decide (64 < bits (field b (field b 0x30 8 + 16 * i) 16) 102 96)

/-- The format and content checks of R88 and R92. -/
def patternFieldBad (b : Bytes) (p : PatternSet) : Bool :=
  let entries := field b 0x24 4
  !(b.length ≥ 96 && bits (field b 0 1) 7 6 == 0 && bits (field b 1 1) 7 2 == 0 && bits (field b 2 1) 7 3 == 0 &&
    bits (field b 0x22 1) 7 5 == 0 && bits (field b 0x22 1) 3 2 == 0 && zeroRange b 0x23 1 && zeroRange b 0x58 8) ||
    !(p.input || p.output) || (p.action == 3 && (p.input || !p.output)) || p.winAction == 3 ||
    (p.winLength != 0 && p.winContext && p.winAction != 0) || !(p.classMap.all fun c => decide (c < p.classCount)) ||
    !(decide (field b 0x28 8 + 256 ≤ b.length) && decide (field b 0x30 8 + 16 * p.states.length ≤ b.length) &&
      decide (field b 0x38 8 + field b 0x48 8 ≤ b.length) && decide (field b 0x40 8 + 8 * entries ≤ b.length)) ||
    !((List.range p.states.length).all (stateFormOk b p.classCount)) || !(p.states.all (setStateOk p entries)) ||
    !(p.matchList.all fun e => decide (e.pattern < p.patternCount) && decide (e.depth ≤ p.lookbehind)) ||
    (List.range entries).any (fun k => bits (field b (field b 0x40 8 + 8 * k) 8) 63 35 != 0) ||
    !((patTargets (setState p 0)).all (· == 0) && (setState p 0).matchCount == 0) || !blockMapOk p ||
    (setLookahead p && decide (p.tier0 + p.tier1 < p.states.length))

/-- A PATTERN_SETS image: at most 64 sets and 32 OUTPUT sets, no SET_INDEX twice (R71). -/
def loadPatterns (img : Bytes) : Loaded (List PatternSet) :=
  let sec := Img.sectionOf img 1
  let blocks := (dirBlocks sec).map (Block.data sec)
  let ls := Loaded.all (blocks.map fun b => let p := readPattern b; (⟨patternRangeBad b, patternFieldBad b p, p⟩ : Loaded PatternSet))
  ⟨ls.range || decide (64 < blocks.length) || decide (32 < (ls.body.filter (·.output)).length),
   ls.bad || !dirOk [0] sec || hasDup (ls.body.map (·.index)), sortBy (fun a b => decide (a.index ≤ b.index)) ls.body⟩

/-! ### Fingerprint selections (R96, R97, R397) -/

/-- The SET and OPTIONS fields of Table 5.2; `d`: the set's N and VOCAB as defined when the image is loaded. -/
def readFpEntry (d : Nat × Nat) (w : Nat) : FpEntry :=
  ⟨w % 64, d.1, d.2, bits w 9 8, bit w 10, bit w 11, bit w 12, bit w 13, bit w 14⟩

/-- An FP_SELECTION image: at most 16 sets, 8 with OUTPUT; every SET is defined. -/
def loadSelection (s : State) (img : Bytes) : Loaded FpSelection :=
  let sec := Img.sectionOf img 2
  let n := field sec 0 1
  let ws := (List.range n).map fun k => field sec (8 + 8 * k) 8
  let es := ws.map fun w => readFpEntry (match tget s.store.sets (w % 64) with | some d => (d.n, d.vocab) | none => (0, 0)) w
  let norms := ((Img.sectionList img).filter fun e => e.type == 3).map fun e => slice img e.off e.bytes
  let tables : List FpNorm := norms.map fun b =>
    ⟨field b 0 1 % 8, (List.range (field b 4 4)).map fun k => field b (16 + 4 * k) 4⟩
  let sizes := norms.map fun b => match tget s.vocabs (field b 0 1 % 8) with | some v => v.entries.length | none => 0
  ⟨n == 0 || decide (16 < n) || decide (8 < (es.filter (·.output)).length) ||
      (norms.zip sizes).any (fun p => field p.1 4 4 != p.2),
   ws.any (fun w => bits w 7 6 != 0 || bits w 63 15 != 0) || !zeroRange sec 1 7 || decide (sec.length < 8 + 8 * n) ||
      es.any (fun e => e.action == 3 || !(e.input || e.output) || (tget s.store.sets e.set).isNone) ||
      hasDup (es.map (·.set)) || hasDup (tables.map (·.vocab)) ||
      (norms.any fun b => bits (field b 0 1) 7 3 != 0 || !zeroRange b 1 3 || !zeroRange b 8 8 || decide (b.length < 16 + 4 * field b 4 4)) ||
      tables.any (fun t => t.words.any fun w => bits w 30 18 != 0),
   ⟨es, tables⟩⟩

/-! ### Vocabularies (R57, R397, Table 3.2) -/

def readVocab (img : Bytes) : Vocab :=
  let sec := Img.sectionOf img 7
  let es := (List.range (field sec 0 4)).map fun k =>
    let w := field sec (field sec 8 8 + 4 * k) 4
    (⟨w % 2 ^ 24, bits w 30 24, bit w 31⟩ : VocabEntry)
  ⟨es, slice sec (field sec 0x10 8) (field sec 4 4), Img.abi img, sha384 img, []⟩

def loadVocab (img : Bytes) : Loaded Vocab :=
  let sec := Img.sectionOf img 7
  let v := readVocab img
  ⟨headerRangeBad img || field sec 0 4 == 0 || decide (262144 < field sec 0 4) || decide (4194304 < field sec 4 4),
   !zeroRange sec 0x18 8 || decide (sec.length < field sec 8 8 + 4 * field sec 0 4) ||
     decide (sec.length < field sec 0x10 8 + field sec 4 4) ||
     v.entries.any (fun e => decide (64 < e.len) || decide (v.heap.length < e.off + e.len)), v⟩

/-- Bytes that a vocabulary takes of the 16 MiB (R57). -/
def vocabBytes (v : Vocab) : Nat := 4 * v.entries.length + v.heap.length

/-- The bytes of a token. -/
def vocabToken (v : Vocab) (id : Nat) : Bytes :=
  match v.entries[id]? with
  | none => []
  | some e => if e.special then [] else slice v.heap e.off e.len

def vocabSpecial (v : Vocab) (id : Nat) : Bool := match v.entries[id]? with | some e => e.special | none => false

/-! ### Models (Tables 6.4, 6.5, 7.1 to 7.3) -/

def readTile (b : Bytes) (off : Nat) : Tile :=
  let w := field b off 16
  ⟨bits w 15 0, bits w 27 16, bits w 39 28, bits w 42 40, bits w 58 48, bits w 73 64, bits w 127 96⟩

def tileReservedOk (b : Bytes) (off : Nat) : Bool :=
  let w := field b off 16
  bits w 47 43 == 0 && bits w 63 59 == 0 && bits w 95 74 == 0

def readLayer (b : Bytes) (off : Nat) : Layer :=
  let f := field b (off + 2) 1
  ⟨field b off 1, field b (off + 1) 1, bit f 0, bit f 1, bit f 2, field b (off + 3) 1, field b (off + 4) 4, field b (off + 8) 4,
    field b (off + 12) 2, field b (off + 16) 4, field b (off + 24) 8⟩

def layerReservedOk (b : Bytes) (off : Nat) : Bool :=
  bits (field b (off + 2) 1) 7 3 == 0 && zeroRange b (off + 14) 2 && zeroRange b (off + 20) 4

/-- Read a model block; its parameter area is placed from the start of its section. -/
def readModel (sec b : Bytes) : Model :=
  let tiles := field b 4 4
  let lp := field b 0x40 8
  let fl := field b 2 1
  { flue := field b 0 1 == 1, format := field b 1 1, ternary := bit fl 0, token := bit fl 1, maxChain := field b 3 1,
    stride := field b 0x0A 2, sliceCost := field b 0x0C 4, depth := field b 0x10 4, vstall := field b 0x14 4,
    vectorCycles := field b 0x18 4, stateBytes := field b 0x1C 4, actBytes := field b 0x20 4,
    scoreVar := BitVec.ofNat 32 (field b 0x24 4),
    tiles := (List.range tiles).map fun k => readTile b (field b 0x28 8 + 16 * k),
    tileData := slice b (field b 0x30 8) (131072 * tiles), scaleData := slice b (field b 0x38 8) (8192 * tiles),
    modelId := field b lp 4, layoutId := field b (lp + 4) 4, role := field b (lp + 8) 1, inlineGov := field b (lp + 9) 1 == 1,
    missLimit := field b (lp + 10) 1, headClasses := field b (lp + 11) 1,
    params := slice sec (field b (lp + 16) 8) (field b (lp + 12) 4),
    layers := (List.range (field b 8 2)).map fun k => readLayer b (lp + 32 + 32 * k) }

/-- State bytes of a layer (Table 7.3). -/
def layerState (l : Layer) : Nat :=
  match l.op with
  | 5 => 4 * l.outWidth
  | 6 => 4 * (l.arg - 1) * l.outWidth
  | 11 => 4 * l.outWidth
  | _ => 0

/-- Slots of a TAPIN mask, ascending, and the length of each (log 27: equal parts of OUT_WIDTH). -/
def tapSlots (l : Layer) : List Nat := (List.range 4).filter fun k => bit l.arg k

def tapLength (l : Layer) : Nat := l.outWidth / max 1 (tapSlots l).length

/-- Parameter bytes that a layer reads (Table 7.3). -/
def layerParams (s : State) (m : Model) (l : Layer) : Nat :=
  match l.op with
  | 0 =>
    let v := match tget s.vocabs (l.arg % 8) with | some v => v.entries.length | none => 0
    let w := if m.token then l.outWidth / max 1 m.stride else l.outWidth
    v * w + 2 * v + (if m.token then 0 else 16 * w)
  | 1 => (if l.bias then 4 * l.outWidth else 0) + (if l.dynScale ∨ 3 < m.format then 0 else 4)
  | 2 => 4 * l.outWidth + 4
  | 6 => 2 * l.arg * l.outWidth
  | 11 => 2 * l.outWidth
  | _ => 0

/-- Where Table 7.3 allows an operation, by index and role. -/
def opAllowed (m : Model) (idx : Nat) (l : Layer) : Bool :=
  let first := idx == 0
  let last := idx + 1 == m.layers.length
  match l.op with
  | 0 => (m.role == 0 || m.role == 2) && first
  | 5 => m.role == 0 || m.role == 2
  | 6 => (m.role == 0 || m.role == 2) && decide (1 ≤ l.arg) && decide (l.arg ≤ 8)
  | 7 => m.role == 0 && !m.token && decide (l.arg ≤ 2)
  | 8 => last && l.outWidth == m.headClasses
  | 9 => m.role == 1 && first && decide (1 ≤ l.arg) && decide (l.arg ≤ 15) && l.outWidth % max 1 (tapSlots l).length == 0 &&
      tapLength l % 64 == 0 && decide (64 ≤ tapLength l) && decide (tapLength l ≤ 2048)
  | 10 => m.role == 0 && m.token
  | 11 => m.role == 1
  | n => decide (n ≤ 4)

/-- ARG has the bits that Table 7.3 gives the operation, and no others (R148). -/
def argOk (l : Layer) : Bool :=
  if l.op = 0 then decide (l.arg < 8) else l.op == 6 || l.op == 7 || l.op == 9 || l.arg == 0

/-- Widths of one record against the one before it and its SOURCE (R148). -/
def widthsOk (m : Model) (idx : Nat) (l : Layer) : Bool :=
  let prev := (m.layers.getD (idx - 1) l).outWidth
  let src := (m.layers.getD l.source l).outWidth
  decide (1 ≤ l.inWidth) && decide (l.inWidth ≤ 65536) && decide (1 ≤ l.outWidth) && decide (l.outWidth ≤ 65536) &&
    (idx == 0 || l.inWidth == prev) &&
    (if l.op = 3 ∨ l.op = 4 ∨ l.op = 5 then decide (l.source < idx) && src == l.inWidth && l.inWidth == l.outWidth else l.source == 0) &&
    (if l.op = 0 then !m.token || l.outWidth % max 1 m.stride == 0
     else if l.op = 1 ∨ l.op = 9 then true
     else if l.op = 10 then decide (l.inWidth ≤ l.outWidth)
     else l.inWidth == l.outWidth)

/-- Legal combinations of the model and program headers (R130, R236, Table 7.1). -/
def modelCombosBad (b : Bytes) (m : Model) : Bool :=
  decide (1 < field b 0 1) || decide (6 < m.format) || bits (field b 2 1) 7 2 != 0 || (m.ternary && m.format != 0) ||
    (m.flue && (decide (m.format = 0) || decide (3 < m.format) || !m.token)) ||
    (if m.token then m.maxChain != 0 || !([1, 2, 4, 8].contains m.stride) || m.sliceCost != 0
     else decide (m.maxChain < 1) || decide (4 < m.maxChain) || m.stride != 0 || m.inlineGov) ||
    (!m.flue && (m.vstall != 0 || m.vectorCycles != 0)) || decide (2 < m.role) || m.modelId == 0 ||
    decide (1 < field b (field b 0x40 8 + 9) 1) || (m.role != 1 && m.missLimit != 0) ||
    (m.role != 0 && !m.token) || (m.role == 2 && (m.flue || m.stride != 1)) || (m.inlineGov && m.stride != 1)

/-- Smallest scale group of a format (R129). -/
def groupOk (fmt g : Nat) : Bool :=
  g == 0 || (decide (g ≤ 6) && decide (fmt ≤ 5) && decide ((if fmt = 0 then 3 else if fmt ≤ 2 then 2 else 1) ≤ g))

def weightFinite (fmt w : Nat) : Bool :=
  if fmt = 4 then w % 128 != 127 else if fmt = 5 then bits w 6 2 != 31 else if fmt = 6 then bits w 14 7 != 255 else true

/-- The checks of R130 on one tile and its blocks. -/
def tileOk (fmt : Nat) (ternary : Bool) (layers count : Nat) (data scales : Bytes) (t : Tile) : Bool :=
  let n := tileN fmt
  decide (t.layer < layers) && decide (t.kBlock < 64) && groupOk fmt t.group && decide (t.dataIndex < count) &&
    decide (1 ≤ t.kValid) && decide (t.kValid ≤ 1024) && decide (1 ≤ t.nValid) && decide (t.nValid ≤ n) &&
    ((List.range 1024).all fun k => (List.range n).all fun j =>
      let w := rawWeight data fmt t k j
      (if t.kValid ≤ k ∨ t.nValid ≤ j then w == 0 else weightFinite fmt w && !(ternary && w == 2))) &&
    (List.range 4096).all fun e => bits (field scales (t.dataIndex * 8192 + 2 * e) 2) 14 7 != 255

def tilesDistinct (ts : List Tile) : Bool := !hasDup (ts.map fun t => (t.layer * 4096 + t.kBlock) * 4096 + t.nBlock)

/-- The checks of R130 and R148 on one model. -/
def modelFieldBad (s : State) (sec b : Bytes) (m : Model) : Bool :=
  let lp := field b 0x40 8
  let n := m.layers.length
  let idx := (List.range n).zip m.layers
  let pools := (m.layers.filter fun l => l.op == 7).length
  let afterPool := (m.layers.dropWhile fun l => l.op != 7).drop 1
  let states := (m.layers.filter fun l => layerState l != 0).map fun l => (l.stateOff, layerState l)
  modelCombosBad b m || !zeroRange b 0x48 8 || !zeroRange b (lp + 24) 8 ||
    decide (b.length < lp + 32 + 32 * n) || decide (b.length < field b 0x28 8 + 16 * m.tiles.length) ||
    decide (b.length < field b 0x30 8 + 131072 * m.tiles.length) || decide (b.length < field b 0x38 8 + 8192 * m.tiles.length) ||
    decide (sec.length < field b (lp + 16) 8 + field b (lp + 12) 4) ||
    !((List.range m.tiles.length).all fun k => tileReservedOk b (field b 0x28 8 + 16 * k)) ||
    !((List.range n).all fun k => layerReservedOk b (lp + 32 + 32 * k)) ||
    !(m.tiles.all (tileOk m.format m.ternary n m.tiles.length m.tileData m.scaleData)) || !tilesDistinct m.tiles ||
    !(idx.all fun e => decide (e.2.func ≤ 5) && opAllowed m e.1 e.2 && argOk e.2 && widthsOk m e.1 e.2 &&
      (!e.2.adaptable || (e.2.op == 1 && m.role == 0)) && decide (e.2.param + layerParams s m e.2 ≤ m.params.length)) ||
    (m.role == 2 && (match m.layers.getLast? with
      | some l => l.op != 1 || decide (m.params.length < l.param + layerParams s m l + 4 * l.outWidth)
      | none => true)) ||
    (m.role == 0 && !m.token && (pools != 1 || afterPool.any fun l => l.op == 5 || l.op == 6)) ||
    (m.role == 1 && decide (1 < (m.layers.filter fun l => l.op == 11).length)) ||
    (m.layers.map layerState).sum != m.stateBytes || !disjointRanges states ||
    states.any fun r => decide (m.stateBytes < r.1 + r.2)

/-- Counts of Tables 6.4 and 7.1 (R413). -/
def modelRangeBad (b : Bytes) (m : Model) : Bool :=
  m.tiles.length == 0 || decide (65536 < field b 4 4) || m.layers.length == 0 || decide (1024 < m.layers.length) ||
    (if m.role = 2 then m.headClasses != 0 else decide (m.role ≤ 1) && (m.headClasses == 0 || decide (16 < m.headClasses)))

/-- All TAPIN layers that read one slot agree on its length (R148). -/
def tapsAgree (ms : List Model) : Bool :=
  let ls := ms.flatMap fun m => (m.layers.filter fun l => l.op == 9).flatMap fun l => (tapSlots l).map fun k => (k, tapLength l)
  ls.all fun a => ls.all fun b => a.1 != b.1 || a.2 == b.2

/-- A GUARD_MODELS (2) or PROBES (3) image, beside the models of the context's other image in force. -/
def loadModels (s : State) (kind : Nat) (others : List Model) (img : Bytes) : Loaded (List Model) :=
  let sec := Img.sectionOf img 4
  let blocks := (dirBlocks sec).map (Block.data sec)
  let ls := Loaded.all (blocks.map fun b => let m := readModel sec b; (⟨modelRangeBad b m, modelFieldBad s sec b m, m⟩ : Loaded Model))
  ⟨ls.range, ls.bad || !dirOk [0] sec || hasDup ((ls.body ++ others).map (·.modelId)) || !tapsAgree (ls.body ++ others) ||
    ls.body.any (fun m => if kind = 3 then m.role != 1 else m.role == 1) ||
    decide (1 < (ls.body.filter fun m => m.role == 2).length), ls.body⟩

/-! ### Adapters (Table 7.4, R154) -/

def readAdapter (img : Bytes) : Adapter :=
  let b := Img.sectionOf img 8
  let n := field b 0x14 4
  { target := field b 0 4, rank := field b 4 1, alpha := BitVec.ofNat 32 (field b 8 4), sliceCostAdd := field b 0x0C 4,
    blocksAdd := field b 0x10 4,
    targets := (List.range (field b 5 1)).map fun k =>
      let w := field b (field b 0x18 8 + 8 * k) 8
      (bits w 15 0, bits w 31 16, bits w 47 32),
    tiles := (List.range n).map fun k => readTile b (field b 0x20 8 + 16 * k),
    tileData := slice b (field b 0x28 8) (131072 * n), scaleData := slice b (field b 0x30 8) (8192 * n) }

/-- The tiles from `first` cover a matrix of `inW` by `outW` (R128, R154). -/
def matrixOk (ts : List Tile) (first inW outW : Nat) : Bool :=
  let kb := ceilDiv inW 1024
  let nb := ceilDiv outW 128
  let part := (ts.drop first).take (kb * nb)
  part.length == kb * nb && tilesDistinct (part.map fun t => { t with layer := 0 }) && part.all fun t =>
    decide (t.kBlock < kb) && decide (t.nBlock < nb) && t.kValid == min 1024 (inW - 1024 * t.kBlock) &&
      t.nValid == min 128 (outW - 128 * t.nBlock)

/-- An ADAPTER image against the context's newest guard-model image. -/
def loadAdapter (guards : List Model) (img : Bytes) : Loaded Adapter :=
  let b := Img.sectionOf img 8
  let n := field b 0x14 4
  let a := readAdapter img
  let tm := guards.find? fun m => m.modelId == a.target && m.role == 0
  ⟨headerRangeBad img || a.rank == 0 || decide (64 < a.rank) || a.targets.isEmpty || decide (64 < a.targets.length) || n == 0 || decide (8192 < n),
   !zeroRange b 6 2 || !zeroRange b 0x38 8 || !fFinite a.alpha || decide (b.length < field b 0x18 8 + 8 * a.targets.length) ||
     decide (b.length < field b 0x20 8 + 16 * n) || decide (b.length < field b 0x28 8 + 131072 * n) ||
     decide (b.length < field b 0x30 8 + 8192 * n) ||
     !((List.range n).all fun k => tileReservedOk b (field b 0x20 8 + 16 * k)) ||
     (List.range a.targets.length).any (fun k => bits (field b (field b 0x18 8 + 8 * k) 8) 63 48 != 0) ||
     !(a.tiles.all fun t => t.group == 0 && tileOk 3 false 65536 n a.tileData a.scaleData t) ||
     (match tm with
      | none => true
      | some m =>
        (m.token && a.sliceCostAdd != 0) || (!m.flue && a.blocksAdd != 0) ||
          a.targets.any fun e =>
            match m.layers[e.1]? with
            | none => true
            | some l => !l.adaptable || !matrixOk a.tiles e.2.1 l.inWidth a.rank || !matrixOk a.tiles e.2.2 a.rank l.outWidth), a⟩

end Sys2Proof.Machine
end

