-- ==== Sys2Proof/Machine/Ensembles.lean ====
section
/-! DEFINITION. Load checks and content of ensembles and gate images (R165, R167, R168, R179 to R181, R185, R226 to R229,
R413), and the whole load of an image by kind. -/

namespace Sys2Proof.Machine

/-! ### Ensembles (Tables 8.2, 8.4 to 8.7) -/

def fp32At (b : Bytes) (off : Nat) : Fp32 := BitVec.ofNat 32 (field b off 4)

/-- A finite constant that is not negative. -/
def nonNegative (x : Fp32) : Bool := fFinite x && !flt x (fZero false)

def readClass (b : Bytes) (off : Nat) : EnsClass :=
  ⟨fp32At b off, fp32At b (off + 4), fp32At b (off + 8), field b (off + 12) 1 % 4⟩

def classBad (b : Bytes) (off : Nat) : Bool :=
  let c := readClass b off
  c.action == 3 || bits (field b (off + 12) 1) 7 2 != 0 || !zeroRange b (off + 13) 3 || !fFinite c.threshold ||
    !nonNegative c.bandFixed || !fFinite c.base

def readFeature (b : Bytes) (off : Nat) : EnsFeature :=
  let m := field b (off + 1) 1
  ⟨field b off 1, bits m 1 0, bit m 2, bit m 3, field b (off + 2) 2, field b (off + 4) 4, fp32At b (off + 8)⟩

/-- Reserved and undefined values of a feature map entry (R167, R168). -/
def featureBad (b : Bytes) (off kind : Nat) : Bool :=
  let f := readFeature b off
  decide (7 < f.kind) || bits (field b (off + 1) 1) 7 4 != 0 || !zeroRange b (off + 12) 4 || !nonNegative f.varMin ||
    (f.kind != 2 && f.varMin != 0) || (kind == 2 && !f.streamScope) ||
    (match f.kind with
     | 0 => bits f.argA 7 6 != 0 || bits f.argA 15 9 != 0
     | 1 => bits f.argA 15 6 != 0 || f.argB != 0
     | 2 => bits f.argA 15 4 != 0
     | 3 => bits f.argA 15 6 != 0 || f.argB != 0
     | _ => f.argA != 0 || f.argB != 0)

/-- The set, model or class that a feature names is defined (R181). -/
def featureNamed (ps : List PatternSet) (fs : FpSelection) (ms : List Model) (f : EnsFeature) : Bool :=
  match f.kind with
  | 0 => ps.any fun p => p.index == f.argA % 64
  | 1 => fs.entries.any fun e => e.set == f.argA
  | 2 => ms.any fun m => m.modelId == f.argB && m.role != 2 && decide (f.argA < m.headClasses)
  | 3 => ps.any fun p => p.index == f.argA
  | _ => true

/-- A resolver entry (R185). -/
def resolverOk (ms : List Model) (r : Nat × Nat) : Bool :=
  match ms.find? (fun m => m.modelId == r.1), ms.find? (fun m => m.modelId == r.2) with
  | some a, some b =>
    a.role != 2 && (!a.token || a.inlineGov) && a.flue == b.flue && a.role == b.role && a.token == b.token &&
      a.stride == b.stride && a.headClasses == b.headClasses && a.stateBytes == b.stateBytes &&
      (a.stateBytes == 0 || (a.layoutId == b.layoutId && a.layoutId != 0)) && b.format == 3 && b.tiles.all (fun t => t.group == 0) &&
      b.layers.all fun l => !l.adaptable
  | _, _ => false

def readNode (b : Bytes) (off : Nat) : EnsNode :=
  let w := field b off 12
  ⟨fp32At b off, bits w 41 32, bit w 42, bit w 43, bit w 58, bits w 57 48, bit w 74, bits w 73 64⟩

/-- Bytes of a tree with its padding. -/
def treeBytes (nodes leaves : Nat) : Nat := ceilDiv (16 + 12 * nodes + 4 * leaves) 16 * 16

def readTree (b : Bytes) (off : Nat) : EnsTree :=
  let w := field b off 16
  let n := bits w 9 0
  ⟨bits w 35 32, fp32At b (off + 8), (List.range n).map fun k => readNode b (off + 16 + 12 * k),
    (List.range (bits w 26 16)).map fun k => fp32At b (off + 16 + 12 * n + 4 * k)⟩

/-- Where the trees of a page begin. -/
def treeOffsets (b : Bytes) : Nat → Nat → List Nat
  | 0, _ => []
  | n + 1, off =>
    let w := field b off 16
    off :: treeOffsets b n (off + treeBytes (bits w 9 0) (bits w 26 16))

/-- The children of a tree's nodes as (is a leaf, index). -/
def treeRefs (t : EnsTree) : List (Bool × Nat) := t.nodes.flatMap fun n => [(n.lowLeaf, n.low), (n.highLeaf, n.high)]

/-- Child indices: a node lies after its parent, and every node but 0 and every leaf is referenced once (R181). -/
def treeShapeOk (t : EnsTree) : Bool :=
  let refs := treeRefs t
  t.leaves.length == t.nodes.length + 1 &&
    ((List.range t.nodes.length).zip t.nodes).all (fun e =>
      (e.2.lowLeaf || decide (e.1 < e.2.low)) && (e.2.highLeaf || decide (e.1 < e.2.high))) &&
    (t.nodes.isEmpty ||
      ((List.range t.nodes.length).all (fun k => refs.count (false, k) == (if k = 0 then 0 else 1)) &&
        (List.range t.leaves.length).all (fun k => refs.count (true, k) == 1))) &&
    refs.all fun r => decide (r.2 < if r.1 then t.leaves.length else t.nodes.length)

/-- Reserved fields, constants and indices of a tree. -/
def treeBad (b : Bytes) (classes features catsets off : Nat) : Bool :=
  let t := readTree b off
  let w := field b off 16
  let used := 16 + 12 * t.nodes.length + 4 * t.leaves.length
  bits w 15 10 != 0 || bits w 31 27 != 0 || bits w 63 36 != 0 || bits w 127 96 != 0 || decide (classes ≤ t.cls) ||
    !fFinite t.weight || !(t.leaves.all fFinite) || !treeShapeOk t ||
    !zeroRange b (off + used) (treeBytes t.nodes.length t.leaves.length - used) ||
    (List.range t.nodes.length).any fun k =>
      let n := t.nodes.getD k ⟨0, 0, false, false, false, 0, false, 0⟩
      let v := field b (off + 16 + 12 * k) 12
      bits v 47 44 != 0 || bits v 63 59 != 0 || bits v 95 75 != 0 || decide (features ≤ n.feature) ||
        (if n.categorical then decide (catsets ≤ n.threshold.toNat) else !fFinite n.threshold)

/-- A page: its content, and whether it breaks a limit or a check (R180). -/
def readPage (classes features : Nat) (b : Bytes) : Loaded EnsPage :=
  let n := field b 0 2
  let c := field b 2 2
  let co := field b 8 4
  let offs := treeOffsets b (min n 256) 16
  let trees := offs.map (readTree b)
  let last := offs.zip trees |>.foldl (fun _ e => e.1 + treeBytes e.2.nodes.length e.2.leaves.length) 16
  ⟨n == 0 || decide (256 < n) || decide (256 < c) || decide (524288 < b.length),
   !zeroRange b 12 4 || field b 4 4 != (trees.map fun t => t.nodes.length).sum || decide (b.length < last) ||
     (c != 0 && decide (b.length < co + 32 * c)) || (c != 0 && decide (co < last)) || offs.any (treeBad b classes features c),
   ⟨b.length, trees, (List.range c).map fun k => slice b (co + 32 * k) 32⟩⟩

/-- Tree and page limits by kind (Table 8.1). -/
def ensLimits (kind : Nat) : Nat × Nat := if kind = 2 then (65536, 256) else (256, 1)

/-- One ensemble block (Table 8.4). -/
def readEnsemble (ps : List PatternSet) (fs : FpSelection) (ms : List Model) (b : Bytes) : Loaded Ensemble :=
  let kind := field b 0 1
  let classes := field b 1 1
  let feats := field b 2 2
  let trees := field b 4 4
  let pages := field b 8 2
  let res := field b 0x0A 2
  let ct := field b 0x10 8
  let ft := field b 0x18 8
  let pt := field b 0x20 8
  let rt := field b 0x28 8
  let lim := ensLimits kind
  let ls := Loaded.all ((List.range pages).map fun k =>
    readPage classes feats (slice b (field b (pt + 16 * k) 8) (min 524289 (field b (pt + 16 * k + 8) 4))))
  let e : Ensemble :=
    ⟨kind, (List.range classes).map fun k => readClass b (ct + 16 * k), (List.range feats).map fun k => readFeature b (ft + 16 * k),
      ls.body, (List.range res).map fun k => (field b (rt + 8 * k) 4, field b (rt + 8 * k + 4) 4), field b 0x0C 4⟩
  ⟨classes == 0 || decide (16 < classes) || feats == 0 || decide (1024 < feats) || trees == 0 || decide (lim.1 < trees) ||
      pages == 0 || decide (lim.2 < pages) || decide ((if kind = 2 then 0 else 64) < res) || ls.range,
   decide (2 < kind) || !zeroRange b 0x30 16 || (kind == 2 && e.boundResolve != 0) || ls.bad ||
     (e.pages.map fun p => p.trees.length).sum != trees ||
     decide (b.length < ct + 16 * classes) || decide (b.length < ft + 16 * feats) || decide (b.length < pt + 16 * pages) ||
     decide (b.length < rt + 8 * res) ||
     (List.range pages).any (fun k => !zeroRange b (pt + 16 * k + 12) 4 ||
       decide (b.length < field b (pt + 16 * k) 8 + field b (pt + 16 * k + 8) 4)) ||
     (List.range classes).any (fun k => classBad b (ct + 16 * k)) ||
     (List.range feats).any (fun k => featureBad b (ft + 16 * k) kind) || !(e.features.all (featureNamed ps fs ms)) ||
     !(e.resolvers.all (resolverOk ms)), e⟩

/-- An ENSEMBLES image: at most one ensemble of each kind (R165). -/
def loadEnsembles (ps : List PatternSet) (fs : FpSelection) (ms : List Model) (img : Bytes) : Loaded (List Ensemble) :=
  let sec := Img.sectionOf img 5
  let ls := Loaded.all ((dirBlocks sec).map fun b => readEnsemble ps fs ms (b.data sec))
  ⟨ls.range, ls.bad || !dirOk [0] sec || hasDup (ls.body.map (·.kind)), ls.body⟩

/-! ### The gate image (Tables 9.10 to 9.12) -/

def vocabSize (s : State) (v : Nat) : Nat := match tget s.vocabs v with | some x => x.entries.length | none => 0

def readPolicy (s : State) (sec b : Bytes) : GatePolicy :=
  let v := field b 0 1 % 8
  ⟨v, (List.range (field b 1 1)).map fun k => field b (0x10 + 4 * k) 4, (List.range (field b 2 1)).map fun k => field b (0x50 + 4 * k) 4,
    (List.range (field b 3 1)).map fun k => slice sec (field b (0x90 + 8 * k) 8) (ceilDiv (vocabSize s v) 8)⟩

def policyRangeBad (b : Bytes) : Bool := decide (16 < field b 1 1) || decide (16 < field b 2 1) || decide (16 < field b 3 1)

def policyFieldBad (s : State) (sec b : Bytes) (p : GatePolicy) : Bool :=
  let n := vocabSize s p.vocab
  b.length != 272 || bits (field b 0 1) 7 3 != 0 || !zeroRange b 4 12 || (tget s.vocabs p.vocab).isNone ||
    !((p.stops ++ p.subst).all fun t => decide (t < n)) ||
    !zeroRange b (0x10 + 4 * p.stops.length) (64 - 4 * p.stops.length) ||
    !zeroRange b (0x50 + 4 * p.subst.length) (64 - 4 * p.subst.length) ||
    !zeroRange b (0x90 + 8 * p.allowed.length) (128 - 8 * p.allowed.length) ||
    (List.range p.allowed.length).any fun k => decide (sec.length < field b (0x90 + 8 * k) 8 + ceilDiv n 8)

def readGrammar (s : State) (sec b : Bytes) : Grammar :=
  let v := field b 1 1 % 8
  { index := field b 0 1 % 16, vocab := v, stopOnAccept := bit (field b 2 1) 0, maxDepth := field b 3 1, classCount := field b 4 2,
    startState := field b 0x0C 4,
    classMap := (List.range (vocabSize s v)).map fun k => field sec (field b 0x18 8 + 2 * k) 2,
    states := (List.range (field b 8 4)).map fun k =>
      let w := field sec (field b 0x20 8 + 8 * k) 8
      ⟨bits w 31 0, bits w 43 32, bit w 44⟩
    entries := (List.range (field b 0x10 4)).map fun k =>
      let w := field sec (field b 0x28 8 + 8 * k) 8
      ⟨bits w 11 0, bits w 13 12, bits w 31 16, bits w 47 32⟩ }

def grammarRangeBad (b : Bytes) : Bool :=
  field b 3 1 == 0 || decide (64 < field b 3 1) || field b 4 2 == 0 || decide (4095 < field b 4 2) || field b 8 4 == 0 ||
    decide (65536 < field b 8 4)

def grammarFieldBad (s : State) (sec b : Bytes) (g : Grammar) : Bool :=
  let n := g.states.length
  decide (b.length < 64) || g.index == 0 || bits (field b 0 1) 7 4 != 0 || bits (field b 1 1) 7 3 != 0 || bits (field b 2 1) 7 1 != 0 ||
    !zeroRange b 6 2 || !zeroRange b 0x14 4 || !zeroRange b 0x30 16 || (tget s.vocabs g.vocab).isNone ||
    decide (n ≤ g.startState) || decide (sec.length < field b 0x18 8 + 2 * g.classMap.length) ||
    decide (sec.length < field b 0x20 8 + 8 * n) || decide (sec.length < field b 0x28 8 + 8 * g.entries.length) ||
    !(g.classMap.all fun c => decide (c ≤ g.classCount)) ||
    (List.range n).any (fun k => bits (field sec (field b 0x20 8 + 8 * k) 8) 63 45 != 0) ||
    (List.range g.entries.length).any (fun k =>
      let w := field sec (field b 0x28 8 + 8 * k) 8
      bits w 15 14 != 0 || bits w 63 48 != 0) ||
    !(g.states.all fun q => decide (q.first + q.count ≤ g.entries.length) && ascending (((g.entries.drop q.first).take q.count).map (·.cls))) ||
    !(g.entries.all fun e => decide (1 ≤ e.cls) && decide (e.cls ≤ g.classCount) && e.op != 3 &&
      (if e.op = 2 then e.next == 0 else decide (e.next < n)) && (if e.op = 1 then decide (e.ret < n) else e.ret == 0))

/-- A GATE image: at most 8 policy blocks, one per vocabulary, and 15 grammars of distinct index. -/
def loadGate (s : State) (img : Bytes) : Loaded GateImage :=
  let sec := Img.sectionOf img 6
  let bs := dirBlocks sec
  let ps := Loaded.all ((bs.filter fun b => b.btype == 1).map fun b =>
    let d := b.data sec
    let p := readPolicy s sec d
    (⟨policyRangeBad d, policyFieldBad s sec d p, p⟩ : Loaded GatePolicy))
  let gs := Loaded.all ((bs.filter fun b => b.btype == 2).map fun b =>
    let d := b.data sec
    let g := readGrammar s sec d
    (⟨grammarRangeBad d, grammarFieldBad s sec d g, g⟩ : Loaded Grammar))
  ⟨ps.range || gs.range || decide (8 < ps.body.length) || decide (15 < gs.body.length),
   ps.bad || gs.bad || !dirOk [1, 2] sec || hasDup (ps.body.map (·.vocab)) || hasDup (gs.body.map (·.index)), ⟨ps.body, gs.body⟩⟩

/-! ### The load of an image by kind (R413) -/

def Ctx.bodyOf (x : Ctx) (kind : Nat) : Option ImageBody := (x.inForce kind).map (·.body)

def bodySets : Option ImageBody → List PatternSet
  | some (.patterns ps) => ps
  | _ => []

def bodyFp : Option ImageBody → FpSelection
  | some (.fpSelect f) => f
  | _ => ⟨[], []⟩

def bodyModels : Option ImageBody → List Model
  | some b => imageModels b
  | none => []

def bodyEns : Option ImageBody → List Ensemble
  | some (.ensembles es) => es
  | _ => []

/-- The body in force of a kind once an install of kind `k` has brought `b`. -/
def Ctx.bodyWith (x : Ctx) (k : Nat) (b : ImageBody) (kind : Nat) : Option ImageBody := if kind = k then some b else x.bodyOf kind

/-- The ensemble install in force names only what the installs in force define (R181). -/
def Ctx.consistent (x : Ctx) (k : Nat) (b : ImageBody) : Bool :=
  let ms := bodyModels (x.bodyWith k b 2) ++ bodyModels (x.bodyWith k b 3)
  (bodyEns (x.bodyWith k b 4)).all fun e =>
    e.features.all (featureNamed (bodySets (x.bodyWith k b 0)) (bodyFp (x.bodyWith k b 1)) ms) &&
      e.resolvers.all fun r => [r.1, r.2].all fun id => ms.any fun m => m.modelId == id

/-- The load of an image's content for a context. -/
def State.loadBody (s : State) (x : Ctx) (kind : Nat) (img : Bytes) : Loaded ImageBody :=
  let check := fun (range bad : Bool) (b : ImageBody) => (⟨headerRangeBad img || range, bad || !x.consistent kind b, b⟩ : Loaded ImageBody)
  match kind with
  | 0 => let l := loadPatterns img; check l.range l.bad (.patterns l.body)
  | 1 => let l := loadSelection s img; check l.range l.bad (.fpSelect l.body)
  | 2 => let l := loadModels s 2 (bodyModels (x.bodyOf 3)) img; check l.range l.bad (.models l.body)
  | 3 => let l := loadModels s 3 (bodyModels (x.bodyOf 2)) img; check l.range l.bad (.probes l.body)
  | 4 =>
    let l := loadEnsembles (bodySets (x.bodyOf 0)) (bodyFp (x.bodyOf 1)) (bodyModels (x.bodyOf 2) ++ bodyModels (x.bodyOf 3)) img
    ⟨headerRangeBad img || l.range, l.bad, .ensembles l.body⟩
  | _ => let l := loadGate s img; ⟨headerRangeBad img || l.range, l.bad, .gate l.body⟩

end Sys2Proof.Machine
end

