-- ==== Sys2Proof/Machine/Charges.lean ====
section
/-! DEFINITION. What the Foreman charges: device totals, residency, lookahead, lookups, Hearth and Flue service, the
gate pool, and the delay checks (R29, R30, R88, R89, R108, R131 to R133, R140, R142, R149, R156, R163, R166, R186, R190,
R221, R229, R252). -/

namespace Sys2Proof.Machine

/-- An install that a context holds or is loading: context, kind, install. -/
abbrev Hold := Nat × Nat × Install

/-- Installs in force, pinned or being loaded. -/
def State.holds (s : State) : List Hold :=
  (s.ctxs.flatMap fun p => p.2.installs.map fun r => (p.1, r.kind, r.install)) ++
    s.insts.filterMap fun i => i.working.bind fun w => match w.work with | .install c _ k inst _ => some (c, k, inst) | _ => none

def holdsOf (hs : List Hold) (c k : Nat) : List ImageBody := (hs.filter fun h => h.1 == c && h.2.1 == k).map fun h => h.2.2.body

def maxOf (l : List Nat) : Nat := l.foldl max 0

/-! ### Device totals (R30) -/

def State.countFailed (s : State) (p : UnitId → Bool) : Nat := (s.failed.filter p).length

def State.failedHearths (s : State) : Nat := s.countFailed fun u => match u with | .hearth _ => true | _ => false
def State.failedDampers (s : State) : Nat := s.countFailed fun u => match u with | .damper _ => true | _ => false
def State.failedFp (s : State) : Nat := s.countFailed fun u => match u with | .fpUnit _ => true | _ => false
def State.failedAssays (s : State) : Nat := s.countFailed fun u => match u with | .assay _ => true | _ => false

def State.resvSum (s : State) (f : Reservation → Nat) : Nat := (s.reserving.map fun p => f p.2.resv).sum

def State.hearthTotal (s : State) : Nat := 320 - 5 * s.failedHearths
def State.gateTotal (s : State) : Nat := 20000000 * (8 - s.failedDampers)

/-- Table 2.2's totals hold over OPEN and CLOSING contexts. -/
def State.totalsOk (s : State) : Bool :=
  decide (s.resvSum (·.hearthShare) ≤ s.hearthTotal) && decide (s.resvSum (·.gateRate) ≤ s.gateTotal) &&
    decide (s.resvSum (·.hotSlots) ≤ 2048) && decide (s.resvSum (·.warmRows) ≤ 8)

/-! ### Lookahead, lookups, Assay cycles (R89, R108, R190) -/

/-- The largest BYTE_LENGTH of any loaded vocabulary. -/
def State.lmax (s : State) : Nat := maxOf (s.vocabs.map fun p => maxOf (p.2.entries.map (·.len)))

/-- Lane cycles per position of one pattern-set install. -/
def laneCost (lmax : Nat) (ps : List PatternSet) : Nat :=
  (ps.filter setLookahead).length * 64 * (7 + lmax) + (ps.filter fun p => p.output && decide (p.action ≤ 1)).length * (7 + lmax)

def State.lookaheadOk (s : State) (hs : List Hold) : Bool :=
  decide ((s.reserving.map fun p =>
    p.2.resv.gateRate * maxOf ((holdsOf hs p.1 0).map fun b => laneCost s.lmax (bodySets (some b)))).sum ≤ 28 * 64 * 1400000000)

/-- OUTPUT sets of a selection. -/
def outputSets (b : ImageBody) : Nat := ((bodyFp (some b)).entries.filter (·.output)).length

def State.lookupOk (s : State) (hs : List Hold) : Bool :=
  decide ((s.reserving.map fun p => p.2.resv.gateRate * 64 * maxOf ((holdsOf hs p.1 1).map outputSets)).sum ≤
    900000000 * (4 - s.failedFp))

/-- NODE_TOTAL of a page. -/
def nodeTotal (p : EnsPage) : Nat := (p.trees.map fun t => t.nodes.length).sum

def outputNodes (b : ImageBody) : Nat :=
  maxOf (((bodyEns (some b)).filter fun e => e.kind == 1).map fun e => maxOf (e.pages.map nodeTotal))

/-- An ensemble image with an OUTPUT ensemble is charged its comparison cycles and two. -/
def assayCost (b : ImageBody) : Nat :=
  if (bodyEns (some b)).any fun e => e.kind == 1 then ceilDiv (outputNodes b) 4096 + 2 else 0

/-- Assay cycles per second charged for OUTPUT evaluations (R190). -/
def State.assayCharge (s : State) (hs : List Hold) : Nat :=
  (s.reserving.map fun p => p.2.resv.gateRate * maxOf ((holdsOf hs p.1 4).map assayCost)).sum

def State.assayOk (s : State) (hs : List Hold) : Bool := decide (s.assayCharge hs ≤ 1120000000 * (4 - s.failedAssays))

/-! ### Residency (R88, R131, R166, R229; log 28) -/

/-- Table bytes of tiers 0 and 1 of a set. -/
def tierBytes (p : PatternSet) : Nat × Nat :=
  (((p.states.take p.tier0).map patSize).sum, (((p.states.drop p.tier0).take p.tier1).map patSize).sum)

/-- Bytes of a gate image's tables (R229). -/
def gateBytes (g : GateImage) : Nat :=
  (g.policies.map fun p => (p.allowed.map List.length).sum).sum +
    (g.grammars.map fun x => 2 * x.classMap.length + 8 * x.states.length + 8 * x.entries.length).sum

def holdSets (hs : List Hold) : List (Nat × PatternSet) :=
  hs.flatMap fun h => (bodySets (some h.2.2.body)).map fun p => (h.1, p)

/-- Engines that carry a lookahead set at its context's GATE_RATE. -/
def State.homesFor (s : State) (c : Nat) (p : PatternSet) : Nat :=
  let cost := (s.ctx c).resv.gateRate * (if setLookahead p then 64 * (7 + s.lmax) else 7 + s.lmax)
  max 1 (ceilDiv cost (64 * 1400000000))

/-- The output sets of an install. -/
def outSets (i : Install) : List PatternSet := (bodySets (some i.body)).filter (·.output)

/-- Tier-0 bytes that an install holds in output engine `e`. -/
def homeLoad (i : Install) (e : Nat) : Nat :=
  (((outSets i).filter fun p => i.homes.any fun h => h.1 == p.index && h.2.contains e).map fun p => (tierBytes p).1).sum

/-- Working output engines in which a tier-0 part of `n` bytes fits beside the installs held, in ascending order. -/
def State.roomyGrates (s : State) (is : List Install) (n : Nat) : List Nat :=
  (s.working 32 .grate).filter fun e => decide (4 ≤ e) && decide ((is.map fun i => homeLoad i e).sum + n ≤ 983040)

/-- The home engines that the Foreman chooses for each OUTPUT set of an install beside those held: the lowest-numbered with room, as
many as the rate takes (R88; DESIGN CHOICE, log 28); none when some set finds too few. -/
def State.homeSets (s : State) (hs : List Hold) (c : Nat) (i : Install) : Option (List (Nat × List Nat)) :=
  (outSets i).foldl (fun (h : Option (List (Nat × List Nat))) p => h.bind fun homes =>
    let es := s.roomyGrates ((hs.map fun x => x.2.2) ++ [{ i with homes := homes }]) (tierBytes p).1
    let n := s.homesFor c p
    if n ≤ es.length then some (homes ++ [(p.index, es.take n)]) else none) (some [])

/-- The home engines of an install that is being started. -/
def State.grateHomes (s : State) (c : Nat) (i : Install) : List (Nat × List Nat) := (s.homeSets s.holds c i).getD []

/-- Tier 0 of every INPUT set fits an intake engine, and a new install finds its homes. -/
def State.grateOk (s : State) (c : Nat) (i : Install) : Bool :=
  let inputs := (((holdSets (s.holds ++ [(c, 0, i)])).filter fun p => p.2.input).map fun p => (tierBytes p.2).1).sum
  decide (inputs ≤ 737280) && (s.homeSets s.holds c i).isSome

/-- The homes of an install after engine `e` has failed: another engine with room takes its place (R94). -/
def State.rehomedSets (s : State) (e : Nat) (i : Install) : Install :=
  let step := fun (acc : List (Nat × List Nat) × List (Nat × List Nat)) (h : Nat × List Nat) =>
    if h.2.contains e then
      let n := (((outSets i).find? fun p => p.index == h.1).map fun p => (tierBytes p).1).getD 0
      let rest := h.2.filter (· != e)
      let moved := ((s.roomyGrates ((s.holds.map fun x => x.2.2) ++ [{ i with homes := acc.2 }]) n).filter fun k => !rest.contains k).take 1
      (acc.1 ++ [(h.1, rest ++ moved)], acc.2 ++ [(h.1, moved)])
    else (acc.1 ++ [h], acc.2)
  { i with homes := (i.homes.foldl step ([], [])).1 }

/-- The sets of a failed output engine move to other homes, installs and loads in progress alike. -/
def State.rehomeGrate (e : Nat) (s : State) : State :=
  let recs := s.ctxs.flatMap fun p => (p.2.installs.filter fun r => r.kind == 0).map fun r => (p.1, r.install.num)
  let s1 := recs.foldl (fun (s : State) q => s.modCtx q.1 fun x =>
    { x with installs := x.installs.map fun (r : InstallRec) =>
        if r.kind = 0 ∧ r.install.num = q.2 then { r with install := s.rehomedSets e r.install } else r }) s
  { s1 with insts := s1.insts.map fun (x : InstState) => match x.working with
    | some ⟨c, .install id gen kind i stage, n⟩ => { x with working := some ⟨c, .install id gen kind (s1.rehomedSets e i) stage, n⟩ }
    | _ => x }

def State.hotTablesOk (s : State) (hs : List Hold) : Bool :=
  let tier1 := ((holdSets hs).map fun p => (tierBytes p.2).2).sum
  let gates := (hs.map fun h => match h.2.2.body with | .gate g => gateBytes g | _ => 0).sum
  decide (tier1 + gates + (s.vocabs.map fun v => vocabBytes v.2).sum ≤ 41943040)

def holdModels (hs : List Hold) : List (Nat × Model) :=
  hs.flatMap fun h => (imageModels h.2.2.body).map fun m => (h.1, m)

/-- Tiles against the Hearth weight store, adapters included (R131, R156). -/
def State.tilesOk (s : State) (hs : List Hold) : Bool :=
  let ms := (holdModels hs).filter fun p => !p.2.flue
  let tiles := (ms.map fun p => p.2.tiles.length).sum +
    (s.adapters.map fun a => (a.2.versions.map fun v => v.body.tiles.length).sum).sum
  decide (tiles ≤ 15 * (64 - s.failedHearths) + 43) && ms.all fun p => decide (p.2.actBytes * 256 ≤ 877120)

/-- The gate pool of 4 MiB (R166). -/
def gatePoolOk (hs : List Hold) : Bool :=
  decide ((hs.map fun h => ((bodyEns (some h.2.2.body)).filter fun e => decide (e.kind ≤ 1)).map
    (fun e => (e.pages.map (·.bytes)).sum) |>.sum).sum ≤ 4194304)

/-- FREE pages of a region suffice for so many bytes (R250, R271). -/
def State.pagesOk (s : State) (r bytes : Nat) : Bool := decide (pagesOf bytes ≤ s.freeIn (regionSpan s.layout r))

/-! ### Hearth service (R132, R133, R156) -/

/-- The largest addition of a context's live adapter versions to a model, summed over its slots (R156). -/
def State.adapterAdd (s : State) (c : Nat) (m : Model) (f : Adapter → Nat) : Nat :=
  ((s.adapters.filter fun a => a.2.ctx == c).map fun a =>
    maxOf ((a.2.versions.filter fun v => v.body.target == m.modelId).map fun v => f v.body)).sum

def State.poolEngines (s : State) : Nat :=
  64 - s.failedHearths - (s.reserving.map fun p => p.2.resv.hearthShare / 5).sum

/-- Arithmetic cycles of a TOKEN Hearth pass of B positions on E gate engines (R133). -/
def passCycles (m : Model) (e b : Nat) : Nat :=
  m.layers.length * 48 + max m.depth (ceilDiv m.tiles.length (max e 1)) * max b 64

/-- Ticks of 0.5 µs, 350 arithmetic cycles of 700 MHz each. -/
def passTicks (m : Model) (e b : Nat) : Nat := ceilDiv (passCycles m e b) 350

/-- A TOKEN Hearth model of a context needs gate engines, a PROMPT model a pool that carries its slice (R132). -/
def State.hearthOk (s : State) (c : Nat) (hs : List Hold) : Bool :=
  ((holdModels hs).filter fun p => p.1 == c).all fun p =>
    p.2.flue || (if p.2.token then decide (1 ≤ (s.ctx p.1).resv.hearthShare / 5)
      else decide (p.2.sliceCost + s.adapterAdd p.1 p.2 (·.sliceCostAdd) ≤ 500 * s.poolEngines))

/-- Positions per second that a TOKEN Hearth model is charged: GATE_RATE, or twice that for a DRAFT model in use (R236). -/
def State.passRate (s : State) (c : Nat) (m : Model) : Nat :=
  let r := (s.ctx c).resv.gateRate
  if m.role = 2 then (if 2 ≤ setting (s.ctx c).settings Setting.draftMode then 2 * r else 0) else r

/-- The rate is within 256 positions per pass, in whole ticks (R133). -/
def State.gatePassOk (s : State) (hs : List Hold) : Bool :=
  (holdModels hs).all fun p =>
    p.2.flue || !p.2.token ||
      decide (s.passRate p.1 p.2 * passTicks p.2 ((s.ctx p.1).resv.hearthShare / 5) 256 ≤ 256 * 2000000)

/-- Engines available to a context's gate service: working, and no other context's. -/
def State.gateFree (s : State) (c : Nat) : List Nat :=
  let taken := s.reserving.flatMap fun p => if p.1 = c then [] else p.2.gateEngines
  (s.working 64 .hearth).filter fun e => !taken.contains e

/-- The Foreman's choice of gate engines: of the sets of rows that suffice, one with the fewest rows, then with the most rows that
already hold gate engines, then a free choice. -/
def State.chooseGates (s : State) (c n : Nat) : List Nat :=
  if n = 0 then []
  else
    let free := s.gateFree c
    let avail := fun r => (free.filter fun e => e / 8 == r).length
    let holds := fun r => s.reserving.any fun p => p.1 != c && p.2.gateEngines.any fun e => e / 8 == r
    let rows := arrange (Config.gateEngineOrder s.freshCtr) (List.range 8)
    let sets := ((List.range 256).map fun k => (indexed rows).filterMap fun r => if bit k r.1 then some r.2 else none).filter fun l =>
      decide (n ≤ (l.map avail).sum)
    let key := fun (l : List Nat) => [l.length, 8 - (l.filter holds).length]
    match sortBy (fun a b => keyLe (key a) (key b)) sets with
    | [] => []
    | l :: _ => (l.flatMap fun r => free.filter fun e => e / 8 == r).take n

/-! ### Flue homing (R140, R142) -/

/-- What a TOKEN Flue model costs a Flue: blocks, stride, VSTALL, vector cycles. -/
structure FlueCost where
  blocks : Nat
  stride : Nat
  vstall : Nat
  vector : Nat

def State.flueCosts (s : State) (hs : List Hold) (c : Nat) : List FlueCost :=
  ((holdModels hs).filter fun p => p.1 == c && p.2.flue).map fun p =>
    ⟨4 * p.2.tiles.length + s.adapterAdd c p.2 (·.blocksAdd), max 1 p.2.stride, p.2.vstall, p.2.vectorCycles⟩

/-- The conditions of R140 and R142 on one Flue, for the models homed there with their rates. -/
def flueFits (ms : List (FlueCost × Nat)) : Bool :=
  let c := (ms.map fun p => 9 * p.1.blocks + p.1.vstall).sum
  decide ((ms.map fun p => p.2 * p.1.blocks * (8 / p.1.stride)).sum ≤ 8 * 630000000) &&
    ms.all (fun p => decide (p.2 * c ≤ 9 * p.1.stride * 700000000)) &&
    decide ((ms.map fun p => p.2 * p.1.vector * (8 / p.1.stride)).sum ≤ 8 * 1120000000)

/-- Contexts that have TOKEN Flue models, with their costs and FLUE_RATE. -/
def State.flueUsers (s : State) (hs : List Hold) : List (Nat × List FlueCost × Nat) :=
  (s.reserving.map fun p => (p.1, s.flueCosts hs p.1, p.2.resv.flueRate)).filter fun u => !u.2.1.isEmpty

/-- A homing gives every user rates on working Flues that sum to its FLUE_RATE, and fits every Flue. -/
def homingOk (flues : List Nat) (us : List (Nat × List FlueCost × Nat)) (h : List (Nat × Nat × Nat)) : Bool :=
  us.all (fun u =>
    let mine := h.filter fun e => e.1 == u.1
    !mine.isEmpty && (mine.map fun e => e.2.2).sum == u.2.2 && mine.all fun e => flues.contains e.2.1) &&
  flues.all fun f => flueFits ((h.filter fun e => e.2.1 == f).flatMap fun e =>
    match us.find? fun u => u.1 == e.1 with
    | none => []
    | some u => u.2.1.map fun m => (m, e.2.2))

/-- Every user spread evenly over the working Flues. -/
def evenHoming (flues : List Nat) (us : List (Nat × List FlueCost × Nat)) : List (Nat × Nat × Nat) :=
  us.flatMap fun u => (List.range flues.length).map fun k =>
    (u.1, flues.getD k 0, u.2.2 / flues.length + (if k < u.2.2 % flues.length then 1 else 0))

/-- What any homing needs: each user's even share fits a Flue of its own, and the loads of all fit the Flues together. -/
def homingNeeds (flues : List Nat) (us : List (Nat × List FlueCost × Nat)) : Bool :=
  let n := flues.length
  let total := fun (f : FlueCost → Nat) => (us.map fun u => (u.2.1.map fun m => u.2.2 * f m * (8 / m.stride)).sum).sum
  decide (0 < n) && us.all (fun u => flueFits (u.2.1.map fun m => (m, ceilDiv u.2.2 n))) &&
    decide (total (·.blocks) ≤ n * 8 * 630000000) && decide (total (·.vector) ≤ n * 8 * 1120000000)

/-- The first of the `n` numbers from `k` on that gives something. -/
def firstOf {α : Type} (f : Nat → Option α) : Nat → Nat → Option α
  | _, 0 => none
  | k, n + 1 => (f k).orElse fun _ => firstOf f (k + 1) n

/-- A homing by trying, for every user and Flue, no rate or each rate up to the user's. -/
def searchHoming (ok : List (Nat × Nat × Nat) → Bool) : List (Nat × Nat × Nat) → List (Nat × Nat × Nat) → Option (List (Nat × Nat × Nat))
  | [], h => if ok h then some h else none
  | (c, f, top) :: rest, h => firstOf (fun k => searchHoming ok rest (if k = 0 then h else h ++ [(c, f, k - 1)])) 0 (top + 2)

/-- The homing that the Foreman takes: the one in force while it holds, else the even one, else another; none only where no homing
meets R140 and R142 (log 29). -/
def State.homingFor (s : State) (hs : List Hold) : Option (List (Nat × Nat × Nat)) :=
  let us := s.flueUsers hs
  let fl := s.working 16 .flue
  let free := Config.homing (us.map fun u => (u.1, u.2.2))
  if us.isEmpty then some []
  else if homingOk fl us s.flueHomes then some s.flueHomes
  else if homingOk fl us (evenHoming fl us) then some (evenHoming fl us)
  else if homingOk fl us free then some free
  else if homingNeeds fl us then searchHoming (homingOk fl us) (us.flatMap fun u => fl.map fun f => (u.1, f, u.2.2)) []
  else none

def State.flueOk (s : State) (hs : List Hold) : Bool := (s.homingFor hs).isSome

/-- The homing is taken at an install, at CONTEXT_CREATE, at CAPACITY_SET, at an adapter's load and after a Flue's failure; where a
failure leaves none, the one in force stays (log 29). -/
def State.rehomeFlues (s : State) : State := { s with flueHomes := (s.homingFor s.holds).getD s.flueHomes }

/-! ### The home Flue of a hot stream (R24, R141) -/

/-- Hot streams whose home is Flue `f`. -/
def State.hotOn (s : State) (f : Nat) : Nat := (s.streams.filter fun p => p.2.home == some f).length

/-- The Flue with the fewest hot streams among those with room for another: a home Flue of the context, else any working one (log
29). -/
def State.chooseHome (s : State) (c : Nat) : Option Nat :=
  let room := (s.working 16 .flue).filter fun f => decide (s.hotOn f < 128)
  let own := room.filter fun f => s.flueHomes.any fun h => h.1 == c && h.2.1 == f
  (sortBy (fun a b => decide (s.hotOn a ≤ s.hotOn b)) (if own.isEmpty then room else own)).head?

/-! ### Per-stream state (R149, R252) -/

/-- The width of the prompt summary that a guard-model image gives: its first PROMPT GUARD's POOL output (log 30). -/
def summaryWidth (ms : List Model) : Nat :=
  match ms.find? fun m => !m.token && m.role == 0 with
  | none => 0
  | some m => match m.layers.find? fun l => l.op == 7 with | none => 0 | some l => l.outWidth

def tokenState (ms : List Model) : Nat := ((ms.filter fun m => m.token).map (·.stateBytes)).sum

def modelLimitsOk (guards probes : List Model) : Bool :=
  let w := summaryWidth guards
  guards.all (fun m => m.token || decide (m.stateBytes ≤ 65536)) && decide (tokenState (guards ++ probes) + 4 * w ≤ 24576) &&
    (!(guards.any fun m => m.layers.any fun l => l.op == 10) || decide (w ≤ 1024))

def checkpointFits (ms : List Model) (es : List Ensemble) : Bool :=
  decide (Config.checkpointBytes (tokenState ms + 4 * summaryWidth ms)
    ((es.map fun e => (e.features.filter (·.streamScope)).length).sum) ≤ 131072)

/-! ### Delay checks (R29, R163, R186, R221) -/

/-- BOUND_RESOLVE of an ensemble kind among installs. -/
def resolveBound (kind : Nat) (is : List Install) : Nat :=
  maxOf (is.map fun i => maxOf (((bodyEns (some i.body)).filter fun e => e.kind == kind).map (·.boundResolve)))

/-- Some delay of the settings is shorter than a bound of the installs. -/
def delayShort (ss : List Nat) (is : List Install) : Bool :=
  let swap := if setting ss Setting.hotPolicy = 1 then 400 else 0
  let rIn := if setting ss Setting.undecidedIn = 1 then resolveBound 0 is else 0
  let rOut := if setting ss Setting.undecidedOut = 1 then resolveBound 1 is else 0
  is.any fun i =>
    let skew := match i.body with
      | .probes ms => if ms.any fun m => m.inlineGov then setting ss Setting.tapSkew else 0
      | _ => 0
    (i.boundG != 0 && decide (setting ss Setting.dG < i.boundG + swap + 5 * setting ss Setting.maxPositions + rOut + skew)) ||
      (i.boundC != 0 && decide (setting ss Setting.dC < i.boundC + swap + rIn))

/-- Installs of a context in force, pinned or being loaded. -/
def ctxInstalls (hs : List Hold) (c : Nat) : List Install := (hs.filter fun h => h.1 == c).map fun h => h.2.2

/-! ### Together -/

/-- The Assay, lookup, lookahead and Flue charges that every reservation change meets. -/
def State.chargesOk (s : State) (hs : List Hold) : Bool :=
  s.lookaheadOk hs && s.lookupOk hs && s.assayOk hs && s.flueOk hs

/-- E_CAPACITY of CONTEXT_CREATE (Table 14.3) on the state with the new reservation. -/
def State.createFits (s : State) (c : Nat) : Bool :=
  s.totalsOk && s.chargesOk s.holds && decide ((s.ctx c).resv.hearthShare / 5 ≤ (s.gateFree c).length)

/-- E_CAPACITY of CAPACITY_SET beyond what live streams use. -/
def State.capacityFits (s : State) (c : Nat) : Bool :=
  s.createFits c && s.hearthOk c s.holds && s.gatePassOk s.holds

/-- E_CAPACITY of IMAGE_INSTALL (Table 14.9). -/
def State.installFits (s : State) (c kind : Nat) (i : Install) : Bool :=
  let hs := s.holds ++ [(c, kind, i)]
  let x := s.ctx c
  let guards := if kind = 2 then imageModels i.body else bodyModels (x.bodyOf 2)
  let probes := if kind = 3 then imageModels i.body else bodyModels (x.bodyOf 3)
  let ens := if kind = 4 then bodyEns (some i.body) else bodyEns (x.bodyOf 4)
  s.pagesOk (kindRegion kind) i.imageBytes && s.chargesOk hs && (kind != 0 || s.grateOk c i) && s.hotTablesOk hs && s.tilesOk hs && s.hearthOk c hs && s.gatePassOk hs &&
    gatePoolOk hs && modelLimitsOk guards probes &&
    (decide (guards ++ probes = [] ∧ ens = []) || checkpointFits (guards ++ probes) ens) &&
    decide (i.tallyCount ≤ (s.tallies.filter fun t => decide (64 ≤ t.1) && t.2.alloc && t.2.owner == c && t.2.gen == x.gen).length)

/-- E_DELAY_SHORT of IMAGE_INSTALL. -/
def State.installShort (s : State) (c kind : Nat) (i : Install) : Bool :=
  delayShort (s.ctx c).settings (ctxInstalls (s.holds ++ [(c, kind, i)]) c)

end Sys2Proof.Machine
end

