-- ==== Sys2Proof/Machine/Power.lean ====
section
/-! DEFINITION. The Pilot domain, resets, reference clocks, power modes, Hearth row power, core voltage and temperature
(R364, R365, R369 to R382, R403 to R410), and the test access port (R411). -/

namespace Sys2Proof.Machine

/-! ### Resets and the device count -/

/-- Assertion of BLK_PORST_N: the whole block is reset (R408); the fuses, the inputs it does not own, and the test
access port, which operates during the reset (R410), stay. -/
def State.porstReset (s : State) : State :=
  { State.reset with
    pending := s.pending, freshCtr := s.freshCtr, nextItem := s.nextItem, nextXfer := s.nextXfer, out := s.out
    fuses := s.fuses, porst := true, boot := { State.reset.boot with phase := .inReset }
    pins := { State.reset.pins with driftRef := s.pins.driftRef, sites := s.pins.sites }
    mgmt := { State.reset.mgmt with jtag := s.mgmt.jtag } }

def execBlkPorstAssert (_t : Nat) (s : State) : Host.Outcome State Fault Refusal := done s.porstReset

/-- Release of BLK_PORST_N starts power-on boot (R408, R390). -/
def execBlkPorstRelease (_t : Nat) (s : State) : Host.Outcome State Fault Refusal :=
  done (if s.porst then { s with porst := false, boot := { s.boot with phase := .waitCount } } else s)

/-- The first edge after the multiplier locks: the count is 0 and runs from here on (R370). -/
def execDeviceCountStart (_t : Nat) (s : State) : Host.Outcome State Fault Refusal :=
  done (if s.porst || s.pilotFault || s.running || s.boot.phase != .waitCount then s
    else
      let s1 := { s with count := 0, running := true, boot := { s.boot with phase := .waitCommit } }
      if s1.pins.driftRef then s1
      else (List.range 3).foldl (fun s q => s.report Rep.portDown [16 + q, 0]) s1)

/-- Loss of PILOT_REFCLK: the count stops, FAULT_N is asserted and nothing further is released, until BLK_PORST_N
(R371, R367). -/
def execPilotRefclkLoss (t : Nat) (s : State) : Host.Outcome State Fault Refusal :=
  done (s.live t fun s => { s with running := false, pilotFault := true, pins := { s.pins with faultN := true } })

/-- BLK_WARM_N asserted: a device fault, except before the first NORMAL and in Banked mode (R409). -/
def execBlkWarmAssert (t : Nat) (s : State) : Host.Outcome State Fault Refusal :=
  done (s.live t fun s =>
    if s.boot.phase != .done || s.mode == .banked then s
    else ({ s with pins := { s.pins with warmN := true } }).deviceFault FaultCause.warm)

/-- BLK_WARM_N released: a paused recovery may continue (R409). -/
def execBlkWarmRelease (t : Nat) (s : State) : Host.Outcome State Fault Refusal :=
  done (s.live t fun s => { s with pins := { s.pins with warmN := false } })

/-! ### Hearth rows (R32, R135, R136, R373) -/

/-- Some OPEN context has a prompt guard: every Hearth row keeps its PLL locked (R32). -/
def State.rowsLocked (s : State) : Bool :=
  s.ctxs.any fun p => p.2.state == .opened &&
    (match p.2.inForce 2 with | none => false | some i => (imageModels i.body).any fun m => !m.flue && !m.token)

/-- Rows that hold a gate engine. -/
def State.gateRows (s : State) : List Nat :=
  (List.range 8).filter fun r => s.reserving.any fun p => p.2.gateEngines.any fun e => e / 8 == r

/-- The sum of WARM_ROWS over OPEN contexts (R136). -/
def State.warmSum (s : State) : Nat :=
  ((s.ctxs.filter fun p => p.2.state == .opened).map fun p => p.2.resv.warmRows).sum

/-- Powered rows, or rows on their way, that hold no gate engine. -/
def State.warmPowered (s : State) : List Nat :=
  (List.range 8).filter fun r =>
    !(s.gateRows.contains r) && ((s.rows.map fun x => x.power == .active || x.waking).getD r false)

/-- A row off its PLL locks it when the context set calls for it (R32, R136). -/
def State.lockRows (s : State) : State :=
  if s.rowsLocked then
    { s with rows := s.rows.map fun (r : Row) => { r with power := if r.power = .off then .offLocked else r.power } }
  else s

def State.wakeRow (r : Nat) (s : State) : State :=
  { s with rows := lmod s.rows r fun x => if x.power = .active ∨ x.waking then x else { x with waking := true, lastPacked := s.count } }

/-- Begin waking the rows that must stay powered: those with gate engines, then the lowest others up to the sum of
WARM_ROWS (R136; which others is the device's choice, log 17). -/
def State.keepRows (s : State) : State :=
  let s1 := s.gateRows.foldl (fun s r => s.wakeRow r) s.lockRows
  let idle := (List.range 8).filter fun r => !(s1.gateRows.contains r) && !(s1.warmPowered.contains r)
  (idle.take (s1.warmSum - s1.warmPowered.length)).foldl (fun s r => s.wakeRow r) s1

/-- Every power-gated row wakes at once (R136). -/
def State.wakeAll (s : State) : State := (List.range 8).foldl (fun s r => s.wakeRow r) s

/-- The states of Table 6.6. -/
inductive EngineState where
  | active | clockGated | rowOffLocked | rowOff
  deriving DecidableEq, Repr

/-- A Hearth is packed in the current firing, or a pass of the context whose gate engine it is runs in the current tick (R134, R136). -/
def State.packed (s : State) (e : Nat) : Bool :=
  (s.chains.any fun c => c.engines.contains e) ||
    s.passes.any fun p => p.running && p.flue.isNone && (s.ctx p.ctx).gateEngines.contains e

/-- Where a Hearth stands: its row's state, and in an ACTIVE row clock-gated unless it is packed (R135, R136). -/
def State.hearthState (s : State) (e : Nat) : EngineState :=
  match (s.rows.map (·.power)).getD (e / 8) .off with
  | .off => .rowOff
  | .offLocked => .rowOffLocked
  | .active => if s.packed e then .active else .clockGated

/-- The clocks of Table 1.2; the arithmetic clocks by the PLLs of R372, the PHYs by port. -/
inductive Clock where
  | pilot | deviceCount | arithRow (r : Nat) | arithFlue | fabric | foreman | shaftPhy (p : Nat) | stackPhy | driftPhy (q : Nat)
  deriving DecidableEq, Repr

/-- Outside reset, a lost reference clock, Banked mode and recovery, and in RUN, the fast PLLs are locked and their clocks may run (R371,
R372, Table 16.2). -/
def State.fastClocks (s : State) : Bool := s.running && !s.pilotFault && s.mode == .normal && s.power == .run

/-- A clock runs: it starts on demand, and is gated while the units that it drives are idle (R12, R372). -/
def State.clockRuns (s : State) : Clock → Bool
  | .pilot => !s.porst && !s.pilotFault
  | .deviceCount => s.running
  | .arithRow r => s.fastClocks && (List.range 8).any fun k => s.hearthState (8 * r + k) == .active
  | .arithFlue => s.fastClocks && s.passes.any fun p => p.running && p.flue.isSome
  | .fabric => s.fastClocks && !(s.items.isEmpty && s.chains.isEmpty && s.passes.isEmpty && s.streams.isEmpty)
  | .foreman => s.running && !s.pilotFault && (s.mode == .banked || (s.power == .run && s.foreman.exec.isSome))
  | .shaftPhy p => s.running && !s.pilotFault && (s.shaft.getD p ShaftPort.init).link != .down
  | .stackPhy => s.fastClocks
  | .driftPhy q => s.pins.driftRef && (s.drift.getD q DriftPort.init).link != .down

/-- A row that is not required powered is gated after 200 µs without a packed slice (R136). -/
def execRowPowerGate (t row : Nat) (s : State) : Host.Outcome State Fault Refusal :=
  done (s.run t fun s =>
    match s.rows[row]? with
    | none => s
    | some r =>
      if r.power = .active ∧ !s.gateRows.contains row ∧ s.warmSum < s.warmPowered.length ∧ r.lastPacked + 20000 ≤ s.count then
        { s with rows := lmod s.rows row fun x => { x with power := if s.rowsLocked then .offLocked else .off } }
      else s)

/-- A waking row becomes ACTIVE (R373). -/
def execRowWakeComplete (t row : Nat) (s : State) : Host.Outcome State Fault Refusal :=
  done (s.run t fun s =>
    { s with rows := lmod s.rows row fun x => if x.waking then { x with power := .active, waking := false, lastPacked := s.count } else x })

/-! ### Power modes (R375) -/

/-- What must hold for 10 ms before DORMANT. -/
def State.idleDevice (s : State) : Bool :=
  s.noContexts && s.foreman.exec.isNone &&
    s.insts.all (fun i => i.cmdQ.empty && i.working.isNone) && s.store.epoch == .idle &&
    s.drift.all (fun d => d.unacked.isEmpty && d.waiting.isEmpty && d.rxXfers.isEmpty)

/-- RUN to DORMANT: every Hearth row goes to ROW_OFF (Table 16.2). -/
def execDormantEntry (t : Nat) (s : State) : Host.Outcome State Fault Refusal :=
  done (s.run t fun s =>
    if s.power = .run ∧ s.idleDevice ∧ s.lastActivity + 1000000 ≤ s.count then
      { s with power := .dormant, rows := s.rows.map fun (r : Row) => { r with power := .off, waking := false } }
    else s)

/-! ### Core voltage (R380) -/

/-- The code that CORE_VID moves toward. -/
def State.vidTarget (s : State) : Nat := if s.pins.cold then s.fuses.trim - 1 else s.fuses.trim

/-- One step of CORE_VID toward its target, at least 100 µs after the last (R380). Until the Foreman has read TRIM and
during recovery the code stays 0. -/
def execVidStep (t : Nat) (s : State) : Host.Outcome State Fault Refusal :=
  done (s.live t fun s =>
    let v := s.pins.vid
    let due := match s.pins.vidAt with | none => true | some c => decide (c + 10000 ≤ s.count)
    if s.recovery.isSome || !(s.boot.phase == .committed || s.boot.phase == .done) || s.mode == .banked || !due then s
    else if v < s.vidTarget then { s with pins := { s.pins with vid := v + 1, vidAt := some s.count } }
    else if s.vidTarget < v then { s with pins := { s.pins with vid := v - 1, vidAt := some s.count } }
    else s)

/-! ### Temperature (R364, R365, R381, R382) -/

/-- A site's reading in 1/16 °C: the higher of its working sensors; 115 °C when both have failed (R381). -/
def siteReading : Option Int × Option Int → Int
  | (some a, some b) => max a b
  | (some a, none) => a
  | (none, some b) => b
  | (none, none) => 1840

def State.hottest (s : State) : Int := (s.pins.sites.foldl max (s.pins.sites.headD 0))
def State.coolest (s : State) : Int := (s.pins.sites.foldl min (s.pins.sites.headD 0))

/-- The voltage flags of a sample: cold below 30 °C, and warm again after 10 ms above 35 °C (R380). -/
def Pins.coldStep (now : Nat) (cool : Int) (p : Pins) : Pins :=
  if cool < 480 then { p with cold := true, above35 := none }
  else if 560 < cool then
    let since := p.above35.getD now
    if since + 1000000 ≤ now then { p with cold := false, above35 := some since } else { p with above35 := some since }
  else { p with above35 := none }

/-- The count since which the hottest site has read below 100 °C (R365). -/
def Pins.coolStep (now : Nat) (hot : Int) (p : Pins) : Pins :=
  { p with below100 := if hot < 1600 then some (p.below100.getD now) else none }

/-- A reading as a signed 16-bit field. -/
def intNat (i : Int) : Nat := (i % 65536).toNat

/-- The sensors are sampled; 115 °C asserts THERM_TRIP_N and declares a device fault (R364, R381). While the trip holds
recovery, a further reading of 115 °C is the same trip (log 18). -/
def execSensorSample (t : Nat) (sites : List (Option Int × Option Int)) (s : State) : Host.Outcome State Fault Refusal :=
  done (s.live t fun s =>
    let now := s.count
    let read := (List.range 128).map fun k =>
      match sites[k]? with
      | some r => siteReading r
      | none => s.pins.sites.getD k 400
    let s1 := { s with pins := { s.pins with sites := read, sampledAt := now } }
    let s2 : State := { s1 with pins := (s1.pins.coldStep now s1.coolest).coolStep now s1.hottest }
    if 1840 ≤ s2.hottest ∧ !s2.pins.thermTripN then
      let s3 := { s2 with pins := { s2.pins with thermTripN := true, tripAt := now, below100 := none } }
      (s3.report Rep.thermal [intNat s3.hottest, now, 0]).deviceFault FaultCause.thermal
    else s2)

/-- 100 ms below 100 °C: THERM_TRIP_N is released and recovery may continue (R365). -/
def execThermalRelease (t : Nat) (s : State) : Host.Outcome State Fault Refusal :=
  done (s.live t fun s =>
    match s.pins.below100 with
    | none => s
    | some c =>
      if s.pins.thermTripN ∧ c + 10000000 ≤ s.count then
        ({ s with pins := { s.pins with thermTripN := false } }).report Rep.thermal [intNat s.hottest, s.pins.tripAt, s.count]
      else s)

/-! ### The test access port (R411) -/

/-- Load an instruction register value and shift its register out on TDO. -/
def State.tap (instr : String) (v : Option (BitVec 32)) (s : State) : State :=
  { s with mgmt := { s.mgmt with jtag := instr }, out := s.out ++ [.tdo instr v] }

/-- The identification register (Table 18.6). -/
def State.idcode (s : State) : BitVec 32 := if s.fuses.b0 then 0x26D4034B#32 else 0x16D4034B#32

def State.tapReset (s : State) : State := { s with mgmt := { s.mgmt with jtag := "IDCODE" } }

def execTrstN (t : Nat) (s : State) : Host.Outcome State Fault Refusal := done (s.advance t).tapReset
def execTestLogicReset (t : Nat) (s : State) : Host.Outcome State Fault Refusal := done (s.advance t).tapReset
def execIdcode (t : Nat) (s : State) : Host.Outcome State Fault Refusal := done ((s.advance t).tap "IDCODE" (some s.idcode))
def execBypass (t : Nat) (s : State) : Host.Outcome State Fault Refusal := done ((s.advance t).tap "BYPASS" none)

/-- SAMPLE/PRELOAD samples the digital signals of Table 18.5: CORE_VID, ALERT_N, FAULT_N, THERM_TRIP_N and BLK_PORST_N
in a boundary register whose cells the manual does not order: a free arrangement of those signals (log 4). -/
def execSamplePreload (t : Nat) (s : State) : Host.Outcome State Fault Refusal :=
  let s1 := s.advance t
  let v := s1.pins.vid + 16 * b2n s1.alertN + 32 * b2n s1.pins.faultN + 64 * b2n s1.pins.thermTripN + 128 * b2n s1.porst
  done (s1.tap "SAMPLE/PRELOAD" (some (Config.boundaryCells v)))

/-- EXTEST drives the boundary only while BLK_PORST_N is asserted, and otherwise selects bypass (R411). -/
def execExtest (t : Nat) (s : State) : Host.Outcome State Fault Refusal :=
  let s1 := s.advance t
  done (s1.tap (if s1.porst then "EXTEST" else "BYPASS") none)

end Sys2Proof.Machine
end

