-- ==== Sys2Proof/Machine/Prefix.lean ====
section
/-! DEFINITION. The prefix store: keys, room, replacement and eviction (R44 to R48). -/

namespace Sys2Proof.Machine

/-- The snapshot under a key: context, its current generation, handle (R44). -/
def State.snapshot (s : State) (c handle : Nat) : Option Snapshot :=
  s.snapshots.find? fun n => n.ctx == c && n.gen == (s.ctx c).gen && n.handle == handle

def snapKey (n : Snapshot) : Nat × Nat × Nat := (n.ctx, n.gen, n.handle)

/-- Pages that the stored snapshots and the ones being written occupy. -/
def State.snapPages (s : State) : Nat :=
  (s.snapshots.map fun n => pagesOf n.bytes).sum + (s.streams.map fun p => (p.2.saving.map fun n => pagesOf n.bytes).getD 0).sum

/-- Delete a snapshot; its pages enter zeroing (R258). -/
def State.deleteSnapshot (n : Snapshot) (s : State) : State :=
  ({ s with snapshots := s.snapshots.filter fun m => snapKey m != snapKey n }).releasePages n.pages

/-- Pages of the snapshot region that can hold snapshots: all but the poisoned ones that nothing owns any more (R256). -/
def State.snapRoom (s : State) : Nat :=
  s.layout.getD 1 0 - (s.poisoned.filter fun p => inSpan (regionSpan s.layout 1) p && !s.ownedPages.contains p).length

/-- The least recently restored snapshot that no restore is reading. -/
def State.victim (s : State) : Option Snapshot :=
  (s.snapshots.filter fun n => n.readers == 0).foldl (fun b n => match b with
    | none => some n
    | some m => if n.lastRestore < m.lastRestore then some n else some m) none

/-- Directory entries that the stored snapshots and the saves under way take (R48). -/
def State.snapEntries (s : State) : Nat := s.snapshots.length + (s.streams.filter fun p => p.2.saving.isSome).length

/-- Evict one at a time until `n` more pages and one more directory entry fit; false when they never do. What has been evicted
stays evicted (R48). -/
def State.makeRoom (n : Nat) : Nat → State → Bool × State
  | 0, s => (false, s)
  | fuel + 1, s =>
    if s.snapPages + n ≤ s.snapRoom ∧ s.snapEntries < 131072 then (true, s)
    else
      match s.victim with
      | none => (false, s)
      | some v => State.makeRoom n fuel (s.deleteSnapshot v)

/-- A snapshot larger than 1 MiB is not written (R48). -/
def State.fitSnapshot (bytes : Nat) (s : State) : Bool × State :=
  if 1048576 < bytes then (false, s) else s.makeRoom (pagesOf bytes) (s.snapshots.length + 1)

/-- A finished write replaces the snapshot under its key in one step (R45). -/
def State.putSnapshot (n : Snapshot) (s : State) : State :=
  match s.snapshots.find? fun m => snapKey m == snapKey n with
  | none => { s with snapshots := s.snapshots ++ [n] }
  | some old => let s1 := s.deleteSnapshot old; { s1 with snapshots := s1.snapshots ++ [n] }

/-- A restore begins or ends reading a snapshot. -/
def State.reading (key : Nat × Nat × Nat) (f : Nat → Nat) (s : State) : State :=
  { s with snapshots := s.snapshots.map fun (n : Snapshot) => if snapKey n = key then { n with readers := f n.readers } else n }

/-- A restore completes: it is the snapshot's most recent use. -/
def State.restored (key : Nat × Nat × Nat) (s : State) : State :=
  { s with
    snapshots := s.snapshots.map fun (n : Snapshot) =>
      if snapKey n = key then { n with readers := n.readers - 1, lastRestore := s.snapClock + 1 } else n
    snapClock := s.snapClock + 1 }

end Sys2Proof.Machine
end

