-- ==== Sys2Proof/Machine/Mgmt.lean ====
section
/-! DEFINITION. Management transport, management messages, bundles and boot, SPDM, MCTP control and I3C (R383 to R395,
R366, R351). -/

namespace Sys2Proof.Machine

/-! ### Messages (Table 17.1) -/

/-- What a management command does: the endpoint answers from the start of the device count on (Table 17.4), and a message
leaves DORMANT (R375). -/
def State.managed (t : Nat) (s : State) (f : State → State) : State :=
  s.live t fun s => if s.running then f s.active else s

namespace Msg
def code (m : Bytes) : Nat := field m 5 1
def flags (m : Bytes) : Nat := field m 6 1
def mseq (m : Bytes) : Nat := field m 8 2
def payload (m : Bytes) : Bytes := m.drop 12
/-- The header of a vendor-defined request to this endpoint: type, PEN, neither RESPONSE nor REPORT. -/
def isRequest (m : Bytes) : Bool :=
  m.take 5 == [0x7F#8, 0x00#8, 0x00#8, 0xE3#8, 0xC9#8] && decide (12 ≤ m.length) && flags m % 4 == 0
def reservedOk (m : Bytes) : Bool := flags m / 4 == 0 && field m 7 1 == 0 && field m 10 2 == 0
end Msg

def State.respond (code status mseq : Nat) (payload : Bytes) (s : State) : State := s.emit (.mgmt code status mseq payload)

/-- The codes of Table 17.2 that a request may carry. -/
def Msg.codes : List Nat := [0x01, 0x02, 0x03, 0x10, 0x11, 0x12, 0x13, 0x20, 0x21]

/-- Serve a request of a CODE: in Banked mode all but BUNDLE_STATUS and ASHPIT_FETCH are refused (R391); a non-zero
reserved field, or a payload of the wrong form, is E_FIELD without effect, and a request of an undefined CODE, whichever row brings it, is
E_OPCODE (R385). -/
def State.request (code : Nat) (m : Bytes) (formOk : Bytes → Bool) (f : Bytes → State → State) (s : State) : State :=
  if !Msg.isRequest m ∨ (Msg.code m ≠ code ∧ Msg.codes.contains (Msg.code m) = true) then s
  else if s.mode = .banked ∧ Msg.code m ≠ 0x03 ∧ Msg.code m ≠ 0x21 then s.respond (Msg.code m) E.combo (Msg.mseq m) []
  else if Msg.code m ≠ code then s.respond (Msg.code m) E.opcode (Msg.mseq m) []
  else if !Msg.reservedOk m || !formOk (Msg.payload m) then s.respond code E.field (Msg.mseq m) []
  else f (Msg.payload m) s

/-! ### The bundle (R386, R388) -/

def execBundleWrite (t : Nat) (msg : Bytes) (s : State) : Host.Outcome State Fault Refusal :=
  done (s.managed t fun s =>
    s.request 0x01 msg (fun p => zeroRange p 6 2 && decide (8 ≤ p.length) && p.length == 8 + field p 4 2) (fun p s =>
      let off := field p 0 4
      let len := field p 4 2
      let b := if off = 0 then { s.boot with staged := .empty, stagedBytes := [], stagedFw := [], stagedStoker := [] } else s.boot
      let code := firstFail [(len < 4 || 1024 < len || len % 4 != 0, E.range), (off != b.stagedBytes.length, E.sequence),
        (1048576 < b.stagedBytes.length + len, E.range)]
      let b' := if code = 0 then { b with staged := .writing, stagedBytes := b.stagedBytes ++ p.drop 8 } else s.boot
      ({ s with boot := b' }).respond 0x01 code (Msg.mseq msg) []))

/-- BUNDLE_COMMIT: the checks of R388, with step 3 of the first commit after BLK_PORST_N leading to Banked mode (R389). -/
def execBundleCommit (t : Nat) (msg : Bytes) (s : State) : Host.Outcome State Fault Refusal :=
  done (s.managed t fun s =>
    s.request 0x02 msg (fun p => p.isEmpty) (fun _ s =>
      let b := s.boot
      let h := bundleHalves b.stagedBytes
      let fw := Img.version h.1
      let st := Img.version h.2
      let first := b.phase == .waitCommit
      let off := s.abiOffender (comboRow s.fuses.b0 fw)
      let code := firstFail [(b.staged != .writing, E.state), (!s.bundleSigOk b.stagedBytes, E.imageSig),
        (!s.bundleComboOk b.stagedBytes, E.combo), (off.isSome, E.imageAbi)]
      let s1 := if code = 0 then { s with boot := { b with staged := .committed, stagedFw := fw, stagedStoker := st } } else s
      let pay := match code, off with
        | 0x09, some o => leBytes 2 o.1 ++ leBytes 1 o.2.1 ++ [0] ++ leBytes 4 o.2.2
        | _, _ => []
      let s2 := s1.respond 0x02 code (Msg.mseq msg) pay
      if !first then s2
      else if code = E.combo then s2.enterBanked E.combo
      else if code = 0 then
        let r := s2.foremanStart
        if r.2 then { r.1 with boot := { r.1.boot with phase := .committed } } else r.1.enterBanked E.imageSig
      else s2))

def tripleBytes (v : List Nat) : Bytes := (List.range 3).flatMap fun i => leBytes 2 (v.getD i 0)

def Staged.code : Staged → Nat
  | .empty => 0 | .writing => 1 | .committed => 2

def execBundleStatus (t : Nat) (msg : Bytes) (s : State) : Host.Outcome State Fault Refusal :=
  done (s.managed t fun s =>
    s.request 0x03 msg (fun p => p.isEmpty) (fun _ s =>
      s.respond 0x03 0 (Msg.mseq msg)
        (tripleBytes s.boot.activeFw ++ tripleBytes s.boot.activeStoker ++ leBytes 1 s.boot.staged.code ++ [0, 0, 0] ++
          leBytes 4 s.boot.stagedBytes.length ++ leBytes 1 s.boot.status)))

/-! ### Power-on boot (R390, R406) -/

/-- Kinds of unit of which at least one must work (R357). -/
def unitKinds : List (List UnitId) :=
  [(List.range 64).map .hearth, (List.range 16).map .flue, (List.range 32).map .grate, (List.range 4).map .assay,
   (List.range 4).map .fpUnit, (List.range 8).map .damper, (List.range 2).map .foreman]

/-- The last unit of a kind has failed, or a unit whose failure is a device fault (R357, R359). -/
def lastFailed (failed : List UnitId) : Bool :=
  (unitKinds.any fun k => k.all failed.contains) || failed.contains .detokeniser || failed.contains .arbiter

def unitCode : UnitId → List Nat
  | .hearth n => [0, n] | .flue n => [1, n] | .grate n => [2, n] | .assay n => [3, n] | .fpUnit n => [4, n]
  | .damper n => [5, n] | .prospector => [6, 0] | .foreman n => [7, n] | .detokeniser => [8, 0] | .arbiter => [9, 0]

/-- Power-on boot ends: a stack calibration or capacity failure is Banked mode; otherwise NORMAL, with the BOOT report, and
the Foreman serves the rings. -/
def execBootComplete (t : Nat) (zqOk capacityOk : Bool) (failed : List UnitId) (s : State) :
    Host.Outcome State Fault Refusal :=
  done (s.live t fun s =>
    if s.boot.phase ≠ .committed ∨ s.mode ≠ .recovering ∨ s.recovery.isSome then s
    else if !zqOk then s.enterBanked E.internal
    else if !capacityOk then s.enterBanked E.range
    else
      let s1 := failed.foldl (fun s u => s.report Rep.unitFailed (unitCode u)) { s with failed := failed }
      let s2 := { s1 with mode := .normal, lastActivity := s1.count, boot := { s1.boot with phase := .done } }
      let s3 := s2.report Rep.boot [0, s2.boot.status]
      if lastFailed failed then s3.deviceFault FaultCause.lastUnit else s3.pump pumpFuel)

/-! ### Other messages -/

def execPolicyRootSet (t : Nat) (msg : Bytes) (s : State) : Host.Outcome State Fault Refusal :=
  done (s.managed t fun s =>
    s.request 0x13 msg (fun p => p.length == 104 && zeroRange p 2 6 && decide (field p 1 1 < 16)) (fun p s =>
      let i := field p 0 1
      let key := slice p 8 96
      let clear := key.all (· == 0)
      if i < 1 ∨ 4 < i ∨ (!clear ∧ !P384.onCurve (keyPoint key)) then s.respond 0x13 E.range (Msg.mseq msg) []
      else
        let r : PolicyRoot := if clear then ⟨0, []⟩ else ⟨field p 1 1, key⟩
        ({ s with roots := s.roots.set (i - 1) r }).respond 0x13 0 (Msg.mseq msg) []))

/-- RECOVER is answered OK and then declares a device fault (R385). -/
def execRecover (t : Nat) (msg : Bytes) (s : State) : Host.Outcome State Fault Refusal :=
  done (s.managed t fun s =>
    s.request 0x20 msg (fun p => p.isEmpty) (fun _ s =>
      (s.respond 0x20 0 (Msg.mseq msg) []).deviceFault FaultCause.recover))

/-- At most 4,096 bytes of an Ashpit record (R351). The bytes captured are free (log 4). -/
def execAshpitFetch (t : Nat) (msg : Bytes) (s : State) : Host.Outcome State Fault Refusal :=
  done (s.managed t fun s =>
    s.request 0x21 msg (fun p => p.length == 8) (fun p s =>
      let off := field p 4 4
      match s.ashpit.find? fun r => r.num == field p 0 4 with
      | none => s.respond 0x21 E.range (Msg.mseq msg) []
      | some r =>
        if r.bytes ≤ off then s.respond 0x21 E.range (Msg.mseq msg) []
        else (s.meetAshpit r.num).respond 0x21 0 (Msg.mseq msg)
          (leBytes 4 r.bytes ++ (List.range (min 4096 (r.bytes - off))).map fun i => Config.captureByte r.num (off + i))))

/-- The response to the report at the head removes it, and the next is sent (R385). -/
def execReportResponse (t mseq : Nat) (s : State) : Host.Outcome State Fault Refusal :=
  done (s.managed t fun s =>
    match s.reports with
    | [] => s
    | r :: rest =>
      if r.mseq ≠ mseq then s
      else
        let s1 := { s with reports := rest }
        match rest with
        | [] => s1
        | n :: _ => { s1 with out := s1.out ++ [.report n, .ibi 0x5D], mgmt := { s1.mgmt with reportSent := s1.count } })

/-- The head is sent again every 100 ms until its response arrives (R385). -/
def execReportResend (t : Nat) (s : State) : Host.Outcome State Fault Refusal :=
  done (s.live t fun s =>
    match s.reports with
    | [] => s
    | r :: _ =>
      if s.mgmt.reportSent + 10000000 ≤ s.count then
        { s with out := s.out ++ [.report r, .ibi 0x5D], mgmt := { s.mgmt with reportSent := s.count, resends := s.mgmt.resends + 1 } }
      else s)

/-! ### Measurements (R394, R395) -/

/-- Domain map, routing table and enrolled roots in their message layouts (Table 17.2, Table 17.6). -/
def State.hardwareConfig (s : State) : Bytes :=
  let map := s.domains.ports.flatMap (fun p => leBytes 1 (p.1 + 128 * b2n p.2)) ++
    s.domains.regions.flatMap fun r => leBytes 4 r.1 ++ leBytes 4 r.2.1 ++ leBytes 1 r.2.2 ++ [0, 0, 0]
  let routing := leBytes 1 s.routing.device ++ (s.routing.peers.flatMap fun p => leBytes 1 (p.1 + 128 * b2n p.2)) ++
    leBytes 4 s.routing.board
  let roots := ((List.range s.roots.length).zip s.roots).flatMap fun r =>
    if r.2.key = [] then [] else leBytes 1 (r.1 + 1) ++ leBytes 1 r.2.mask ++ List.replicate 6 0 ++ r.2.key
  map ++ routing ++ roots

def manifestEntry (ctx gen kind state slot num : Nat) (digest : Bytes) : Bytes :=
  leBytes 2 ctx ++ leBytes 2 gen ++ leBytes 1 kind ++ leBytes 1 state ++ leBytes 2 slot ++ leBytes 4 num ++ leBytes 4 0 ++
    slice digest 0 48

/-- The install manifest at the current count (Table 17.7): vocabularies under context 0, then each context's installs by
kind and number and its live adapter versions by slot and version. -/
def State.manifest (s : State) : Bytes :=
  let vs := s.vocabs.map fun p => manifestEntry 0 0 6 2 p.1 0 p.2.digest
  let cs := s.ctxs.flatMap fun p =>
    let ord := sortBy (fun (a b : InstallRec) => decide (a.kind < b.kind) || (a.kind == b.kind && decide (a.install.num ≤ b.install.num)))
      p.2.installs
    (ord.map fun r => manifestEntry p.1 p.2.gen r.kind (if r.inForce then 0 else 1) 0xFFFF r.install.num r.install.digest) ++
      s.adapters.flatMap fun a =>
        if a.2.ctx == p.1 && a.2.gen == p.2.gen then
          a.2.versions.map fun v => manifestEntry p.1 p.2.gen 7 2 a.1 v.version v.digest
        else []
  let es := vs ++ cs
  leBytes 4 es.length ++ leBytes 4 0 ++ leBytes 8 s.count ++ es.flatten

/-- The first commit has been executed: before it SPDM has the indices 1 and 4 (Table 17.4). -/
def BootPhase.started : BootPhase → Bool
  | .committed => true | .done => true | _ => false

/-- A measurement by index; indices 2 and 3 are absent in Banked mode (Table 17.6). -/
def State.measurement (s : State) (i : Nat) : Option Bytes :=
  let h := bundleHalves s.boot.active
  let run := s.mode != .banked && s.boot.active != []
  match i with
  | 1 => some (sha384 Config.romImage)
  | 2 => if run then some (sha384 h.1) else none
  | 3 => if run then some (sha384 h.2) else none
  | 4 => some (sha384 s.hardwareConfig)
  | 5 => if s.boot.phase.started then some s.manifest else none
  | _ => none

/-! ### SPDM (R392, R393; the message codes are DSP0274's, log 22) -/

namespace Spdm
def error : Nat := 0x7F
def invalid : Nat := 0x01
def unexpected : Nat := 0x04
def large : Nat := 0x0F
def mismatch : Nat := 0x41
end Spdm

def State.spdmError (code : Nat) (s : State) : State := s.emit (.spdm Spdm.error code 0 [])

/-- A request of a version that Giduster does not support is answered with an ERROR (R393). -/
def State.spdm (t ver : Nat) (s : State) (ready : State → Bool) (f : State → State) : State :=
  s.managed t fun s =>
    if ver ≠ 0x11 ∧ ver ≠ 0x12 then s.spdmError Spdm.mismatch
    else if !ready s then s.spdmError Spdm.unexpected
    else f s

/-- A response longer than 4,096 bytes is kept for CHUNK_GET (log 22). -/
def State.spdmAnswer (code p1 p2 : Nat) (payload : Bytes) (s : State) : State :=
  if payload.length ≤ 4096 then s.emit (.spdm code p1 p2 payload)
  else
    ({ s with mgmt := { s.mgmt with large := leBytes 1 code ++ leBytes 1 p1 ++ leBytes 1 p2 ++ payload,
                                    largeHandle := (s.mgmt.largeHandle + 1) % 256 } }).emit
      (.spdm Spdm.error Spdm.large 0 (leBytes 1 ((s.mgmt.largeHandle + 1) % 256)))

/-- A signature by the unit key over the transcript of the exchange (R392, R393). -/
def State.spdmSign (s : State) : Bytes :=
  ecdsaSign Config.unitKey (Config.signNonce s.freshCtr) (Config.spdmTranscript s.freshCtr)

def execGetVersion (t _ver : Nat) (s : State) : Host.Outcome State Fault Refusal :=
  done (s.managed t fun s =>
    ({ s with mgmt := { s.mgmt with spdmVersion := true, spdmCaps := false, spdmAlgs := false, spdmVer := 0 } }).emit
      (.spdm 0x04 0 0 ([0, 2] ++ leBytes 2 0x1100 ++ leBytes 2 0x1200)))

def execGetCapabilities (t ver : Nat) (s : State) : Host.Outcome State Fault Refusal :=
  done (s.spdm t ver (·.mgmt.spdmVersion) fun s =>
    ({ s with mgmt := { s.mgmt with spdmCaps := true, spdmAlgs := false, spdmVer := ver } }).emit
      (.spdm 0x61 0 0 (leBytes 4 (0x02 + 0x04 + 0x10 + (if ver = 0x12 then 0x20000 else 0)))))

/-- `asym` and `hash` are the requester's masks: bit 7 is ECDSA P-384, bit 1 is SHA-384. -/
def execNegotiateAlgorithms (t ver asym hash : Nat) (s : State) : Host.Outcome State Fault Refusal :=
  done (s.spdm t ver (fun s => s.mgmt.spdmCaps) fun s =>
    if bit asym 7 && bit hash 1 then
      ({ s with mgmt := { s.mgmt with spdmAlgs := true } }).emit (.spdm 0x63 0 0 (leBytes 4 0x80 ++ leBytes 4 0x02))
    else s.spdmError Spdm.invalid)

def execGetDigests (t ver : Nat) (s : State) : Host.Outcome State Fault Refusal :=
  done (s.spdm t ver (fun s => s.mgmt.spdmAlgs) fun s => s.emit (.spdm 0x01 0 1 (sha384 Config.certChain)))

def execGetCertificate (t ver slot off len : Nat) (s : State) : Host.Outcome State Fault Refusal :=
  done (s.spdm t ver (fun s => s.mgmt.spdmAlgs) fun s =>
    if slot ≠ 0 ∨ Config.certChain.length ≤ off then s.spdmError Spdm.invalid
    else
      let part := (Config.certChain.drop off).take len
      s.emit (.spdm 0x02 0 0 (leBytes 2 part.length ++ leBytes 2 (Config.certChain.length - off - part.length) ++ part)))

def execChallenge (t ver slot : Nat) (nonce : Bytes) (s : State) : Host.Outcome State Fault Refusal :=
  done (s.spdm t ver (fun s => s.mgmt.spdmAlgs) fun s =>
    if slot ≠ 0 ∨ nonce.length ≠ 32 then s.spdmError Spdm.invalid
    else s.fresh.emit (.spdm 0x03 0 1 (sha384 Config.certChain ++ s.spdmSign)))

/-- GET_MEASUREMENTS: index 0 asks how many, 0xFF asks for all, 1 to 5 for one; signed when asked. -/
def execGetMeasurements (t ver index : Nat) (sign : Bool) (nonce : Bytes) (s : State) : Host.Outcome State Fault Refusal :=
  done (s.spdm t ver (fun s => s.mgmt.spdmAlgs) fun s =>
    if sign && nonce.length != 32 then s.spdmError Spdm.invalid
    else
      let want := if index = 0 then [] else if index = 0xFF then [1, 2, 3, 4, 5] else [index]
      let blocks := want.filterMap fun i => (s.measurement i).map fun d => leBytes 1 i ++ leBytes 2 d.length ++ d
      let n := if index = 0 then ((List.range 6).filter fun i => (s.measurement i).isSome).length else blocks.length
      if index ≠ 0 ∧ index ≠ 0xFF ∧ blocks = [] then s.spdmError Spdm.invalid
      else
        let body := leBytes 1 (if index = 0 then 0 else n) ++ blocks.flatten
        let p1 := if index = 0 then n else 0
        if sign then s.fresh.spdmAnswer 0x60 p1 0 (body ++ s.spdmSign) else s.spdmAnswer 0x60 p1 0 body)

def execChunkGet (t ver handle seq : Nat) (s : State) : Host.Outcome State Fault Refusal :=
  done (s.spdm t ver (fun s => s.mgmt.spdmAlgs) fun s =>
    if handle ≠ s.mgmt.largeHandle ∨ s.mgmt.large.length ≤ 4096 * seq then s.spdmError Spdm.invalid
    else s.emit (.spdm 0x06 (if s.mgmt.large.length ≤ 4096 * (seq + 1) then 1 else 0) handle
      (leBytes 2 seq ++ (s.mgmt.large.drop (4096 * seq)).take 4096)))

/-! ### MCTP control and I3C (R383; completion codes are DSP0236's, log 22) -/

/-- Set Endpoint ID: operations 0 and 1 set a legal EID; others are refused. -/
def execSetEndpointId (t op eid : Nat) (s : State) : Host.Outcome State Fault Refusal :=
  done (s.managed t fun s =>
    if op ≤ 1 ∧ 8 ≤ eid ∧ eid ≤ 254 then
      ({ s with mgmt := { s.mgmt with eid := eid } }).emit (.mctp 1 0 ([0] ++ leBytes 1 eid ++ [0]))
    else s.emit (.mctp 1 2 []))

def execGetEndpointId (t : Nat) (s : State) : Host.Outcome State Fault Refusal :=
  done (s.managed t fun s => s.emit (.mctp 2 0 (leBytes 1 s.mgmt.eid ++ [0, 0])))

/-- Get MCTP Version Support: the control protocol is DSP0236 1.3. -/
def execGetMctpVersionSupport (t mtype : Nat) (s : State) : Host.Outcome State Fault Refusal :=
  done (s.managed t fun s =>
    if mtype = 0xFF ∨ mtype = 0 then s.emit (.mctp 4 0 [1, 0xF1#8, 0xF3#8, 0xFF#8, 0])
    else if mtype = 0x05 ∨ mtype = 0x7F then s.emit (.mctp 4 0 ([1] ++ slice (Config.mctpVersion mtype) 0 4))
    else s.emit (.mctp 4 0x80 []))

def execGetMessageTypeSupport (t : Nat) (s : State) : Host.Outcome State Fault Refusal :=
  done (s.managed t fun s => s.emit (.mctp 5 0 [3, 0x00#8, 0x05#8, 0x7F#8]))

def execGetVendorDefinedMessageSupport (t selector : Nat) (s : State) : Host.Outcome State Fault Refusal :=
  done (s.managed t fun s =>
    if selector = 0 then s.emit (.mctp 6 0 [0xFF#8, 1, 0x00#8, 0x00#8, 0xE3#8, 0xC9#8]) else s.emit (.mctp 6 2 []))

/-- ENTDAA assigns an address to a target that has none; its provisional ID carries the serial's low 32 bits. -/
def execEntdaa (t addr : Nat) (s : State) : Host.Outcome State Fault Refusal :=
  done (s.managed t fun s =>
    if s.mgmt.i3cAddr.isSome then s
    else ({ s with mgmt := { s.mgmt with i3cAddr := some addr } }).emit (.i3c addr (leBytes 4 s.fuses.serial.toNat)))

/-- SETDASA assigns an address by the static address 0x3A. -/
def execSetdasa (t static_ addr : Nat) (s : State) : Host.Outcome State Fault Refusal :=
  done (s.managed t fun s =>
    if static_ ≠ 0x3A ∨ s.mgmt.i3cAddr.isSome then s
    else ({ s with mgmt := { s.mgmt with i3cAddr := some addr } }).emit (.i3c addr []))

end Sys2Proof.Machine
end

