-- ==== Sys2Proof/Machine/Wire.lean ====
section
/-! DEFINITION. The bytes of what the block sends: Shaft packets, memory transactions and Drift messages (R4, Tables 3.6, 9.6, 10.4, 12.4,
12.7, 12.8, 12.13 and 12.14). Every reserved field of an outbound packet is 0 (R282). -/

namespace Sys2Proof.Machine

def zeros (n : Nat) : Bytes := List.replicate n 0

/-- Bytes up to a length. -/
def padTo (n : Nat) (b : Bytes) : Bytes := b ++ zeros (n - b.length)

/-- The common header (Table 12.4). -/
def shaftHeader (type dom vc flits port : Nat) (resent : Bool) : Bytes :=
  leBytes 1 type ++ leBytes 1 (dom + 4 * vc + 32 * b2n resent) ++ leBytes 2 flits ++ leBytes 1 port ++ zeros 11

/-- Token fields, 16 to a flit. -/
def tokenFlits (toks : List Nat) : Bytes := padTo (64 * ceilDiv toks.length 16) (toks.flatMap (leBytes 4))

/-- RELEASE_IN (Table 3.6). -/
def ReleaseIn.wire (dom : Nat) (r : ReleaseIn) : Bytes :=
  shaftHeader 3 dom 6 1 r.port r.resent ++ leBytes 2 r.stream ++ leBytes 1 r.status ++ leBytes 1 r.disp ++
    leBytes 1 (r.verdict + 128 * b2n r.late) ++ leBytes 1 r.handleStatus ++ leBytes 2 r.tag ++ leBytes 4 r.seq ++ leBytes 2 r.count ++
    leBytes 1 r.blockSource ++ zeros 1 ++ leBytes 4 r.relStart ++ leBytes 4 r.relEnd ++ leBytes 4 r.intakeEnd ++ leBytes 4 r.rule ++
    leBytes 4 r.matchStart ++ zeros 4 ++ leBytes 8 r.stamp

/-- RELEASE_OUT (Table 9.6): the header flit, and the committed tokens of a COMMITTED or an EXTEND_REQUEST. -/
def ReleaseOut.wire (dom : Nat) (r : ReleaseOut) : Bytes :=
  shaftHeader 6 dom 6 (Out.releaseOut r).flits r.port r.resent ++ leBytes 2 r.stream ++ leBytes 1 r.status ++ leBytes 1 r.disp ++
    leBytes 1 (r.verdict + 64 * b2n r.undecided + 128 * b2n r.late) ++ leBytes 1 r.endReason ++ leBytes 2 r.tag ++ leBytes 4 r.first ++
    leBytes 1 r.commit ++ leBytes 1 r.decided ++ leBytes 1 r.accepted ++ leBytes 1 r.held ++ leBytes 4 r.relStart ++ leBytes 4 r.relEnd ++
    leBytes 4 r.withheldEnd ++ leBytes 4 r.clientEnd ++ leBytes 1 r.blockSource ++ leBytes 1 r.round ++ zeros 2 ++ leBytes 4 r.rule ++
    leBytes 8 r.stamp ++ if r.disp = 0 ∨ r.disp = 2 then tokenFlits (r.toks.take r.commit) else []

/-- DRAFT: the header flit of Table 10.4 and a flit of 16 token fields (R238). -/
def DraftOut.wire (dom : Nat) (d : DraftOut) : Bytes :=
  shaftHeader 7 dom 6 2 d.port d.resent ++ leBytes 2 d.stream ++ leBytes 1 d.toks.length ++ leBytes 1 (b2n d.probe) ++ leBytes 4 d.first ++
    leBytes 2 d.tag ++ leBytes 2 d.sourceMap ++ zeros 4 ++ padTo 32 (d.toks.flatMap fun t => leBytes 2 t.2.toNat) ++
    padTo 64 (d.toks.flatMap fun t => leBytes 4 t.1)

/-- A transaction header (Table 12.8). -/
def txHeader (op dom vc flits tag len addr : Nat) : Bytes :=
  leBytes 1 op ++ leBytes 1 (dom + 4 * vc) ++ leBytes 2 flits ++ leBytes 2 tag ++ leBytes 2 len ++ leBytes 8 addr ++ zeros 48

/-- The flits of an output on a Shaft port of domain `dom`; other outputs have none. A completion without data has LENGTH 0: DESIGN CHOICE,
Table 12.8 gives LENGTH for data (log 108). -/
def Out.wire (dom : Nat) : Out → Bytes
  | .releaseIn r => r.wire dom
  | .releaseOut r => r.wire dom
  | .draft d => d.wire dom
  | .credit port init flits resent =>
    shaftHeader 8 dom 7 1 port resent ++ leBytes 1 (b2n init) ++ zeros 15 ++ padTo 32 ((flits.take 8).flatMap (leBytes 4))
  | .memCpl _ tag status data =>
    txHeader 2 dom 5 (1 + ceilDiv data.length 64) tag data.length status ++ padTo (64 * ceilDiv data.length 64) data
  | .bulkRead _ tag addr len => txHeader 0 dom 4 1 tag len addr
  | _ => []

/-- The Shaft port that an output leaves on. -/
def Out.shaftPort : Out → Option Nat
  | .releaseIn r => some r.port
  | .releaseOut r => some r.port
  | .draft d => some d.port
  | .credit port _ _ _ => some port
  | .memCpl port _ _ _ => some port
  | .bulkRead port _ _ _ => some port
  | _ => none

/-- The bytes that a Shaft port has carried to its host, in order. -/
def State.sent (s : State) (port : Nat) : Bytes :=
  (s.out.filter fun o => o.shaftPort == some port).flatMap (Out.wire (s.portDomain port))

/-! ### Management messages (Tables 17.1 and 17.2) -/

/-- A message of this endpoint: MFLAGS is 1 in a response, 2 in a report. -/
def mgmtBytes (code flags status mseq : Nat) (payload : Bytes) : Bytes :=
  [0x7F, 0x00, 0x00, 0xE3, 0xC9] ++ leBytes 1 code ++ leBytes 1 flags ++ leBytes 1 status ++ leBytes 2 mseq ++ zeros 2 ++ payload

/-- Widths of the items of a report's detail: those that come first, then those that repeat. They are the widths that the manual gives the
items elsewhere; where it gives an item none (a cause, a count of items, a thermal reading) one is the model's (log 108). -/
def reportWidths (code : Nat) : List Nat × List Nat :=
  match code with
  | 1 => ([1], [4])
  | 2 => ([4], [1])
  | 3 => ([4, 2], [2, 1])
  | 6 => ([2], [1])
  | 9 => ([1], [2])
  | 10 => ([2], [8])
  | 15 => ([], [4])
  | 16 => ([], [4])
  | 18 => ([1], [8])
  | _ => ([], [1])

/-- Lay items out with given widths. -/
def layItems : List Nat → List Nat → List Nat → Bytes
  | _, _, [] => []
  | w :: ws, cyc, v :: vs => leBytes w v ++ layItems ws cyc vs
  | [], w :: cyc, v :: vs => leBytes w v ++ layItems [] (cyc ++ [w]) vs
  | [], [], v :: vs => leBytes 1 v ++ layItems [] [] vs

/-- A REPORT message: at most 48 bytes of detail. -/
def Report.wire (r : Report) : Bytes :=
  mgmtBytes 0x30 2 0 r.mseq (leBytes 1 r.code ++ zeros 1 ++ leBytes 2 r.dropped ++ zeros 4 ++ leBytes 8 r.stamp ++
    (layItems (reportWidths r.code).1 (reportWidths r.code).2 r.detail).take 48)

/-- The bytes of an output on the management plane. -/
def Out.mgmtWire : Out → Bytes
  | .mgmt code status mseq payload => mgmtBytes code 1 status mseq payload
  | .report r => r.wire
  | _ => []

/-! ### Drift messages (R296) -/

def crcBit (c : BitVec 32) : BitVec 32 := if c.getLsbD 0 then (c >>> 1) ^^^ 0xEDB88320#32 else c >>> 1

def crcByte (c : BitVec 32) (b : Byte) : BitVec 32 := (List.range 8).foldl (fun c _ => crcBit c) (c ^^^ b.setWidth 32)

/-- CRC-32 of IEEE 802.3. -/
def crc32 (bs : Bytes) : BitVec 32 := ~~~(bs.foldl crcByte 0xFFFFFFFF#32)

/-- Header fields of a Drift message that its port gives it. -/
structure DriftEnds where
  src : Nat
  dst : Nat
  ack : Nat
  epoch : Nat

/-- A whole message of given payload: its CRC is taken with the field as 0 (Table 12.13). -/
def driftBytes (e : DriftEnds) (mtype cls units seq ctx gen : Nat) (payload : Bytes) : Bytes :=
  let front := leBytes 1 mtype ++ leBytes 1 cls ++ leBytes 2 units ++ leBytes 1 e.src ++ leBytes 1 e.dst ++ zeros 2 ++ leBytes 4 seq ++
    leBytes 4 e.ack ++ leBytes 4 e.epoch ++ leBytes 2 ctx ++ leBytes 2 gen
  let back := zeros 4 ++ padTo (64 * units - 32) payload
  front ++ leBytes 4 (crc32 (front ++ zeros 4 ++ back)).toNat ++ back

/-- Snapshot or checkpoint bytes of a DATA message: their layout is not the spec's, and they are free values (log 108). -/
def xferBytes (xfer off n : Nat) : Bytes := (List.range n).map fun k => Config.xferByte xfer (off + k)

/-- The payload of a message (Table 12.14). FP_RECORD is laid out by the table; in the others, whose widths it does not give, a number
takes 4 bytes and a handle 8: DESIGN CHOICE (log 108). -/
def DriftMsg.payload (m : DriftMsg) : Bytes :=
  let a := fun (k : Nat) => m.args.getD k 0
  match m.mtype with
  | 4 => leBytes 4 (a 0) ++ zeros 12 ++ m.body
  | 7 => leBytes 4 (a 0) ++ leBytes 4 (a 1) ++ xferBytes (a 0) (a 1) 4032
  | 8 => leBytes 4 (a 0) ++ leBytes 8 (a 1) ++ m.body
  | 9 => leBytes 4 (a 1) ++ leBytes 4 (a 0) ++ leBytes 4 (a 2) ++ xferBytes (a 1) (a 2) 4032
  | 10 => leBytes 4 (a 1) ++ leBytes 4 (a 0) ++ leBytes 4 (a 2) ++ m.body
  | _ => m.args.flatMap (leBytes 4) ++ m.body

def DriftMsg.wire (e : DriftEnds) (m : DriftMsg) : Bytes := driftBytes e m.mtype m.cls m.units m.seq m.ctx m.gen m.payload

/-- What a Drift port puts into the headers of its messages. -/
def State.driftEnds (s : State) (q : Nat) : DriftEnds :=
  let d := s.drift.getD q DriftPort.init
  ⟨d.route.device, d.peer, d.rxSeq, s.replicaEpoch⟩

/-- The bytes of a Drift output as its port sends it now: a message, or one of the LINK class, which carries SEQ 0 (R296). -/
def State.driftWire (s : State) : Out → Bytes
  | .drift q m => m.wire (s.driftEnds q)
  | .driftLink q mtype args =>
    driftBytes (s.driftEnds q) mtype 0 1 0 0 0 ((if mtype = 2 then args.drop 1 else args).flatMap (leBytes 4))
  | _ => []

end Sys2Proof.Machine
end

