-- ==== Sys2Proof/Machine/Shaft.lean ====
section
/-! DEFINITION. Shaft ports: receipt, credits, memory transactions, bulk reads, training and link failures, the domain
map and port holds (R272 to R293, R366, R385). -/

namespace Sys2Proof.Machine

/-! ### Receipt and credits (R277 to R282) -/

def State.modShaft (p : Nat) (f : ShaftPort → ShaftPort) (s : State) : State := { s with shaft := lmod s.shaft p f }

def State.modCredits (d : Nat) (f : DomCredits → DomCredits) (s : State) : State := { s with credits := lmod s.credits d f }

/-- A packet of a VC that Giduster credits takes `n` flits of the domain's credits; they are freed again when its checks
complete, when it is staged or discarded, or when the request has executed, all within its step (R279). -/
def DomCredits.use (vc n now : Nat) (c : DomCredits) : DomCredits :=
  { c with
    granted := c.granted.modify vc (· - n)
    freed := c.freed.modify vc (· + n)
    freedAt := c.freedAt.modify vc fun a => some (a.getD now) }

def State.creditShort (s : State) (dom vc n : Nat) : Bool :=
  decide (vc < 5) && decide ((s.credits.getD dom DomCredits.init).granted.getD vc 0 < n)

/-- SHAFT_CREDIT_ERROR is counted and reported (R279). -/
def State.creditError (dom : Nat) (s : State) : State :=
  let s1 := s.domCount dom Cnt.creditError
  s1.report Rep.creditError [dom, (s1.domCounters.getD dom []).getD Cnt.creditError 0]

/-- A packet that runs out of credits is discarded whole: the credits that its first flits took are freed (R279). -/
def State.dropShort (dom vc : Nat) (s : State) : State :=
  s.modCredits dom fun c => if c.granted.getD vc 0 = 0 then c else c.use vc (c.granted.getD vc 0) s.count

/-- The VC of an inbound packet type; `none` for a reserved TYPE or one not allowed inbound (Table 12.5). -/
def inboundVc : Nat → Option Nat
  | 0 => some 7 | 1 => some 0 | 2 => some 1 | 4 => some 2 | 5 => some 3 | 8 => some 7 | _ => none

/-- Step 1 of R282. -/
def headerBad (dom : Nat) (p : Bytes) : Bool :=
  inboundVc (Hdr.type p) != some (Hdr.vc p) || !Hdr.reservedOk p || Hdr.flits p == 0 || decide (145 < Hdr.flits p) ||
    Hdr.domain p != dom

/-- A port that takes packets: ACTIVE, or trained and waiting for the host's INIT (R278). -/
def State.linkUp (s : State) (port : Nat) : Bool :=
  let p := s.shaft.getD port ShaftPort.init
  p.link == .active || (p.link == .training && p.trained.isSome)

/-- An inbound packet of a type reaches its port: a flit without a credit discards it whole; a bad header discards it
unstamped; otherwise `f` takes it with the port's domain (R279, R282). Only IDLE flits leave the port idle (R291). -/
def State.inbound (ty port : Nat) (pkt : Bytes) (f : Nat → State → State) (s : State) : State :=
  let dom := s.portDomain port
  let n := pkt.length / 64
  let vc := Hdr.vc pkt
  let s1 := if ty = 0 then s else s.active.modShaft port fun p => { p with lastBusy := s.count }
  if s.creditShort dom vc n then (s1.dropShort dom vc).creditError dom
  else
    let s2 := if vc < 5 then s1.modCredits dom (DomCredits.use vc n s.count) else s1
    if headerBad dom pkt then s2.domCount dom Cnt.headerError else f dom s2

/-- The row of a Shaft packet type: it has its occasion on an ACTIVE port of a running device. -/
def State.packet (t ty port : Nat) (pkt : Bytes) (s : State) (f : Nat → State → State) : State :=
  s.run t fun s => if s.portActive port ∧ Hdr.type pkt = ty then s.inbound ty port pkt f else s

/-- A packet that step 1 of R282 discards, whatever its TYPE. -/
def execShaftHeaderError (t port : Nat) (pkt : Bytes) (s : State) : Host.Outcome State Fault Refusal :=
  done (s.live t fun s =>
    if s.linkUp port ∧ headerBad (s.portDomain port) pkt then s.inbound (Hdr.type pkt) port pkt (fun _ s => s) else s)

/-- IDLE flits are uncredited and discarded (R285). -/
def execIdle (t port : Nat) (pkt : Bytes) (s : State) : Host.Outcome State Fault Refusal :=
  done (s.live t fun s =>
    if s.linkUp port ∧ Hdr.type pkt = 0 then s.inbound 0 port pkt (fun _ s => s) else s)

def creditEntry (pkt : Bytes) (vc : Nat) : Nat := field pkt (0x20 + 4 * vc) 4

/-- A port whose training is complete goes ACTIVE once the host has advertised its credits (R278, R290). -/
def State.activatePorts (dom : Nat) (s : State) : State :=
  { s with shaft := s.shaft.map fun (p : ShaftPort) =>
      if p.link = .training ∧ p.trained.isSome ∧ p.domain = dom then
        { p with link := .active, trained := none, reported := false, event := true, lastBusy := s.count }
      else p }

/-- The host's INIT advertisement of MEM_REQ and RELEASE, at least 16 and 64 flits, taken once (R278; log 24). -/
def State.creditInit (dom mem rel : Nat) (s : State) : State :=
  if (s.credits.getD dom DomCredits.init).initRx ∨ mem < 16 ∨ rel < 64 then s
  else
    let s1 := s.modCredits dom fun c =>
      { c with initRx := true, memAdv := mem, memBal := mem, relAdv := rel, relBal := rel, relLast := s.count }
    let s2 := s1.activatePorts dom
    (s2.drainTx dom (drainFuel s2)).issueReads

/-- Returned credits; a channel that would rise above its advertisement is left and counted (R279). -/
def State.creditReturned (dom mem rel : Nat) (s : State) : State :=
  let c := s.credits.getD dom DomCredits.init
  let memBad := decide (c.memAdv < c.memBal + mem)
  let relBad := decide (c.relAdv < c.relBal + rel)
  let s1 := if memBad then s.creditError dom else s
  let s2 := if relBad then s1.creditError dom else s1
  let s3 := s2.modCredits dom fun c =>
    { c with
      memBal := if memBad then c.memBal else c.memBal + mem
      relBal := if relBad then c.relBal else c.relBal + rel
      relLast := if relBad ∨ rel = 0 then c.relLast else s.count
      stalled := if relBad ∨ rel = 0 then c.stalled else false }
  let s4 := s3.drainTx dom (drainFuel s3)
  if memBad ∨ mem = 0 then s4 else s4.issueReads

def execCredit (t port : Nat) (pkt : Bytes) (s : State) : Host.Outcome State Fault Refusal :=
  done (s.live t fun s =>
    if s.linkUp port ∧ Hdr.type pkt = 8 then
      s.inbound 8 port pkt fun dom s =>
        if bit (field pkt 0x10 1) 0 then s.creditInit dom (creditEntry pkt 4) (creditEntry pkt 6)
        else s.creditReturned dom (creditEntry pkt 4) (creditEntry pkt 6)
    else s)

/-- A CREDIT packet is due: some channel has 256 freed flits, or the oldest was freed 0.10 µs ago (R279). -/
def DomCredits.due (c : DomCredits) (now : Nat) : Bool :=
  c.freed.any (fun f => decide (256 ≤ f)) || c.freedAt.any fun a => match a with | some u => decide (u + 10 ≤ now) | none => false

def execCreditReturn (t dom : Nat) (s : State) : Host.Outcome State Fault Refusal :=
  done (s.live t fun s =>
    let c := s.credits.getD dom DomCredits.init
    match s.lowestActive dom with
    | some p =>
      if c.due s.count then
        (s.modCredits dom fun c =>
          { c with granted := (c.granted.zip c.freed).map fun g => g.1 + g.2, freed := [0, 0, 0, 0, 0],
                   freedAt := [none, none, none, none, none] }).sendOn p (.credit p false (c.freed ++ [0, 0, 0]) false)
      else s
    | none => s)

/-- A domain that lacks RELEASE credit and has had none for 1.00 ms is reported, once per stall (R280; log 24). -/
def execShaftStall (t dom : Nat) (s : State) : Host.Outcome State Fault Refusal :=
  done (s.run t fun s =>
    let c := s.credits.getD dom DomCredits.init
    let head := ((s.queuedTx.find? fun q => q.dom == dom).map fun q => q.out.charge).getD 1
    if c.initRx ∧ !c.stalled ∧ c.relBal < head ∧ c.relLast + 100000 ≤ s.count then
      (s.modCredits dom fun c => { c with stalled := true }).report Rep.shaftStall
        [(s.lowestActive dom).getD (((List.range 16).find? fun p => s.portDomain p == dom).getD 0), dom]
    else s)

/-! ### The host-directed memory (R249, R250, R286, R287) -/

/-- What a byte of the host-directed region that nothing has written reads as: every page is zeroed before it is mapped
(R258, R390). -/
def memDefault : Byte := 0

def memGet : List Host.Cell → Nat → Byte
  | [], _ => memDefault
  | (a, b) :: r, n => if a = n then b else memGet r n

/-- Write one byte, keeping addresses rising and no cell equal to the default. -/
def memSet : List Host.Cell → Nat → Byte → List Host.Cell
  | [], n, v => if v = memDefault then [] else [(n, v)]
  | (a, b) :: r, n, v =>
    if n < a then (if v = memDefault then (a, b) :: r else (n, v) :: (a, b) :: r)
    else if n = a then (if v = memDefault then r else (n, v) :: r)
    else (a, b) :: memSet r n v

def memRead (m : List Host.Cell) (addr : Nat) : Nat → Bytes
  | 0 => []
  | n + 1 => memGet m addr :: memRead m (addr + 1) n

def memWrite (m : List Host.Cell) (addr : Nat) : Bytes → List Host.Cell
  | [] => m
  | b :: bs => memWrite (memSet m addr b) (addr + 1) bs

/-- Addresses strictly rising from above `lo`, and no cell equal to the default. -/
def memFrom : Option Nat → List Host.Cell → Bool
  | _, [] => true
  | lo, (a, b) :: r => (match lo with | none => true | some l => decide (l < a)) && b != memDefault && memFrom (some a) r

/-- The canonical form of the memory. -/
def Memory.wf (m : List Host.Cell) : Bool := memFrom none m

/-- Poisoned stack pages of the host-directed region that a byte range touches; addresses are region bytes. -/
def State.hostPoisoned (s : State) (addr len : Nat) : Bool :=
  s.poisoned.contains (s.regionFirst 7 + addr / 65536) || s.poisoned.contains (s.regionFirst 7 + (addr + len - 1) / 65536)

/-! ### Memory transactions (R286 to R289) -/

namespace Tx
def op (p : Bytes) : Nat := field p 0 1
def domain (p : Bytes) : Nat := bits (field p 1 1) 1 0
def vc (p : Bytes) : Nat := bits (field p 1 1) 4 2
def flits (p : Bytes) : Nat := field p 2 2
def tag (p : Bytes) : Nat := field p 4 2
def length (p : Bytes) : Nat := field p 6 2
def address (p : Bytes) : Nat := field p 8 8
def data (p : Bytes) : Bytes := (p.drop 64).take (length p)
/-- The form of Table 12.8: reserved bits 0, LENGTH 4 to 256 and a multiple of 4, the flit count that LENGTH gives, the
port's domain, an aligned ADDRESS that crosses no 4 KiB boundary. -/
def formOk (dom vcNum dataFlits : Nat) (p : Bytes) : Bool :=
  domain p == dom && vc p == vcNum && bits (field p 1 1) 7 5 == 0 && decide (4 ≤ length p) && decide (length p ≤ 256) &&
    length p % 4 == 0 && flits p == 1 + dataFlits && zeroRange p 16 48
def addressOk (p : Bytes) : Bool := address p % 4 == 0 && decide (address p % 4096 + length p ≤ 4096)
end Tx

/-- Where an address leads (Table 12.9): a window word of an instance, or a byte of the host-directed region. -/
inductive Target where
  | window (i : Inst) (off : Nat)
  | region (addr : Nat)
  | none
  deriving DecidableEq, Repr

def hostBase : Nat := 0x0000010000000000

/-- Decode a transaction's address for a domain; a breach of a rule of the table leads nowhere (R287). -/
def State.decodeAddr (s : State) (dom : Nat) (p : Bytes) : Target :=
  let a := Tx.address p
  let part := s.domains.regions.getD dom (0, 0, 0)
  if !Tx.addressOk p then .none
  else if a < 0x20000 then
    let ctl : CtlPort := if a < 0x10000 then .A else .B
    if Tx.length p = 4 ∧ s.granted dom ctl then .window ⟨ctl, dom⟩ (a % 0x10000) else .none
  else if hostBase ≤ a ∧ a + Tx.length p ≤ hostBase + part.2.1 * 65536 then .region (part.1 * 65536 + (a - hostBase))
  else .none

/-- A host transaction on stack 1 of an ACTIVE port takes MEM_REQ credits and frees them when it has executed. -/
def State.transaction (t port : Nat) (pkt : Bytes) (s : State) (f : Nat → State → State) : State :=
  s.live t fun s =>
    if s.portActive port then
      let dom := s.portDomain port
      let n := 1 + (pkt.length - 64 + 63) / 64
      let s1 := s.active.modShaft port fun p => { p with lastBusy := s.count }
      if s.creditShort dom 4 n then (s1.dropShort dom 4).creditError dom
      else f dom (s1.modCredits dom (DomCredits.use 4 n s.count))
    else s

/-- Completion STATUS (Table 12.8). -/
def State.memCpl (port tag status : Nat) (data : Bytes) (s : State) : State := s.sendOn port (.memCpl port tag status data)

/-- READ: UNSUPPORTED outside the map, POISONED on a poisoned page, else the data (R287). -/
def execRead (t port : Nat) (pkt : Bytes) (s : State) : Host.Outcome State Fault Refusal :=
  done (s.transaction t port pkt fun dom s =>
    if Tx.op pkt ≠ 0 then s
    else if !Tx.formOk dom 4 0 pkt then (s.memError dom).memCpl port (Tx.tag pkt) 1 []
    else
      match s.decodeAddr dom pkt with
      | .none => (s.memError dom).memCpl port (Tx.tag pkt) 1 []
      | .window i off => let r := s.readReg i off; r.1.memCpl port (Tx.tag pkt) 0 (leBytes 4 r.2)
      | .region a =>
        if s.hostPoisoned a (Tx.length pkt) then s.memCpl port (Tx.tag pkt) 2 []
        else s.memCpl port (Tx.tag pkt) 0 (memRead s.mem a (Tx.length pkt)))

/-- WRITE: posted; applied, or dropped and counted (R286, R287). -/
def execWrite (t port : Nat) (pkt : Bytes) (s : State) : Host.Outcome State Fault Refusal :=
  done (s.transaction t port pkt fun dom s =>
    if Tx.op pkt ≠ 1 then s
    else if !Tx.formOk dom 4 (ceilDiv (Tx.length pkt) 64) pkt then s.memError dom
    else
      match s.decodeAddr dom pkt with
      | .none => s.memError dom
      | .window i off => s.writeReg i port off (leNat (Tx.data pkt))
      | .region a => { s with mem := memWrite s.mem a (slice (Tx.data pkt) 0 (Tx.length pkt)) })

/-! ### Bulk reads (R271, R289, R315) -/

/-- The command whose bulk read this is ends with E_TRANSFER; its other reads end with it (R289). -/
def State.failTransfer (b : BulkRead) (s : State) : State :=
  let s1 := { s with bulk := s.bulk.filter fun x => !(x.inst == b.inst && x.seq == b.seq) }
  match s.foreman.exec with
  | none => s1
  | some c => if c.inst = b.inst ∧ c.seq = b.seq then s1.complete c (Answer.fail E.transfer) else s1

/-- An orphaned bulk read is absorbed: its data are discarded and its context's orphan count falls (R270, R271). -/
def State.absorbBulk (b : BulkRead) (c : Nat) (s : State) : State :=
  (({ s with bulk := s.bulk.erase b }).modCtx c fun x => { x with orphans := x.orphans - 1 }).tryFree c

/-- The host's completion of a bulk read: payload data, or the end of the command; an orphan is absorbed, and one whose
read has ended is discarded. -/
def execCompletion (t port : Nat) (pkt : Bytes) (s : State) : Host.Outcome State Fault Refusal :=
  done (s.live t fun s =>
    if s.portActive port ∧ Tx.op pkt = 2 then
      let dom := s.portDomain port
      let s := s.active.modShaft port fun p => { p with lastBusy := s.count }
      let status := Tx.address pkt % 4
      if Tx.domain pkt ≠ dom then s.memError dom
      else
        match s.bulk.find? fun b => b.dom == dom && b.tag == Tx.tag pkt with
        | none => s
        | some b =>
          match b.orphan with
          | some c => s.absorbBulk b c
          | none =>
            if status ≠ 0 ∨ Tx.length pkt ≠ b.len then s.failTransfer b
            else
              let s1 := { s with
                bulk := s.bulk.erase b
                foreman := { s.foreman with exec := s.foreman.exec.map fun (c : ExecCmd) =>
                  if c.inst = b.inst ∧ c.seq = b.seq then { c with got := c.got ++ [(b.off, slice (Tx.data pkt) 0 b.len)] } else c } }
              s1.issueReads
    else s)

/-- A bulk read not completed 1.00 ms after issue (R289, R271). -/
def execBulkReadTimeout (t dom tag : Nat) (s : State) : Host.Outcome State Fault Refusal :=
  done (s.live t fun s =>
    match s.bulk.find? fun b => b.dom == dom && b.tag == tag && decide (b.issued + 100000 ≤ s.count) with
    | none => s
    | some b =>
      match b.orphan with
      | some c => s.absorbBulk b c
      | none => s.failTransfer b)

/-! ### Training, retrain, failure (R290 to R292) -/

/-- TRAINING begins; the domain of the map takes effect at a training from DOWN (R275). -/
def State.startTraining (port : Nat) (s : State) : State :=
  s.modShaft port fun p =>
    { p with link := .training, domain := (s.domains.ports.getD port (0, false)).1, trained := none, reported := false,
             event := true }

def execShaftTrainingStart (t port : Nat) (s : State) : Host.Outcome State Fault Refusal :=
  done (s.live t fun s =>
    if (s.shaft.getD port ShaftPort.init).link = .down ∧ (s.domains.ports.getD port (0, false)).2 ∧ port < 16 then s.startTraining port
    else s)

/-- A port of a domain that carries, or pauses, traffic. -/
def State.domainUp (s : State) (dom : Nat) : Bool :=
  s.shaft.any fun p => p.domain == dom && (p.link == .active || p.link == .retrain || p.trained.isSome)

/-- A link that cannot run goes DOWN and is reported (R291). CAL_PASS stays as the last training or retrain left it. -/
def State.shaftDown (port : Nat) (s : State) : State :=
  (s.modShaft port fun p => { p with link := .down, trained := none, event := true }).report Rep.portDown
    [port, s.portDomain port]

/-- A training or retrain that ends without a link: no lane met its margin (R291). -/
def State.shaftFailed (port : Nat) (s : State) : State := (s.modShaft port fun p => { p with calPass := false }).shaftDown port

/-- Giduster's advertisement at a domain's first training, and its credits at INIT values again at a training after the
last port of the domain has gone DOWN (R278, R292). -/
def State.initCredits (dom port : Nat) (s : State) : State :=
  let share := (List.range 5).map s.vcShare
  let c := s.credits.getD dom DomCredits.init
  if !c.initSent then
    (s.modCredits dom fun c => { c with initSent := true, granted := share }).sendOn port (.credit port true (share ++ [0, 0, 0]) false)
  else if !s.domainUp dom then
    s.modCredits dom fun c =>
      { c with granted := share, freed := [0, 0, 0, 0, 0], freedAt := [none, none, none, none, none], memBal := c.memAdv, relBal := c.relAdv,
               relLast := s.count, stalled := false }
  else s

def ShaftPort.outcome (o : LinkOutcome) (p : ShaftPort) : ShaftPort :=
  { p with x32 := o.degraded1, rate16 := o.degraded2, calPass := o.calPass, repair := false, retrainReq := false, saved := true }

def execShaftTrainingComplete (t port : Nat) (out : LinkOutcome) (s : State) : Host.Outcome State Fault Refusal :=
  done (s.live t fun s =>
    let p := s.shaft.getD port ShaftPort.init
    if p.link ≠ .training ∨ p.trained.isSome then s
    else if !out.up then s.shaftFailed port
    else
      let s1 := (s.initCredits p.domain port).modShaft port fun p => { (p.outcome out) with trained := some s.count, event := true }
      if (s1.credits.getD p.domain DomCredits.init).initRx then
        let s2 := s1.activatePorts p.domain
        s2.drainTx p.domain (drainFuel s2)
      else s1)

/-- The host has not advertised within 10.00 µs: the port stays in TRAINING and is reported (R278). -/
def execCreditInitTimeout (t port : Nat) (s : State) : Host.Outcome State Fault Refusal :=
  done (s.live t fun s =>
    let p := s.shaft.getD port ShaftPort.init
    match p.trained with
    | none => s
    | some u =>
      if p.link = .training ∧ !p.reported ∧ u + 1000 ≤ s.count then
        (s.modShaft port fun p => { p with reported := true }).report Rep.portDown [port, p.domain]
      else s)

/-- RETRAIN: traffic pauses; RETRAINS counts. -/
def execShaftRetrain (t port : Nat) (s : State) : Host.Outcome State Fault Refusal :=
  done (s.live t fun s =>
    if s.portActive port then
      s.modShaft port fun p => { p with link := .retrain, retrains := (p.retrains + 1) % 256, event := true }
    else s)

/-- The PHY of an ACTIVE port has a correction pending: REPAIR_PENDING is set, and a Shaft port asks for an idle retrain once it has carried
nothing but IDLE for 10.00 µs, never under traffic. Ports 16 to 18 are the Drift ports. That the PHY has one pending is the occasion's own
(R291; log 25). -/
def execIdleRetrainRequest (t port : Nat) (s : State) : Host.Outcome State Fault Refusal :=
  done (s.live t fun s =>
    if port < 16 then
      if (s.shaft.getD port ShaftPort.init).link = .active then
        s.modShaft port fun p => { p with repair := true, retrainReq := p.retrainReq || decide (p.lastBusy + 1000 ≤ s.count) }
      else s
    else if (s.drift.getD (port - 16) DriftPort.init).link = .active then
      { s with drift := lmod s.drift (port - 16) fun d => { d with repair := true } }
    else s)

def Out.portOf : Out → Option Nat
  | .releaseIn r => some r.port
  | .releaseOut r => some r.port
  | .draft d => some d.port
  | _ => none

/-- The stream of a release packet. -/
def Out.streamOf : Out → Option Nat
  | .releaseIn r => some r.stream
  | .releaseOut r => some r.stream
  | .draft d => some d.stream
  | _ => none

/-- A packet that a failure at count `cut` has cut. -/
def Out.markResent (cut : Nat) : Out → Out
  | .releaseIn r => .releaseIn { r with time := cut, resent := true }
  | .releaseOut r => .releaseOut { r with time := cut, resent := true }
  | .draft d => .draft { d with time := cut, resent := true }
  | .credit p i f _ => .credit p i f true
  | o => o

/-- A packet of a channel that a port carries to the host: a release packet on VC 6, a CREDIT on VC 7. -/
def Out.isOn (port vc : Nat) : Out → Bool
  | .credit p _ _ _ => vc == 7 && p == port
  | o => vc == 6 && o.portOf == some port

/-- The packet of a channel last handed to a port, the one that a failure may cut. -/
def State.lastOn (s : State) (port vc : Nat) : Option Out := s.out.reverse.find? (Out.isOn port vc)

/-- What a port's way down does to the traffic on it (R292): `partFlits` flits of a packet on `partVc` were received, or, on VC 6 and 7,
sent. What was partly sent goes first in the next quantum. -/
def State.cutTraffic (port partFlits partVc : Nat) (s : State) : State :=
  let dom := s.portDomain port
  if partFlits = 0 then s
  else if partVc < 5 then
    (if s.creditShort dom partVc partFlits then s.dropShort dom partVc else s.modCredits dom (DomCredits.use partVc partFlits s.count))
  else
    match s.lastOn port partVc with
    | none => s
    | some o =>
      let sid := o.streamOf
      let ctx := match sid.bind s.stream with | some x => x.e.ctx | none => 1024
      let s1 := { s with queuedTx := ⟨dom, port, ctx, sid, 0, 0, o.markResent s.count⟩ :: s.queuedTx }
      s1.drainTx dom (drainFuel s1)

/-- A retrain ends: ACTIVE again, or DOWN with what the failure cuts (R290, R291, R292). -/
def execShaftRetrainComplete (t port : Nat) (out : RetrainEnd) (s : State) : Host.Outcome State Fault Refusal :=
  done (s.live t fun s =>
    let p := s.shaft.getD port ShaftPort.init
    if p.link ≠ .retrain then s
    else if out.link.up then
      let s1 := s.modShaft port fun p => { (p.outcome out.link) with link := .active, event := true, lastBusy := s.count }
      s1.drainTx p.domain (drainFuel s1)
    else (s.shaftFailed port).cutTraffic port out.part.flits out.part.vc)

/-- DOWN on a link failure (R292). -/
def execShaftLinkFailure (t port partFlits partVc : Nat) (s : State) : Host.Outcome State Fault Refusal :=
  done (s.live t fun s =>
    let p := s.shaft.getD port ShaftPort.init
    if p.link = .active ∨ p.link = .retrain ∨ p.link = .training then (s.shaftDown port).cutTraffic port partFlits partVc
    else s)

/-! ### DOMAIN_MAP_SET and PORT_HOLD (R275, R385, Table 17.2) -/

def mapOf (p : Bytes) : DomainMap :=
  ⟨(List.range 16).map fun k => (field p k 1 % 4, bit (field p k 1) 7),
   (List.range 4).map fun d => (field p (16 + 12 * d) 4, field p (20 + 12 * d) 4, field p (24 + 12 * d) 1 % 4)⟩

def mapForm (p : Bytes) : Bool :=
  p.length == 64 && (List.range 16).all (fun k => bits (field p k 1) 6 2 == 0) &&
    (List.range 4).all fun d => bits (field p (24 + 12 * d) 1) 7 2 == 0 && zeroRange p (25 + 12 * d) 3

def DomainMap.count (m : DomainMap) : Nat := ((List.range 4).filter fun d => m.ports.contains (d, true)).length

/-- Region parts of two domains overlap, or a part lies outside the region. -/
def DomainMap.regionsBad (m : DomainMap) (pages : Nat) : Bool :=
  let r := m.regions
  (r.any fun a => decide (pages < a.1 + a.2.1) && a.2.1 != 0) ||
    (List.range 4).any fun i => (List.range i).any fun j =>
      let a := r.getD i (0, 0, 0)
      let b := r.getD j (0, 0, 0)
      decide (a.1 < b.1 + b.2.1) && decide (b.1 < a.1 + a.2.1) && a.2.1 != 0 && b.2.1 != 0

/-- A map that R275 refuses. -/
def State.mapRefused (s : State) (m : DomainMap) : Bool :=
  ((List.range 16).any fun k =>
      (m.ports.getD k (0, false)).1 != (s.domains.ports.getD k (0, false)).1 && (s.shaft.getD k ShaftPort.init).link != .heldDown) ||
    m.regionsBad (hostPages s.layout) ||
    (s.ctxs.any fun c => c.2.state != .free && c.1 != 0 && !m.ports.contains (c.2.domain, true)) ||
    (m.count != s.domainCount && !s.noContexts)

def execDomainMapSet (t : Nat) (msg : Bytes) (s : State) : Host.Outcome State Fault Refusal :=
  done (s.managed t fun s =>
    s.request 0x10 msg mapForm (fun p s =>
      let m := mapOf p
      if s.mapRefused m then (s.respond 0x10 E.state (Msg.mseq msg) []).report Rep.refused ((p.take 48).map BitVec.toNat)
      else ({ s with domains := m }).respond 0x10 0 (Msg.mseq msg) []))

/-- A held port goes DOWN as R292 states and stays in HELD_DOWN; a released one may train. -/
def State.holdShaft (port : Nat) (hold : Bool) (partFlits partVc : Nat) (s : State) : State :=
  if hold then (s.modShaft port fun p => { p with link := .heldDown, trained := none, event := true }).cutTraffic port partFlits partVc
  else if (s.shaft.getD port ShaftPort.init).link ≠ .heldDown then s
  else if (s.domains.ports.getD port (0, false)).2 then s.startTraining port
  else s.modShaft port fun p => { p with link := .down, event := true }

end Sys2Proof.Machine
end

