-- ==== Sys2Proof/Machine/Admit.lean ====
section
/-! DEFINITION. Admission through a Shaft port or a control port (R23, R28, R30 to R34, R36, R46, R283). -/

namespace Sys2Proof.Machine

/-! ### What admission asks of the device (R32, R33) -/

/-- The largest pool that one full chain of a prompt guard in force takes: E_p of R32; 0 without a prompt guard. -/
def State.promptEngines (s : State) (c : Nat) : Nat :=
  maxOf (((bodyModels ((s.ctx c).bodyOf 2)).filter fun m => !m.token && m.role == 0).map fun m =>
    ceilDiv (min 4 m.maxChain * m.sliceCost) 500)

/-- wake(ctx) in 10 ns units (R32). -/
def State.wake (s : State) (c : Nat) : Nat :=
  let e := s.promptEngines c
  if e = 0 then 0
  else if ceilDiv e 8 ≤ (s.ctx c).resv.warmRows then 5
  else if s.rows.all fun r => r.power != .off then 300
  else 1500

/-- ctx.bound_c (R32, R186). -/
def State.boundC (s : State) (c : Nat) : Nat :=
  let x := s.ctx c
  let is := ((List.range 6).filterMap x.inForce)
  let b := maxOf (is.map (·.boundC))
  if b = 0 then 0 else b + (if setting x.settings Setting.undecidedIn = 1 then resolveBound 0 is else 0)

/-- The state with the engines of hangs being handled counted as failed (R353). -/
def State.withHangs (s : State) : State :=
  { s with failed := s.failed ++ (s.hangs.flatMap fun h => h.2.engines.filter fun e => !s.failed.contains e) }

/-- Kinds of unit whose failures leave less than the reservations: Hearth, Damper, fingerprint, Assay, Flue, Grate. -/
def State.shortKinds (s0 : State) : List Nat :=
  let s := s0.withHangs
  let hs := s.holds
  let outGrates := (s.working 32 .grate |>.filter fun k => decide (4 ≤ k)).length
  let lanes := (s.reserving.map fun p =>
    p.2.resv.gateRate * maxOf ((holdsOf hs p.1 0).map fun b => laneCost s.lmax (bodySets (some b)))).sum
  (if decide (s.resvSum (·.hearthShare) ≤ s.hearthTotal) then [] else [0]) ++
    (if decide (s.resvSum (·.gateRate) ≤ s.gateTotal) then [] else [1]) ++ (if s.lookupOk hs then [] else [2]) ++
    (if s.assayOk hs then [] else [3]) ++ (if s.flueOk hs then [] else [4]) ++
    (if decide (lanes ≤ outGrates * 64 * 1400000000) then [] else [5])

/-- The unit kinds that a context uses. -/
def State.usesKind (s : State) (c k : Nat) : Bool :=
  let hs := s.holds
  match k with
  | 0 => (s.ctx c).resv.hearthShare != 0 || (holdModels hs).any fun p => p.1 == c && !p.2.flue
  | 1 => (s.ctx c).resv.gateRate != 0
  | 2 => (holdsOf hs c 1).any fun b => !(bodyFp (some b)).entries.isEmpty
  | 3 => !(holdsOf hs c 4).isEmpty
  | 4 => (holdModels hs).any fun p => p.1 == c && p.2.flue
  | _ => !(holdsOf hs c 0).isEmpty

/-- degraded_short(ctx) (R33). A unit must have failed, or be in a hang, for it to hold. -/
def State.degradedShort (s : State) (c : Nat) : Bool :=
  !s.withHangs.failed.isEmpty && s.shortKinds.any (s.usesKind c)

/-- Some context is short of a kind of unit (R33). -/
def State.anyShort (s : State) : Bool := s.reserving.any fun p => s.degradedShort p.1

/-- Kinds of `shortKinds` in the numbers of UNIT_FAILED: Hearth 0, Flue 1, Grate 2, Assay 3, fingerprint unit 4, Damper 5. -/
def kindNumber (k : Nat) : Nat := [0, 5, 4, 3, 1, 2].getD k 0

/-- DEGRADED is reported when R33 comes to hold for some context (Table 15.8). -/
def State.reportShort (was : Bool) (s : State) : State :=
  if s.anyShort && !was then s.report Rep.degraded (s.shortKinds.map kindNumber) else s

/-! ### The request and its checks -/

/-- An admission request from either path. -/
structure AdmitReq where
  ctx : Nat
  prio : Nat
  vocab : Nat
  mode : Nat
  follow : Bool
  draftEn : Bool
  deadline : Nat
  handle : Nat
  maxLength : Nat
  bad : Bool
  domain : Nat
  source : Nat
  inst : Option Inst
  deriving DecidableEq, Repr

/-- Fields of an ADMIT packet (Table 12.6); in a slot the same fields stand in another order (Table 14.6). -/
def AdmitReq.ofFlags (c prio vocab flags deadline handle maxLen : Nat) (bad : Bool) (dom src : Nat) (i : Option Inst) : AdmitReq :=
  ⟨c % 1024, prio, vocab, flags % 4, bit flags 2, bit flags 3, deadline, handle, maxLen,
    bad || decide (1024 ≤ c) || decide (7 < prio) || decide (7 < vocab) || bits flags 7 4 != 0, dom, src, i⟩

def AdmitReq.ofPacket (dom port : Nat) (p : Bytes) : AdmitReq :=
  .ofFlags (field p 0x10 2) (field p 0x12 1) (field p 0x13 1) (field p 0x14 1) (field p 0x18 8) (field p 0x20 8) (field p 0x28 4)
    (!zeroRange p 0x15 1 || !zeroRange p 0x2C 20 || Hdr.flits p != 1 || p.length != 64) dom port none

def AdmitReq.ofSlot (i : Inst) (b : Bytes) : AdmitReq :=
  .ofFlags (field b 0x18 2) (field b 0x1A 1) (field b 0x1B 1) (field b 0x1C 1) (field b 0x20 8) (field b 0x28 8) (field b 0x30 4)
    false i.domain (16 + portBit i.port) (some i)

/-- A duration is 0 or 1 µs to about 32.6 days (R36). -/
def deadlineOk (d : Nat) : Bool := d == 0 || (decide (100 ≤ d) && decide (d ≤ 0xFFFFFFFFFFFF))

def maxLengthOk (m : Nat) : Bool := decide (1 ≤ m) && decide (m ≤ 1048576)

/-- The lowest FREE entry that is not out of use (R34, R256). -/
def State.freeEntry (s : State) : Option Nat :=
  (List.range Config.streams).find? fun k => (tget s.streams k).isNone && !s.outOfUse.contains k

/-- The lowest hot slot that no stream holds (R34). -/
def State.freeHot (s : State) : Option Nat :=
  (List.range Config.hotSlots).find? fun k => !(s.streams.any fun p => p.2.e.hotSlot == some k)

/-- A stream takes the lowest free hot slot, and a home Flue with it (R34, R141). -/
def State.takeHot (sid : Nat) (s : State) : State :=
  s.modStream sid fun x => { x with e := { x.e with hotSlot := s.freeHot }, home := s.chooseHome x.e.ctx }

/-- The checks of R31 from E_DEGRADED onwards. -/
def State.admitTail (s : State) (c : Nat) : Nat :=
  let x := s.ctx c
  let pinned := setting x.settings Setting.hotPolicy == 0
  firstFail
    [(s.degradedShort c, E.degraded), (s.freeEntry.isNone, E.capacity),
     (decide (min x.resv.gateRate x.resv.flueRate < (s.liveStreams c + 1) * x.resv.streamRate), E.capacity),
     (pinned && decide (x.resv.hotSlots ≤ s.hotUsed c), E.capacity), (!pinned && x.resv.hotSlots == 0, E.capacity),
     (decide (setting x.settings Setting.dC < s.boundC c + s.wake c), E.capacity)]

/-- R31, with R283's additions. -/
def State.admitCheck (s : State) (r : AdmitReq) : Nat :=
  let x := s.ctx r.ctx
  let head := firstFail
    [(r.ctx == 0 || x.state != .opened || x.domain != r.domain, E.context), (r.bad || (r.mode == 0 && r.handle != 0), E.field),
     ((tget s.vocabs r.vocab).isNone || !deadlineOk r.deadline || !maxLengthOk r.maxLength, E.range),
     (r.mode == 2 && setting x.settings Setting.prefixModes == 0, E.field)]
  if head = 0 then s.admitTail r.ctx else head

/-! ### The new stream (R34, Table 2.3) -/

/-- HANDLE_STATUS values of Table 3.6. -/
def hsNone : Nat := 0
def hsOk : Nat := 1
def hsBad : Nat := 2

/-- The snapshot that a stream of these pins may use (R46). -/
def State.usable (s : State) (c handle vocab : Nat) (pins : List Nat) (apins : List (Nat × Nat)) : Option Snapshot :=
  match s.snapshot c handle with
  | none => none
  | some n => if n.vocab = vocab ∧ n.imagePins = pins ∧ n.adapterPins = apins then some n else none

/-- An entry as the arbiter writes it at admission. -/
def Entry.admitted (r : AdmitReq) (now : Nat) (pins : List Nat) (apins : List (Nat × Nat)) (hot : Option Nat) (refused restoring : Bool) :
    Entry :=
  { state := .admitted, resume := .free, priority := r.prio, ctx := r.ctx, vocab := r.vocab, follow := r.follow, draftEn := r.draftEn,
    source := r.source, domain := r.domain, prefixMode := r.mode, admitStamp := now, deadline := r.deadline, handle := r.handle,
    maxLength := r.maxLength, late := false, host := false, replay := false, lengthPtr := 0, commitPtr := 0, rewindMark := 0,
    ckptPos := 0, lastStamp := 0, imagePins := pins, adapterPins := apins, hotSlot := hot, holdback := 0, lateSeen := false,
    handleRefused := refused, ckptValid := false, restoring := restoring, closeReason := 0, verdict := 0, verdictLate := false }

def Stream.fresh (e : Entry) (i : Inst) (now key k : Nat) (rest : Option Snapshot) : Stream :=
  { e := e, admInst := i, intakePos := 0, verifyCount := 0, nextSeq := 0, prefixDone := false, prefixToks := [], prefixPass := true,
    reachedGen := false, scrPins := e.imagePins, screen := { Screen.empty with draftLen := k }, rel := { Screen.empty with draftLen := k }, inHits := [], trail := [], gramStarts := [], heldIn := 0, eligible := now, genKey := key, genIdx := 0,
    extendPending := none, extendPos := 0, outPort := none, heldOut := [], runEnd := none, reqRun := none, reqPend := none,
    closeEval := none, ended := false, log := [], logCount := 0, index := [], proposal := none, roundsSinceZero := 0, slotA := none,
    slotB := none, validB := false, writing := none, capPending := false, trigPos := 0, record := [], replCount := 0, replPend := [],
    snapStatus := 0xFF, saving := none, restore := rest, taps := [], probeWait := [], probeNext := 0, fault := 0, poisoned := [], base := ⟨0, { Screen.empty with draftLen := k }⟩, badRestore := false, lastActive := now,
    closedAt := 0, admPins := (e.imagePins, e.adapterPins), featurePath := [], home := none }

/-- Admit a stream that has passed R31: its id, its handle status and the state. -/
def State.admitStream (r : AdmitReq) (s : State) : State × Nat × Nat :=
  match s.freeEntry with
  | none => (s, 0, hsNone)
  | some sid =>
    let x := s.ctx r.ctx
    let pins := x.pinsNow
    let apins := s.adapterPinsNow r.ctx pins
    let snap := if r.mode = 2 then s.usable r.ctx r.handle r.vocab pins apins else none
    let refused := r.mode == 2 && snap.isNone
    let hot := if setting x.settings Setting.hotPolicy = 0 then s.freeHot else none
    let e := Entry.admitted r s.count pins apins hot refused snap.isSome
    let st := { Stream.fresh e (r.inst.getD x.evInst) s.count (Config.freshKey s.freshCtr) (setting x.settings Setting.draftKMax) snap with
      home := if hot.isSome then s.chooseHome r.ctx else none }
    let s1 := { s.fresh with streams := tset s.streams sid st }
    let s2 := match snap with
      | none => s1
      | some k => (s1.reading (snapKey k) (· + 1)).newXfer .snapRestore r.ctx (some sid)
    (s2, sid, if r.mode = 0 then hsNone else if refused then hsBad else hsOk)

/-- The RELEASE_IN that answers a Shaft admission (R23, Table 3.6). -/
def admissionAnswer (port now sid status hs tag : Nat) : Out :=
  .releaseIn ⟨port, now, sid, status, 4, 0, false, hs, tag, 0, 0, 0, 0, 0, 0, 0, 0, now, false⟩

def execAdmit (t port : Nat) (pkt : Bytes) (s : State) : Host.Outcome State Fault Refusal :=
  done (s.packet t 1 port pkt fun dom s =>
    let r := AdmitReq.ofPacket dom port pkt
    let e := s.admitCheck r
    let tag := field pkt 0x16 2
    if e = 0 then
      let a := s.admitStream r
      a.1.handOff ⟨dom, port, r.ctx, some a.2.1, 0, 0, admissionAnswer port s.count a.2.1 0 a.2.2 tag⟩
    else s.handOff ⟨dom, port, 0, none, 0, 0, admissionAnswer port s.count 0 e hsNone tag⟩)

/-! ### Commands of an opcode -/

/-- Operand of a slot. -/
def ExecCmd.arg (c : ExecCmd) (off n : Nat) : Nat := field c.slot off n

/-- The row of an opcode whose checks and effect run in one step (R313, R314, R324). -/
def State.opcode (t op : Nat) (i : Inst) (s : State) (e : ExecCmd → State → Nat) (ok : ExecCmd → State → State × Bytes × Option Bytes)
    (lamp changes : Bool) : Host.Outcome State Fault Refusal :=
  done (s.live t fun s => s.command op i fun c s => s.finish c (e c s) (ok c) lamp changes)

def execStreamAdmit (t : Nat) (inst : Inst) (s : State) : Host.Outcome State Fault Refusal :=
  s.opcode t 0x0200 inst (fun c s => s.admitCheck (.ofSlot inst c.slot)) (fun c s =>
    let a := s.admitStream (.ofSlot inst c.slot)
    (a.1, leBytes 2 a.2.1 ++ leBytes 6 a.2.2 ++ leBytes 8 s.count, none)) false true

end Sys2Proof.Machine
end

