-- ==== Sys2Proof/Machine/Grate.lean ====
section
/-! DEFINITION. Stepping the pattern sets over symbols: match events, partial matches, counting windows (R72 to R85). -/

namespace Sys2Proof.Machine

/-! ### Symbols (R73) -/

inductive Sym where
  | byte (b : Nat) | mark | fin
  deriving DecidableEq, Repr

def symClass (p : PatternSet) : Sym → Nat
  | .byte b => p.classMap.getD b 0
  | .mark => p.classCount
  | .fin => p.classCount + 1

/-- The symbols of a token: MARK for a SPECIAL one, its bytes otherwise. -/
def tokenSyms (v : Vocab) (id : Nat) : List Sym :=
  if vocabSpecial v id then [.mark] else (vocabToken v id).map fun b => .byte b.toNat

/-- The state of a set on one side; START when it has never been stepped (R74). -/
def stateAt (t : Tbl Nat) (set : Nat) : Nat := (tget t set).getD 1

/-! ### Match events (R75 to R78) -/

/-- A match event (Table 4.3, less stream, side, action and stamp); `order` is its place in the state's match list. -/
structure Event where
  set : Nat
  pattern : Nat
  startTok : Nat
  endTok : Nat
  startByte : Nat
  endByte : Nat
  marker : Bool
  order : Nat
  deriving DecidableEq, Repr

/-- The events of a set that go to the feature path: those of a FLAG, BLOCK or STOP set or of a set with a counting-window rule
(R78). -/
def patRecords (p : PatternSet) : Bool := p.action != 0 || p.winLength != 0

/-- The record of an event (Table 4.3): a stream's event, on a side, of a set's action, under the stamp of its item. -/
def Event.record (stream : Nat) (p : PatternSet) (output : Bool) (stamp : Nat) (e : Event) : EventRec :=
  ⟨stream, e.set, output, e.marker, p.action, e.pattern, e.startTok, e.endTok, e.startByte, e.endByte, stamp⟩

/-- The 32 bytes of a record (Table 4.3). -/
def EventRec.bytes (r : EventRec) : Bytes :=
  leBytes 2 r.stream ++ leBytes 1 (r.set + 64 * b2n r.output + 128 * b2n r.marker) ++ leBytes 1 r.action ++ leBytes 4 r.pattern ++
    leBytes 4 r.startTok ++ leBytes 4 r.endTok ++ leBytes 4 r.startByte ++ leBytes 4 r.endByte ++ leBytes 8 r.stamp

/-- Match events enter their stream's feature path (R78). -/
def State.recordEvents (sid : Nat) (p : PatternSet) (output : Bool) (stamp : Nat) (evs : List Event) (s : State) : State :=
  if patRecords p ∧ evs ≠ [] then
    s.modStream sid fun x => { x with featurePath := x.featurePath ++ evs.map (Event.record sid p output stamp) }
  else s

/-- The records of an answered item or run end leave the feature path. -/
def Stream.forget (output : Bool) (stamp : Nat) (x : Stream) : Stream :=
  { x with featurePath := x.featurePath.filter fun r => !(r.output == output && r.stamp == stamp) }

/-- A set on its way along a side's symbols: state, byte count, the first byte and position of recent tokens, newest
first, and the events so far. -/
structure Walk where
  state : Nat
  byte : Nat
  map : List (Nat × Nat)
  events : List Event
  deriving DecidableEq, Repr

/-- Tokens further back than any lookbehind start no match. -/
def mapDepth : Nat := 8192

/-- The position of the token that contains a byte. -/
def tokenAt (map : List (Nat × Nat)) (b : Nat) : Nat :=
  match map.find? fun e => decide (e.1 ≤ b) with
  | some e => e.2
  | none => 0

/-- The events of entering a state, in match-list order; a continuation entry gives none (R75). A completion on MARK or END that no
byte stands before has end byte 0: DESIGN CHOICE, R75 gives none (log 104). -/
def entryEvents (p : PatternSet) (st : PatState) (byte pos : Nat) (map : List (Nat × Nat)) (marker : Bool) : List Event :=
  (((setEntries p st).zip (List.range st.matchCount)).filter fun e => !e.1.cont).map fun e =>
    let d := e.1.depth
    let s := byte - d
    ⟨p.index, e.1.pattern, if d = 0 then pos else tokenAt map s, if d = 0 then pos else tokenAt map (byte - 1), s, byte - 1, marker, e.2⟩

/-- One symbol of the token at a position. -/
def stepSym (p : PatternSet) (pos : Nat) (w : Walk) (y : Sym) : Walk :=
  let n := patNext (setState p w.state) (symClass p y)
  match y with
  | .byte _ =>
    let map := match w.map with
      | (b, q) :: r => if q = pos then (b, q) :: r else (w.byte, pos) :: (b, q) :: r
      | [] => [(w.byte, pos)]
    { state := n, byte := w.byte + 1, map := map, events := w.events ++ entryEvents p (setState p n) (w.byte + 1) pos map false }
  | _ => { w with state := n, events := w.events ++ entryEvents p (setState p n) w.byte pos w.map true }

/-- Every symbol of a run of tokens (position, id). -/
def stepTokens (p : PatternSet) (v : Vocab) (w : Walk) (toks : List (Nat × Nat)) : Walk :=
  toks.foldl (fun w t => (tokenSyms v t.2).foldl (stepSym p t.1) w) w

/-- END: presented once; the state then returns to START (R73, R74). -/
def stepEnd (p : PatternSet) (pos : Nat) (w : Walk) : Walk := { stepSym p pos w .fin with state := 1 }

/-- The byte count and token map after a run of tokens, which are the same for every set. -/
def walkMap (v : Vocab) (byte : Nat) (map : List (Nat × Nat)) (toks : List (Nat × Nat)) : Nat × List (Nat × Nat) :=
  let r := toks.foldl (fun (a : Nat × List (Nat × Nat)) t =>
    let n := if vocabSpecial v t.2 then 0 else (vocabToken v t.2).length
    (a.1 + n, if n = 0 then a.2 else (a.1, t.1) :: a.2)) (byte, map)
  (r.1, r.2.take mapDepth)

/-- Bytes that a token presents. -/
def tokenLen (v : Vocab) (id : Nat) : Nat := if vocabSpecial v id then 0 else (vocabToken v id).length

/-- The position where the earliest live partial match of a state began, if any (R65, R76, R85). -/
def partialFrom (p : PatternSet) (w : Walk) : Option Nat :=
  let d := (setState p w.state).partialDepth
  if d = 0 then none else some (tokenAt w.map (w.byte - d))

/-- The order of R77 as a list of keys. -/
def Event.key (e : Event) : List Nat := [e.endByte, b2n e.marker, e.set, e.order]

def Event.rule (e : Event) : Nat := 4194304 * e.set + e.pattern

/-- The event as a reason for BLOCK (R183). -/
def Event.contrib (e : Event) : Contrib := ⟨e.endTok, 0, e.key, e.rule, e.startTok⟩

/-- The reason reported: by end token, Grate before fingerprint, then the source's own order (R183). -/
def firstContrib (cs : List Contrib) : Option Contrib :=
  (sortBy (fun (a b : Contrib) => keyLe (a.endTok :: a.src :: a.key) (b.endTok :: b.src :: b.key)) cs).head?

/-! ### Counting windows (R79, R80) -/

/-- Count `evs` events, in order, in the window of a stamp; the event that brings the count to T fires the rule. -/
def countWindow (p : PatternSet) (origin stamp : Nat) (w : Option WinCount) (evs : List Event) : WinCount × Option Event :=
  let i := (stamp - origin) / p.winLength
  let w0 : WinCount := match w with
    | some w => if w.idx = i then w else ⟨i, 0, false⟩
    | none => ⟨i, 0, false⟩
  evs.foldl (fun (a : WinCount × Option Event) e =>
    let c := a.1.count + 1
    if c = p.winThreshold ∧ !a.1.fired then (⟨i, c, true⟩, some e) else (⟨i, c, a.1.fired⟩, a.2)) (w0, none)

/-- What a set's events do to an item (Table 4.2, R80): the window after them, the reasons for BLOCK, whether FLAG or a
window ABORT follows, the index and count of a REPORT, and the events that CONTEXT scope counts. -/
structure SetEffect where
  window : Option WinCount
  blocks : List Contrib
  flag : Bool
  abort : Bool
  report : Option WinCount
  ctxCount : Nat
  deriving DecidableEq, Repr

def setEffect (p : PatternSet) (origin stamp : Nat) (w : Option WinCount) (evs : List Event) : SetEffect :=
  let block := if p.action = 2 then evs.map Event.contrib else []
  let flag := p.action == 1 && !evs.isEmpty
  if p.winLength = 0 then ⟨none, block, flag, false, none, 0⟩
  else if p.winContext then ⟨none, block, flag, false, none, evs.length⟩
  else
    let r := countWindow p origin stamp w evs
    match r.2 with
    | none => ⟨some r.1, block, flag, false, none, 0⟩
    | some e =>
      match p.winAction with
      | 0 => ⟨some r.1, block, flag, false, some ⟨r.1.idx, p.winThreshold, true⟩, 0⟩
      | 1 => ⟨some r.1, block, true, false, none, 0⟩
      | _ => ⟨some r.1, block ++ [e.contrib], flag, true, none, 0⟩

/-- The key of a CONTEXT-scope window: the set's index and its rule, which a version move carries on (R80, R93), and the window's
number. -/
def windowKey (p : PatternSet) (i : Nat) : Nat :=
  p.index + 64 * (p.winLength + 2 ^ 32 * (p.winThreshold + 2 ^ 16 * i))

/-- The count of a set's window at a stamp (Table 8.3, WINDOW_COUNT). -/
def Stream.windowCount (x : Stream) (c : Ctx) (stamp : Nat) (p : PatternSet) : Nat :=
  if p.winLength = 0 then 0
  else if p.winContext then match tget c.windows (windowKey p (stamp / p.winLength)) with | some w => w.count | none => 0
  else match tget x.screen.windows p.index with
    | some w => if w.idx = (stamp - x.e.admitStamp) / p.winLength then w.count else 0
    | none => 0

/-- A WINDOW event (Table 13.9): scope 0 STREAM, 1 CONTEXT. -/
def State.windowEvent (c stream set scope stamp : Nat) (w : WinCount) (s : State) : State :=
  s.event (s.ctx c).evInst Ev.window c stream stamp (leBytes 1 set ++ leBytes 1 scope ++ leBytes 2 0 ++ leBytes 4 w.idx ++ leBytes 4 w.count)

/-- CONTEXT-scope events are counted when their item is released or withheld; a window that no unanswered item of the
context can reach is forgotten (R80). -/
def State.countContext (c stamp : Nat) (p : PatternSet) (n : Nat) (s : State) : State :=
  let i := stamp / p.winLength
  let old := (tget (s.ctx c).windows (windowKey p i)).getD ⟨i, 0, false⟩
  let w : WinCount := ⟨i, old.count + n, old.fired || decide (p.winThreshold ≤ old.count + n)⟩
  let oldest := (s.items.filter fun q => q.2.owned && q.2.entry.ctx == c).foldl (fun b q => min b q.2.stamp) stamp
  let keep := fun (q : Nat × WinCount) => q.1 % (64 * 2 ^ 48) != windowKey p 0 || decide (oldest / p.winLength ≤ q.2.idx)
  let s1 := s.modCtx c fun x => { x with windows := tset (x.windows.filter keep) (windowKey p i) w }
  if w.fired ∧ !old.fired then s1.windowEvent c 0xFFFF p.index 1 stamp ⟨i, p.winThreshold, true⟩ else s1

def State.countContexts (c stamp : Nat) (pins : List Nat) (counts : List (Nat × Nat)) (s : State) : State :=
  counts.foldl (fun (s : State) k =>
    match ((s.ctx c).patternSets pins).find? fun p => p.index == k.1 with
    | some p => if p.winLength = 0 then s else s.countContext c stamp p k.2
    | none => s) s

/-- Increase a count kept by key. -/
def bump (l : List (Nat × Nat)) (k n : Nat) : List (Nat × Nat) :=
  match l.find? fun e => e.1 == k with
  | none => l ++ [(k, n)]
  | some _ => l.map fun e => if e.1 = k then (k, e.2 + n) else e

def countAt (l : List (Nat × Nat)) (k : Nat) : Nat := match l.find? fun e => e.1 == k with | some e => e.2 | none => 0

end Sys2Proof.Machine
end

