-- ==== Sys2Proof/Machine/Store.lean ====
section
/-! DEFINITION. The fingerprint store's buckets: lookups, inserts and deletes, sweep and abort (R100 to R107). -/

namespace Sys2Proof.Machine

/-! ### Buckets (R100 to R102) -/

def fpTag (f : Nat) : Nat := let t := f % 2 ^ 26; if t = 0 then 1 else t
def fpFirst (nb f : Nat) : Nat := f / 2 ^ 32 % 2 ^ 32 * nb / 2 ^ 32
/-- The other bucket of a tag. -/
def fpOther (nb tag b : Nat) : Nat := (tag * 0x5BD1E995 % nb + nb - b) % nb

/-- NB of a layout: the fingerprint region's size over 64; the default region is 64 GB exactly (R100, Table 11.1). -/
def bucketsOf (pages : Nat) : Nat := if pages = 976563 then 1000000000 else pages * 1024

def Store.bucket (st : Store) (b : Nat) : List FpSlot := (tget st.buckets b).getD (List.replicate 15 ⟨0, 0, 0⟩)

/-- A bucket in a lost page (R111). -/
def Store.isLost (st : Store) (b : Nat) : Bool := st.lost.contains (b / 1024)

/-- Write a bucket; one with no entry is not listed. -/
def Store.setBucket (b : Nat) (l : List FpSlot) (st : Store) : Store :=
  { st with
    buckets := if l.all fun x => x.st == 0 then tdel st.buckets b else tset st.buckets b l
    touched := if st.touched.contains b then st.touched else st.touched ++ [b] }

/-- Visibility of a slot state (Table 5.4). -/
def slotVisible (new : Bool) (st : Nat) : Bool := st == 1 || (if new then st == 2 else st == 3)

/-- An item of a stamp sees the new view from the commit on (R106). -/
def Store.newView (st : Store) (stamp : Nat) : Bool := st.epoch == .sweeping && decide (st.effect ≤ stamp)

/-- Results of a lookup. -/
def fpMiss : Nat := 0
def fpHit : Nat := 1
def fpLost : Nat := 2

/-- A lookup reads both buckets (R102). -/
def Store.lookup (st : Store) (new : Bool) (set f : Nat) (err1 err2 : Bool) : Nat :=
  let tag := fpTag f
  let b1 := fpFirst st.nb f
  let b2 := fpOther st.nb tag b1
  let good := fun (b : Nat) (err : Bool) => !err && !st.isLost b
  let found := fun (b : Nat) => (st.bucket b).any fun x => x.tag == tag && x.set == set && slotVisible new x.st
  if (good b1 err1 && found b1) || (good b2 err2 && found b2) then fpHit
  else if good b1 err1 && good b2 err2 then fpMiss else fpLost

/-- A result as a hit of a selection entry (R107, R109). -/
def countsHit (e : FpEntry) (r : Nat) : Bool := r == fpHit || (r == fpLost && e.lossAsHit)

/-- LAST_HIT after a result: a hit sets it, a miss clears it, a loss that is no hit leaves it (R107). -/
def lastHitAfter (e : FpEntry) (old : Bool) (r : Nat) : Bool := if countsHit e r then true else if r = fpMiss then false else old

/-! ### Inserts and deletes (R103 to R105) -/

/-- Outcomes of a record. -/
inductive FpOutcome where
  | applied | duplicate | absent | full
  deriving DecidableEq, Repr

/-- Entries visible in a view. -/
def Store.visible (st : Store) (new : Bool) : Nat :=
  (st.buckets.map fun p => (p.2.filter fun x => slotVisible new x.st).length).sum

def slotIndex (l : List FpSlot) (p : FpSlot → Bool) : Option Nat := (List.range l.length).find? fun k => p (l.getD k ⟨0, 0, 0⟩)

/-- Place an entry in a bucket, in its lowest-numbered EMPTY slot (DESIGN CHOICE: R104 says "an EMPTY slot", log 105), or by moving
ADDED entries on along a path of at most `fuel` steps; which one each step moves is the device's choice (R104, log 4). A lost bucket
is no part of a path: the page that ends one is the answer then. -/
def Store.place (choice : Nat) : Nat → Nat → FpSlot → Store → Except (Option Nat) Store
  | fuel, b, x, st =>
    if st.isLost b then .error (some (b / 1024))
    else
      let l := st.bucket b
      match slotIndex l fun y => y.st == 0 with
      | some k => .ok (st.setBucket b (l.set k x))
      | none =>
        match fuel with
        | 0 => .error none
        | fuel + 1 =>
          let movable := (List.range l.length).filter fun k => (l.getD k ⟨0, 0, 0⟩).st == 2
          match movable[Config.cuckooVictim choice fuel % max 1 movable.length]? with
          | none => .error none
          | some k =>
            let v := l.getD k ⟨0, 0, 0⟩
            Store.place choice fuel (fpOther st.nb v.tag b) v (st.setBucket b (l.set k x))

/-- Insert a fingerprint in the open epoch; the page that ended a path, if one did. -/
def Store.insert (choice set f : Nat) (st : Store) : Store × FpOutcome × Option Nat :=
  let tag := fpTag f
  let b1 := fpFirst st.nb f
  let b2 := fpOther st.nb tag b1
  let empty := fun (b : Nat) => !st.isLost b && (st.bucket b).any fun y => y.st == 0
  if st.lookup true set f false false = fpHit then (st, .duplicate, none)
  else if 12 * st.nb < st.visible true + 1 then (st, .full, none)
  else
    let second := Config.cuckooStart choice
    let start := if empty b1 != empty b2 then (if empty b1 then b1 else b2)
      else if st.isLost b1 then b2 else if st.isLost b2 then b1 else if second then b2 else b1
    match Store.place choice 500 start ⟨tag, set, 2⟩ st with
    | .ok st' => (st', .applied, none)
    | .error p => (st, .full, p)

/-- Delete: a matching ADDED slot becomes EMPTY, else a matching LIVE slot REMOVED; i1 before i2, slots ascending. -/
def Store.delete (set f : Nat) (st : Store) : Store × FpOutcome :=
  let tag := fpTag f
  let b1 := fpFirst st.nb f
  let b2 := fpOther st.nb tag b1
  let slotIn := fun (want : Nat) (b : Nat) =>
    if st.isLost b then none else (slotIndex (st.bucket b) fun y => y.st == want && y.tag == tag && y.set == set).map fun k => (b, k)
  match (slotIn 2 b1).orElse fun _ => slotIn 2 b2 with
  | some (b, k) => (st.setBucket b ((st.bucket b).set k ⟨0, 0, 0⟩), .applied)
  | none =>
    match (slotIn 1 b1).orElse fun _ => slotIn 1 b2 with
    | some (b, k) => (st.setBucket b ((st.bucket b).set k ⟨tag, set, 3⟩), .applied)
    | none => (st, .absent)

/-- One record of Table 5.5, with the page that ended its path. -/
def Store.record (choice : Nat) (r : Bytes) (st : Store) : Store × FpOutcome × Option Nat :=
  let st1 := { st with records := st.records + 1 }
  if field r 9 1 = 1 then
    let d := st1.delete (field r 8 1) (field r 0 8)
    (d.1, d.2, none)
  else st1.insert choice (field r 8 1) (field r 0 8)

/-- A slot after the sweep (`keep`) or an abort (Table 5.4). -/
def slotSettle (keep : Bool) (x : FpSlot) : FpSlot :=
  let live := slotVisible keep x.st
  if live then { x with st := 1 } else ⟨0, 0, 0⟩

/-- Sweep or restore every touched bucket. -/
def Store.settle (keep : Bool) (st : Store) : Store :=
  let st1 := st.touched.foldl (fun (a : Store) b => a.setBucket b ((a.bucket b).map (slotSettle keep))) st
  { st1 with touched := [], records := 0, epoch := .idle, peers := [], fromPeer := false }

/-! ### Loss (R111, R257) -/

/-- A poisoned page of the fingerprint region: its buckets are LOST, an FP_LOSS event and a report follow. -/
def State.losePage (p : Nat) (s : State) : State :=
  if s.store.lost.contains p then s
  else
    let s1 := (s.poison p)
    ({ s1 with store := { s1.store with lost := s1.store.lost ++ [p] } }.eventAll Ev.fpLoss s.count
      (leBytes 4 (1024 * p) ++ leBytes 4 (min 1024 (s.store.nb - 1024 * p)))).report Rep.fpLoss [1024 * p, min 1024 (s.store.nb - 1024 * p)]

/-- The store reads pages of its region: those poisoned before, by a scrub, are LOST from here. -/
def State.meetStore (pages : List Nat) (s : State) : State :=
  pages.foldl (fun (s : State) p => if s.poisoned.contains p then s.losePage p else s) s

/-- The pages of a fingerprint's two buckets. -/
def Store.pagesFor (st : Store) (f : Nat) : List Nat :=
  let b := fpFirst st.nb f
  [b / 1024, fpOther st.nb (fpTag f) b / 1024]

/-- Lookups of fingerprints read their buckets' pages. -/
def State.meetFps (fs : List Nat) (s : State) : State := fs.foldl (fun (s : State) f => s.meetStore (s.store.pagesFor f)) s

/-- A lookup of a set of buckets, one in a poisoned page being unreadable (R102, R111, R257). -/
def State.fpRead (s : State) (new : Bool) (set f : Nat) : Nat :=
  let bad := fun (k : Nat) => (s.store.pagesFor f).any fun p => p == k && s.poisoned.contains p
  let b := fpFirst s.store.nb f
  s.store.lookup new set f (bad (b / 1024)) (bad (fpOther s.store.nb (fpTag f) b / 1024))

/-- One record on the open epoch; pages poisoned before are read no further, and the one that a path comes to is LOST with them. -/
def State.storeRecord (choice : Nat) (r : Bytes) (s0 : State) : State × FpOutcome :=
  let s := s0.meetStore (s0.store.pagesFor (field r 0 8))
  let kept := s.store.lost
  let x := ({ s.store with lost := kept ++ s.poisoned }).record choice r
  (({ s with store := { x.1 with lost := kept } }).meetStore x.2.2.toList, x.2.1)

/-- Apply records in order to the open epoch; which way their cuckoo paths go is free. -/
def State.storeRecords (rs : List Bytes) (s : State) : State × List FpOutcome :=
  let r := rs.foldl (fun (a : State × List FpOutcome) r => let x := a.1.storeRecord (s.freshCtr + a.2.length) r; (x.1, a.2 ++ [x.2])) (s, [])
  ({ r.1 with freshCtr := s.freshCtr + rs.length }, r.2)

/-- Sweep or restore: every touched bucket is read. -/
def State.storeSettle (keep : Bool) (s : State) : State :=
  let s1 := s.meetStore ((s.store.touched.map fun b => b / 1024).eraseDups)
  ({ s1 with store := s1.store.settle keep }).active

end Sys2Proof.Machine
end

