-- ==== Sys2Proof/Machine/Fingerprint.lean ====
section
/-! DEFINITION. The fingerprint store: windows, hash, and what a lost page does (R96 to R99, R111). -/

namespace Sys2Proof.Machine

/-! ### Windows (R97, R98) -/

inductive FpTok where
  | special | skip | canon (id : Nat)
  deriving DecidableEq, Repr

/-- A token as the normalisation table of a vocabulary gives it. Where the selection holds no table for the vocabulary each id is its own
canonical id: DESIGN CHOICE, R97 gives no consequence of a missing table (log 105). -/
def fpToken (sel : FpSelection) (v : Vocab) (vocab id : Nat) : FpTok :=
  if vocabSpecial v id then .special
  else
    let w := match sel.norms.find? fun n => n.vocab == vocab with | some n => n.words.getD id 0 | none => id
    if bit w 31 then .skip else .canon (w % 2 ^ 18)

def FpWindow.empty : FpWindow := ⟨[], false⟩

/-- A token's effect on a window of N ids: the window, and whether it forms an n-gram. -/
def FpWindow.step (n pos : Nat) (t : FpTok) (w : FpWindow) : FpWindow × Bool :=
  match t with
  | .special => (FpWindow.empty, false)
  | .skip => (w, false)
  | .canon c =>
    let ids := w.ids ++ [(c, pos)]
    let kept := ids.drop (ids.length - n)
    (⟨kept, w.lastHit⟩, kept.length == n)

def windowAt (t : Tbl FpWindow) (set : Nat) : FpWindow := (tget t set).getD FpWindow.empty

/-- The sets that a stream of a vocabulary consults on a side, with their entries (R96). -/
def State.fpSets (s : State) (sel : FpSelection) (vocab : Nat) (output : Bool) : List (FpEntry × FpSetDef) :=
  sel.entries.filterMap fun e =>
    match tget s.store.sets e.set with
    | some d => if d.vocab = vocab ∧ (if output then e.output else e.input) then some (e, d) else none
    | none => none

/-! ### The fingerprint (R99) -/

def fpPrime : Nat := 2 ^ 61 - 1

/-- h of a window's canonical ids, oldest first. -/
def fpPoly (base : Nat) (ids : List Nat) : Nat := ids.foldl (fun h v => (h * base + (v + 1)) % fpPrime) 0

def fpMix (h seed : Nat) : Nat :=
  let x0 := h ^^^ seed
  let x1 := (x0 ^^^ (x0 / 2 ^ 33)) * 0xFF51AFD7ED558CCD % 2 ^ 64
  let x2 := (x1 ^^^ (x1 / 2 ^ 33)) * 0xC4CEB9FE1A85EC53 % 2 ^ 64
  x2 ^^^ (x2 / 2 ^ 33)

def fpHash (d : FpSetDef) (w : FpWindow) : Nat := fpMix (fpPoly d.base (w.ids.map (·.1))) d.seed

end Sys2Proof.Machine
end

