-- ==== Sys2Proof/Machine/Tally.lean ====
section
/-! DEFINITION. The tally board: SIGNAL and CONSUME (R18, R264, R265, Tables 11.5 and 11.10). -/

namespace Sys2Proof.Machine

/-- Serve the head waiter while COUNT reaches its n; no waiter overtakes it (R265). -/
def Tally.serve : Nat → Tally → Tally
  | 0, x => x
  | fuel + 1, x =>
    match x.waiters with
    | [] => x
    | w :: ws =>
      if w.n ≤ x.count then
        Tally.serve fuel { x with count := x.count - w.n, consumed := x.consumed + w.n, waiters := ws }
      else x

/-- Waiters that `f` drops leave a wait list, and a head that now can is served (R265). -/
def Tally.dropWaiters (f : Waiter → Bool) (x : Tally) : Tally :=
  let y := { x with waiters := x.waiters.filter fun w => !f w }
  y.serve (y.waiters.length + 1)

/-- SIGNAL n: COUNT + n, saturating at 0xFFFF_FFFF with OVERFLOW set; then waiters are served. -/
def Tally.signal (n : Nat) (x : Tally) : Tally :=
  let y := if x.count + n < 2 ^ 32 then { x with count := x.count + n }
    else { x with count := 2 ^ 32 - 1, overflow := true }
  y.serve (y.waiters.length + 1)

/-- CONSUME n: at once when nobody waits and COUNT is at least n; otherwise the issuer joins the tail. -/
def Tally.consume (w : Waiter) (x : Tally) : Tally :=
  if x.waiters.isEmpty ∧ w.n ≤ x.count then { x with count := x.count - w.n, consumed := x.consumed + w.n }
  else { x with waiters := x.waiters ++ [w] }

/-- A requester whose queue head or core waits on some Tally (R265). -/
def State.waiting (s : State) (foreman : Bool) (req : Nat) : Bool :=
  s.tallies.any fun p => p.2.waiters.any fun w => w.foreman == foreman && w.req == req

/-- The Tally is one of the issuer's context: an image never reaches a Tally of another context, and Tallies 0 to 63 are
context 0's (R264). -/
def State.tallyOf (s : State) (ctx tally : Nat) : Option Tally :=
  match tget s.tallies tally with
  | none => none
  | some x =>
    if x.alloc ∧ x.owner = ctx ∧ (ctx = 0 ∨ (x.gen = (s.ctx ctx).gen ∧ !(s.ctx ctx).frozen)) then some x else none

/-- The Tallies allocated to a context, ascending (R399). -/
def State.ownTallies (s : State) (c : Nat) : List Nat :=
  (s.tallies.filter fun t => decide (64 ≤ t.1) && t.2.alloc && t.2.owner == c && t.2.gen == (s.ctx c).gen).map (·.1)

/-- Tallies that the installs of a context in force or pinned name. -/
def State.namedTallies (s : State) (c : Nat) : List Nat := (s.ctx c).installs.flatMap fun r => r.install.tallies

def State.setTally (n : Nat) (x : Tally) (s : State) : State := { s with tallies := tset s.tallies n x }

/-- A requester of Table 11.10 may SIGNAL n, the ports of 130 to 150 for the transfers that complete on them; a unit whose queue head waits
does so as well (Table 11.5). -/
def maySignal (foreman : Bool) (req n : Nat) : Bool := decide (1 ≤ n) && decide (n ≤ 65535) && decide (req < if foreman then 2 else 151)

/-- A requester may CONSUME n: a unit or a Foreman core, no port, and none that waits already (Table 11.5, R265). -/
def State.mayConsume (s : State) (foreman : Bool) (req n : Nat) : Bool :=
  maySignal foreman req n && (foreman || decide (req < 130)) && !s.waiting foreman req

def execSignal (t : Nat) (foreman : Bool) (req ctx tally n : Nat) (s : State) : Host.Outcome State Fault Refusal :=
  done (s.run t fun s =>
    if maySignal foreman req n then
      match s.tallyOf ctx tally with
      | none => s
      | some x => s.setTally tally (x.signal n)
    else s)

def execConsume (t : Nat) (foreman : Bool) (req ctx tally n : Nat) (s : State) : Host.Outcome State Fault Refusal :=
  done (s.run t fun s =>
    if s.mayConsume foreman req n then
      match s.tallyOf ctx tally with
      | none => s
      | some x => s.setTally tally (x.consume ⟨foreman, req, ctx, n⟩)
    else s)

end Sys2Proof.Machine
end

