-- ==== Sys2Proof/Machine/Reset.lean ====
section
/-! DEFINITION. Context resets, by command or by fault: the freeze, CANCEL, work removed, items cut, streams FAULTED
(R20, R345, R346, Table 11.5), and the suspect reset (R352). -/

namespace Sys2Proof.Machine

/-- CANCEL: the context's waiters leave every wait list; COUNT is unchanged; a head that now can is served. -/
def State.cancelTallies (c : Nat) (s : State) : State :=
  { s with tallies := s.tallies.map fun (p : Nat × Tally) =>
      (p.1, p.2.dropWaiters fun w => w.ctx == c) }

/-- Work of a context leaves every engine queue, and packets not yet handed to a transmit stage are discarded. -/
def State.dropWork (c : Nat) (s : State) : State :=
  { s with
    chains := s.chains.filter fun ch => match tget s.items ch.item with | none => true | some i => i.entry.ctx != c
    passes := s.passes.filter fun p => p.ctx != c
    queuedTx := s.queuedTx.filter fun q => q.ctx != c
    drift := s.drift.map fun (d : DriftPort) => { d with waiting := d.waiting.filter fun m => m.ctx != c } }

/-- Items of a stream are answered WITHHELD with a status at their own release time (R346, R415). -/
def State.cutItems (sid status : Nat) (s : State) : State :=
  { s with items := s.items.map fun (p : Nat × Item) =>
      if p.2.owned ∧ p.2.stream = sid ∧ p.2.refused.isNone then (p.1, { p.2 with cut := some status }) else p }

/-! Accesses of a stream to its page set (Tables 11.2, 11.3; log 34) -/

/-- Pages that a stream's releases use: prompt log, copy index, guard state, token record. -/
def recordPages : List Nat := [0, 1, 2, 3, 4, 5, 6, 7, 12]

/-- The stack-page number under which a stream keeps that it has met the poisoned Seam page of its table entry. -/
def entryMark : Nat := Config.stackPages

/-- An access of a stream to pages of its set, by their places, and to its table entry: none when no page is poisoned, or the stream
FAULTED, its items cut, and CHECKPOINT_VALID cleared when the page is one of the valid slot. A page that it has met is not met again. -/
def State.meetPages (sid : Nat) (ks : List Nat) (s : State) : Option State :=
  match s.stream sid with
  | none => none
  | some x =>
    let page := fun (k : Nat) => (s.pageSet sid).getD k 0
    let bad := ((ks.map page).filter fun p => s.poisoned.contains p && !x.poisoned.contains p) ++
      if s.seamPoison.contains (112, sid / 16) && !x.poisoned.contains entryMark then [entryMark] else []
    if bad.isEmpty then none
    else
      let lost := (slotPages x.validB).any fun k => bad.contains (page k)
      let s1 := s.modStream sid fun x => { x with poisoned := x.poisoned ++ bad, e := { x.e with ckptValid := x.e.ckptValid && !lost } }
      some (if x.e.state.live ∨ x.e.state = .draining then (s1.cutItems sid E.internal).fault sid E.internal 0 else s1)

/-- A command that acts on the context ends with E_CONTEXT: an image load in progress, a migration, and a command whose
payload is being fetched (R325); its bulk reads are orphaned with the other transfers of the context (R270, Table 11.9). -/
def State.cutCommands (c : Nat) (s : State) : State :=
  let s1 := (List.range 8).foldl (fun (s : State) k =>
    match (s.inst (rrInst k)).working with
    | some ⟨_, .install cx _ _ _ _, _⟩ => if cx = c then s.failWork (rrInst k) E.context else s
    | some ⟨_, .adapter cx _ _, _⟩ => if cx = c then s.failWork (rrInst k) E.context else s
    | some ⟨_, .migrate _ _ cx, _⟩ => if cx = c then s.endWork (rrInst k) (Answer.fail E.context) else s
    | _ => s) s
  s1.cutExec c

/-- A context reset (R27, R28, R345, R346): `reason` is the close reason, CONTEXT_RESET or FAULT. -/
def State.resetContext (c reason : Nat) (s : State) : State :=
  let s1 := s.modCtx c fun x => { x with state := .closing, frozen := true, resetAt := s.count }
  let s2 := ((s1.cancelTallies c).dropWork c).cutCommands c
  let s3 := (s2.ctxStreams c).foldl (fun (s : State) p => (s.cutItems p.1 E.context).fault p.1 E.context reason) s2
  s3.tryQuarantine c

/-- A context fault reset is reported (R345, R366): context, domain, cause (0 image error, 1 hang again). -/
def State.faultReset (c cause : Nat) (s : State) : State :=
  let x := s.ctx c
  if x.state = .opened ∨ x.state = .closing then
    (({ s with ctxs := tmod s.ctxs c fun y => { y with faulted := true } }).resetContext c 10).report Rep.contextFault [c, x.domain, cause]
  else s

/-- Every stream of the context is FAULTED or beyond (R326). -/
def State.resetDone (s : State) (c : Nat) : Bool :=
  (s.ctxStreams c).all fun p => p.2.e.state == .faulted || p.2.e.state == .closed

/-- A suspect reset (R352): work removed, items and inputs kept, the Tallies that its images name set to 0, streams in
INTAKE, GENERATING and HELD wait with cause REPLAY. -/
def State.suspectReset (c : Nat) (s : State) : State :=
  let s1 := s.dropWork c
  let mine := s1.namedTallies c
  { s1 with
    tallies := s1.tallies.map fun (p : Nat × Tally) =>
      if mine.contains p.1 then (p.1, { p.2 with count := 0, waiters := [] })
      else (p.1, p.2.dropWaiters fun w => w.ctx == c)
    streams := s1.streams.map fun (p : Nat × Stream) =>
      if p.2.e.ctx = c then (p.1, { p.2 with e := p.2.e.hold false false true }) else p }

end Sys2Proof.Machine
end

