-- ==== Sys2Proof/Machine/Assay.lean ====
section
/-! DEFINITION. The Assay: features, comparisons, class outcomes and verdicts of an ensemble, and the accumulators (R165
to R177, R182 to R185, R187). -/

namespace Sys2Proof.Machine

/-! ### Items and their pinned images -/

def State.item (s : State) (n : Nat) : Option Item := tget s.items n

def State.modItem (n : Nat) (f : Item → Item) (s : State) : State := { s with items := tmod s.items n f }

def Item.chunk? (it : Item) : Option ChunkBody := match it.body with | .chunk b => some b | .cand _ => none
def Item.cand? (it : Item) : Option CandBody := match it.body with | .cand b => some b | .chunk _ => none
def Item.isChunk (it : Item) : Bool := match it.body with | .chunk _ => true | .cand _ => false
def Item.onChunk (f : ChunkBody → ChunkBody) (it : Item) : Item :=
  match it.body with | .chunk b => { it with body := .chunk (f b) } | .cand _ => it
def Item.onCand (f : CandBody → CandBody) (it : Item) : Item :=
  match it.body with | .cand b => { it with body := .cand (f b) } | .chunk _ => it

def State.modChunk (n : Nat) (f : ChunkBody → ChunkBody) (s : State) : State := s.modItem n (Item.onChunk f)
def State.modCand (n : Nat) (f : CandBody → CandBody) (s : State) : State := s.modItem n (Item.onCand f)

def Item.pins (it : Item) : List Nat := it.entry.imagePins
def State.itemCtx (s : State) (it : Item) : Ctx := s.ctx it.entry.ctx
def Item.setting (it : Item) (k : Nat) : Nat := Machine.setting it.settings k

/-- An item that takes part in screening: accepted, of a stream of its own, not answered whatever it decides. -/
def Item.live (it : Item) : Bool := it.owned && it.refused.isNone && it.cut.isNone

/-- The resolver models of the pinned ensembles: they run for resolutions alone (R185; log 31). -/
def Ctx.resolverIds (x : Ctx) (pins : List Nat) : List Nat := (x.ensembles pins).flatMap fun e => e.resolvers.map (·.2)

def Ctx.promptGuards (x : Ctx) (pins : List Nat) : List Model :=
  (x.guardModels pins).filter fun m => !m.token && m.role == 0 && !(x.resolverIds pins).contains m.modelId
def Ctx.tokenGuards (x : Ctx) (pins : List Nat) : List Model :=
  (x.guardModels pins).filter fun m => m.token && m.role == 0 && !(x.resolverIds pins).contains m.modelId
def Ctx.probesRun (x : Ctx) (pins : List Nat) : List Model :=
  (x.probeModels pins).filter fun m => !(x.resolverIds pins).contains m.modelId
def Ctx.draftModel (x : Ctx) (pins : List Nat) : Option Model := (x.guardModels pins).find? fun m => m.role == 2
def Ctx.modelById (x : Ctx) (pins : List Nat) (id : Nat) : Option Model :=
  (x.guardModels pins ++ x.probeModels pins).find? fun m => m.modelId == id

/-- What a pass fixes for a stream: its adapters in pin order, the vocabularies. -/
def State.passEnv (s : State) (e : Entry) (width : Nat) (order : Option (List Nat)) : PassEnv :=
  { width := width, order := order, vocabSize := vocabSize s, source := none
    adapters := e.adapterPins.filterMap fun p =>
      (tget s.adapters p.1).bind fun a => ((a.versions ++ a.past).find? fun v => v.version == p.2).map (·.body) }

/-- A calculation of a context: its conversions that saturated and its NaNs are counted (R120, R124). -/
def State.calc {α : Type} (c : Nat) (m : Calc α) (s : State) : α × State :=
  let r := StateT.run m (0, 0)
  (r.1, (s.ctxCountBy c Cnt.arithSaturate r.2.1).ctxCountBy c Cnt.arithNan r.2.2)

/-! ### Supplying values (R168) -/

/-- The key of a value: token of the item (0 for a chunk), ensemble kind, feature. -/
def vkey (tok kind idx : Nat) : Nat := (tok * 4 + kind) * 1024 + idx

/-- The ensembles that an item feeds: that of its kind, and the REQUEST ensemble. -/
def Ctx.fed (x : Ctx) (pins : List Nat) (chunk : Bool) : List Ensemble :=
  (x.ensembles pins).filter fun e => e.kind == 2 || e.kind == if chunk then 0 else 1

/-- Add to the counts of the features that `f` finds a number for. -/
def addCounts (es : List Ensemble) (tok : Nat) (f : EnsFeature → Nat) (l : List (Nat × Nat)) : List (Nat × Nat) :=
  es.foldl (fun (l : List (Nat × Nat)) e => (indexed e.features).foldl (fun (l : List (Nat × Nat)) p =>
    let n := f p.2
    if n = 0 then l else bump l (vkey tok e.kind p.1) n) l) l

/-- Set the counts of the features of a kind. -/
def setCounts (es : List Ensemble) (tok : Nat) (p : EnsFeature → Bool) (n : Nat) (l : List (Nat × Nat)) : List (Nat × Nat) :=
  es.foldl (fun (l : List (Nat × Nat)) e => (indexed e.features).foldl (fun (l : List (Nat × Nat)) q =>
    if p q.2 then l.filter (fun r => r.1 != vkey tok e.kind q.1) ++ [(vkey tok e.kind q.1, n)] else l) l) l

/-- Append the scores of a model to the values of its SCORE features. -/
def addScores (es : List Ensemble) (tok model : Nat) (scores : List Fp32) (l : List (Nat × List Fp32)) : List (Nat × List Fp32) :=
  es.foldl (fun (l : List (Nat × List Fp32)) e => (indexed e.features).foldl (fun (l : List (Nat × List Fp32)) p =>
    if p.2.kind = 2 ∧ p.2.argB = model then
      let k := vkey tok e.kind p.1
      let v := scores.getD p.2.argA (fZero false)
      match l.find? fun r => r.1 == k with
      | none => l ++ [(k, [v])]
      | some _ => l.map fun (r : Nat × List Fp32) => if r.1 = k then (k, r.2 ++ [v]) else r
    else l) l) l

/-- GRATE_COUNT of a set's events on a side. -/
def grateCount (set : Nat) (output : Bool) (evs : List Event) (f : EnsFeature) : Nat :=
  if f.kind = 0 ∧ f.argA % 64 = set ∧ bit f.argA 8 = output then
    (evs.filter fun e => f.argB == 0xFFFFFFFF || e.pattern == f.argB).length
  else 0

/-! ### Reduction (R169) -/

def countCap : Fp32 := fOfNat 16777216

/-- The feature kinds that are counts: of events, hits, a window, held tokens (Table 8.3, R169). -/
def countKind (kind : Nat) : Bool := [0, 1, 3, 7].contains kind

/-- Take one more value into an accumulator; counts saturate. -/
def accPush (count : Bool) (a : Option Accum) (v : Fp32) : Calc (Option Accum) :=
  match a with
  | none => pure (some ⟨1, v, v, v⟩)
  | some a => do
    let t ← Calc.add a.sum v
    return some ⟨a.n + 1, v, fmax a.max v, if count && flt countCap t then countCap else t⟩

def accPushAll (count : Bool) (a : Option Accum) (vs : List Fp32) : Calc (Option Accum) := vs.foldlM (accPush count) a

/-- The reduced value; `none` is missing. A count kind is never missing. -/
def reduced (f : EnsFeature) (a : Option Accum) : Calc (Option Fp32) :=
  match a with
  | none => pure (if f.kind = 2 then none else some (fZero false))
  | some a =>
    match f.reduce with
    | 0 => pure (some a.last)
    | 1 => pure (some a.max)
    | 2 => pure (some a.sum)
    | _ => do return some (← Calc.div a.sum (fOfNat a.n))

/-- Results of the resolver of a source model for a token of an item, when the item was resolved (R184). -/
def Item.resolvedScores (it : Item) (model tok : Nat) : Option (List (List Fp32)) :=
  let rs := it.band.filter fun r => r.1 == model && (it.isChunk || r.2.1 == tok)
  if rs.isEmpty then none else some (rs.filterMap (·.2.2))

/-- The values that an item's token supplies to a feature (Table 8.3). -/
def Item.own (it : Item) (x : Stream) (tok kind idx : Nat) (f : EnsFeature) : List Fp32 :=
  let k := vkey tok kind idx
  match f.kind with
  | 2 =>
    match it.resolvedScores f.argB tok with
    | some rs => rs.map fun r => r.getD f.argA (fZero false)
    | none => match it.values.find? fun r => r.1 == k with | some r => r.2 | none => []
  | 4 => [fOfNat (match it.body with | .chunk b => b.origin | .cand _ => x.screen.origin)]
  | 5 => [fOfNat (match it.body with | .chunk b => b.stop | .cand b => b.first + tok)]
  | 6 => [fOfNat x.e.verdict]
  | _ => [fOfNat (min 16777216 (countAt it.tallies k))]

/-- A feature as the trees see it: its value, missing or not, and its variation bound (R170). -/
structure Feat where
  value : Option Fp32
  bound : Fp32

def accKey (kind idx : Nat) : Nat := kind * 1024 + idx

def variation (x : Ctx) (pins : List Nat) (f : EnsFeature) (n : Nat) : Calc Fp32 := do
  if f.kind ≠ 2 then return fZero false
  else
    let sv := match x.modelById pins f.argB with | some m => m.scoreVar | none => fZero false
    let v := fmax f.varMin sv
    if f.reduce = 2 then Calc.mul v (fOfNat n) else return v

/-- The feature vector of an item's token for an ensemble. -/
def Item.features (it : Item) (c : Ctx) (x : Stream) (tok : Nat) (e : Ensemble) : Calc (List Feat) :=
  (indexed e.features).mapM fun p => do
    let base := if p.2.streamScope then tget x.screen.accums (accKey e.kind p.1) else none
    let a ← accPushAll (countKind p.2.kind) base (it.own x tok e.kind p.1 p.2)
    let v ← reduced p.2 a
    let n := match a with | none => 0 | some a => a.n
    let b ← if p.2.kind = 2 ∧ it.cleared.contains (p.2.argB, tok) then pure (fZero false) else variation c it.pins p.2 n
    return ⟨v, b⟩

/-- The feature vector of a request evaluation: the accumulators as they stand. -/
def requestFeatures (c : Ctx) (pins : List Nat) (accums : Tbl Accum) (e : Ensemble) : Calc (List Feat) :=
  (indexed e.features).mapM fun p => do
    let a := tget accums (accKey e.kind p.1)
    let v ← reduced p.2 a
    let b ← variation c pins p.2 (match a with | none => 0 | some a => a.n)
    return ⟨v, b⟩

/-! ### Comparisons and trees (R171 to R176) -/

/-- Direction (true LOW) and near bit of a node. -/
def nodeStep (cats : List Bytes) (fs : List Feat) (n : EnsNode) : Calc (Bool × Bool) := do
  let f := fs.getD n.feature ⟨none, fZero false⟩
  match f.value with
  | none => return (n.defaultLow, false)
  | some x =>
    if fIsNan x then return (n.defaultLow, false)
    else if n.categorical then
      let i := fRoundInt x
      if fFinite x && feq (fOfInt i) x && decide (0 ≤ i) && decide (i ≤ 255) then
        let set := cats.getD n.threshold.toNat []
        return (bit (set.getD (i.toNat / 8) 0).toNat (i.toNat % 8), false)
      else return (n.defaultLow, false)
    else
      let lo ← Calc.sub n.threshold f.bound
      let hi ← Calc.add n.threshold f.bound
      return (flt x n.threshold, flt (fZero false) f.bound && fle lo x && fle x hi)

/-- The leaf of a tree and the features near on the path to it. -/
def treeWalk (t : EnsTree) (cats : List Bytes) (fs : List Feat) : Nat → Nat → List Nat → Calc (Nat × List Nat)
  | 0, _, near => pure (0, near)
  | fuel + 1, k, near =>
    match t.nodes[k]? with
    | none => pure (0, near)
    | some n => do
      let d ← nodeStep cats fs n
      let near := if d.2 then near ++ [n.feature] else near
      let leaf := if d.1 then n.lowLeaf else n.highLeaf
      let next := if d.1 then n.low else n.high
      if leaf then return (next, near) else treeWalk t cats fs fuel next near

/-- Largest leaf value less the smallest. -/
def leafSpan (t : EnsTree) : Fp32 :=
  match t.leaves with
  | [] => fZero false
  | l :: ls => fsub (ls.foldl fmax l) (ls.foldl (fun a v => if flt v a then v else a) l)

/-- One tree's share of its class: score, band, and the near features. -/
def treeVote (cats : List Bytes) (fs : List Feat) (t : EnsTree) (a : Fp32 × Fp32 × List Nat) : Calc (Fp32 × Fp32 × List Nat) := do
  let w ← treeWalk t cats fs (t.nodes.length + 1) 0 []
  let s ← Calc.add a.1 (← Calc.mul t.weight (t.leaves.getD w.1 (fZero false)))
  if w.2.isEmpty then return (s, a.2.1, a.2.2)
  else
    let b ← Calc.add a.2.1 (← Calc.mul (fabs32 t.weight) (leafSpan t))
    return (s, b, a.2.2 ++ w.2)

/-- Outcomes of a class. -/
def clsClear : Nat := 0
def clsFired : Nat := 1
def clsBand : Nat := 2

def classOutcome (th s b : Fp32) : Calc Nat := do
  let lo ← Calc.sub s b
  let hi ← Calc.add s b
  return if fIsNan lo || fIsNan hi then clsBand else if fle th lo then clsFired else if flt hi th then clsClear else clsBand

/-- Outcomes per class, and the near features of the classes in BAND. -/
def evalClasses (e : Ensemble) (fs : List Feat) : Calc (List (Nat × List Nat)) :=
  (indexed e.classes).mapM fun c => do
    let r ← e.pages.foldlM (fun (a : Fp32 × Fp32 × List Nat) p =>
      (p.trees.filter fun t => t.cls == c.1).foldlM (fun a t => treeVote p.catsets fs t a) a) (c.2.base, c.2.bandFixed, [])
    let o ← classOutcome c.2.threshold r.1 r.2.1
    return (o, if o = clsBand then r.2.2 else [])

/-! ### Verdicts (R177, R182, R184) -/

/-- Verdicts: 0 PASS, 1 FLAG, 2 BLOCK, 3 UNDECIDED. -/
def vPass : Nat := 0
def vFlag : Nat := 1
def vBlock : Nat := 2
def vUndecided : Nat := 3

/-- Classes of an action with an outcome. -/
def classHas (e : Ensemble) (outs : List Nat) (action o : Nat) : Bool :=
  (e.classes.zip outs).any fun p => p.1.action == action && p.2 == o

def classVerdict (e : Ensemble) (outs : List Nat) : Nat :=
  if classHas e outs 2 clsFired then vBlock
  else if classHas e outs 2 clsBand then vUndecided
  else if classHas e outs 1 clsFired then vFlag
  else if classHas e outs 1 clsBand then vUndecided
  else vPass

/-- After resolution a class still in BAND fires when its action is FLAG, and makes FLAG when it is BLOCK. -/
def settledVerdict (e : Ensemble) (outs : List Nat) : Nat :=
  if classHas e outs 2 clsFired then vBlock
  else if classHas e outs 2 clsBand || classHas e outs 1 clsFired || classHas e outs 1 clsBand then vFlag
  else vPass

/-- The lowest-numbered BLOCK class that fired (R182). -/
def firedBlock (e : Ensemble) (outs : List Nat) : Option Nat :=
  (List.range outs.length).find? fun c => ((e.classes.getD c ⟨0, 0, 0, 0⟩).action == 2) && outs.getD c 0 == clsFired

def severity (v : Nat) : Nat := match v with | 2 => 3 | 3 => 2 | 1 => 1 | _ => 0
/-- The more severe of two verdicts. -/
def worse (a b : Nat) : Nat := if severity a < severity b then b else a

/-! ### Accumulation and triggers (R169, R187) -/

/-- A feature of the REQUEST ensemble triggers on what an item's token supplies. -/
def Item.triggers (it : Item) (x : Stream) (tok idx : Nat) (f : EnsFeature) : Bool :=
  f.trigger && (match f.kind with
    | 0 | 1 => countAt it.tallies (vkey tok 2 idx) != 0
    | 2 => !(it.own x tok 2 idx f).isEmpty
    | _ => true)

/-- Push an item's values into STREAM-scope accumulators. -/
def Item.pushAll (it : Item) (x : Stream) (tok : Nat) (es : List Ensemble) (accs : Tbl Accum) : Calc (Tbl Accum) :=
  es.foldlM (fun (t : Tbl Accum) e => (indexed e.features).foldlM (fun (t : Tbl Accum) p => do
    if p.2.streamScope then
      match ← accPushAll (countKind p.2.kind) (tget t (accKey e.kind p.1)) (it.own x tok e.kind p.1 p.2) with
      | some a => return tset t (accKey e.kind p.1) a
      | none => return t
    else return t) t) accs

/-! ### Request evaluations (R187, R188) -/

/-- Features whose accumulators carry over (R192). -/
def sameFeature (a b : EnsFeature) : Bool :=
  a.kind == b.kind && a.reduce == b.reduce && a.streamScope == b.streamScope && a.trigger == b.trigger && a.argA == b.argA && a.argB == b.argB

/-- The accumulators of one ensemble version as another has them (R192). -/
def Ctx.moveAccums (c : Ctx) (old new : List Nat) (t : Tbl Accum) : Tbl Accum :=
  if old.getD 4 0 = new.getD 4 0 then t
  else
    let feat := fun (pins : List Nat) (key : Nat) => (c.ensemble pins (key / 1024)).bind fun e => e.features[key % 1024]?
    t.filter fun a => match feat old a.1, feat new a.1 with | some f, some g => sameFeature f g | _, _ => false

def State.hasRequest (s : State) (x : Stream) : Bool := ((s.ctx x.e.ctx).ensemble x.e.imagePins 2).isSome

/-- A request evaluation starts: it reads the feature vector as it stands, under the version that the stream pins. A verdict UNDECIDED counts as FLAG (R184). -/
def State.startRequest (sid trig merged : Nat) (s : State) : State :=
  match s.stream sid with
  | none => s
  | some x =>
    match (s.ctx x.e.ctx).ensemble x.e.imagePins 2 with
    | none => s
    | some e =>
      let c := s.ctx x.e.ctx
      let r := s.calc x.e.ctx (do evalClasses e (← requestFeatures c x.e.imagePins (c.moveAccums x.scrPins x.e.imagePins x.screen.accums) e))
      let outs := r.1.map (·.1)
      r.2.modStream sid fun x =>
        { x with reqRun := some ⟨trig, merged, s.count, x.e.commitPtr, x.e.imagePins.getD 4 0, outs, settledVerdict e outs,
                                 classVerdict e outs == vUndecided⟩ }

/-- A trigger starts a request evaluation, makes one pending, or is merged (R188). Trigger 2 is the close trigger. -/
def State.reqTrigger (sid trig : Nat) (s : State) : State :=
  match s.stream sid with
  | none => s
  | some x =>
    if s.hasRequest x then
      match x.reqRun, x.reqPend with
      | none, _ => s.startRequest sid trig 0
      | some _, none => s.modStream sid fun x => { x with reqPend := some ⟨trig, 0, 0, 0, 0, [], 0, false⟩ }
      | some _, some p => s.modStream sid fun x =>
          { x with reqPend := some { p with merged := min (p.merged + 1) 65535, trigger := if trig = 2 then 2 else p.trigger } }
    else s

/-- A final token's (or chunk's) values enter the stream's accumulators, and may trigger a request evaluation. -/
def State.accumulate (n tok : Nat) (s : State) : State :=
  match s.item n with
  | none => s
  | some it =>
    match s.stream it.stream with
    | none => s
    | some x =>
      let es := (s.itemCtx it).fed it.pins it.isChunk
      let r := s.calc it.entry.ctx (it.pushAll x tok es x.screen.accums)
      let s1 := r.2.modStream it.stream fun x =>
        { x with screen := { x.screen with accums := r.1 }, rel := if it.isChunk then x.rel else { x.rel with accums := r.1 }
                 trail := x.trail.filter fun k => k.1 != some n }
      let s2 := s1.modChunk n fun b => { b with after := { b.after with accums := r.1 }, evaluated := true }
      let fires := es.any fun e => e.kind == 2 && (indexed e.features).any fun p => it.triggers x tok p.1 p.2
      if fires then s2.reqTrigger it.stream 1 else s2

/-- A TRAILING score waits for the first gated item stamped from now on (R152). -/
def State.trailScore (sid model : Nat) (scores : List Fp32) (s : State) : State :=
  s.modStream sid fun x => { x with trail := x.trail ++ [(none, model, scores)] }

/-- The TRAILING scores that an item takes at its stamp, as values of its first token (R152). -/
def Stream.trailValues (es : List Ensemble) (x : Stream) : List (Nat × List Fp32) :=
  (x.trail.filter fun k => k.1.isNone).foldl (fun (v : List (Nat × List Fp32)) k => addScores es 0 k.2.1 k.2.2 v) []

/-- The scores that wait are item `n`'s from here; they leave as its values are accumulated. -/
def Stream.giveTrail (n : Nat) (x : Stream) : Stream := { x with trail := x.trail.map fun k => (if k.1.isNone then some n else k.1, k.2) }

/-- TRAILING scores that no item's values have carried enter the REQUEST accumulators for the close evaluation (R152; log 107). -/
def State.closeTrail (sid : Nat) (s : State) : State :=
  match s.stream sid with
  | none => s
  | some x =>
    let fs := (((s.ctx x.e.ctx).ensembles x.scrPins).filter fun e => e.kind == 2).flatMap fun e => indexed e.features
    let r := s.calc x.e.ctx (x.trail.foldlM (fun (t : Tbl Accum) k =>
      (fs.filter fun p => p.2.kind == 2 && p.2.argB == k.2.1 && p.2.streamScope).foldlM (fun (t : Tbl Accum) p => do
        match ← accPush false (tget t (accKey 2 p.1)) (k.2.2.getD p.2.argA (fZero false)) with
        | some a => return tset t (accKey 2 p.1) a
        | none => return t) t) x.screen.accums)
    r.2.modStream sid fun x =>
      { x with screen := { x.screen with accums := r.1 }, rel := { x.rel with accums := r.1 }, trail := [] }

/-! ### Evaluating an item's token (R182, R184) -/

/-- What an evaluation of a token found: outcomes per class and the near features of classes in BAND. -/
def State.assess (n tok : Nat) (s : State) : Option (Ensemble × List (Nat × List Nat)) × State :=
  match s.item n with
  | none => (none, s)
  | some it =>
    match s.stream it.stream, (s.itemCtx it).ensemble it.pins (if it.isChunk then 0 else 1) with
    | some x, some e =>
      let r := s.calc it.entry.ctx (do evalClasses e (← it.features (s.itemCtx it) x tok e))
      (some (e, r.1), r.2)
    | _, _ => (none, s)

/-- The source models that have a near feature and a resolver (R184). -/
def nearSources (e : Ensemble) (near : List Nat) : List Nat :=
  (near.filterMap fun i => e.features[i]?.map (·.argB)).eraseDups.filter fun m => e.resolvers.any fun r => r.1 == m

/-- The resolver work of a token in UNDECIDED: every input of those sources. -/
def Item.resolverWork (it : Item) (sources : List Nat) (tok : Nat) : List (Nat × Nat × Option (List Fp32)) :=
  (it.inputs.filter fun i => sources.contains i.model && (it.isChunk || i.idx == tok)).map fun i => (i.model, i.idx, none)

/-- Whether every resolver result of an item has come. -/
def Item.resolved (it : Item) : Bool := it.band.all fun r => r.2.2.isSome

/-- A result of the ensemble for a token joins the item's verdict. -/
def Item.join (v : Nat) (cls : Option Nat) (und : Bool) (it : Item) : Item :=
  { it with
    flagged := it.flagged || v == vFlag, ensBlock := if v = vBlock ∧ it.ensBlock.isNone then some (cls.getD 0) else it.ensBlock
    undecided := it.undecided || und }

/-- The verdict that the item's contributions make (R182). -/
def Item.verdict (it : Item) : Nat :=
  if !it.contribs.isEmpty || it.abort || it.ensBlock.isSome then vBlock else if it.flagged then vFlag else vPass

/-- The evaluation after the resolver's scores have replaced the source's: no class stays UNDECIDED (R184). -/
def State.reevaluate (n tok : Nat) (s : State) : State :=
  let r := s.assess n tok
  match r.1 with
  | none => r.2
  | some (e, outs) =>
    let os := outs.map (·.1)
    r.2.modItem n fun it => { it.join (settledVerdict e os) (firedBlock e os) true with resolving := false }

/-- Evaluate a token: true when its verdict is final, with the resolver work queued otherwise. UNDECIDED of the ensemble beside a BLOCK of
another contribution is no verdict of the item, and nothing resolves it (R182). A source that gave the item no value has nothing to
resolve, and its features have V = 0 at once (R184). -/
def State.evaluate (n tok : Nat) (s : State) : Bool × State :=
  match s.item n with
  | none => (false, s)
  | some it =>
    if it.resolving then (true, s.reevaluate n tok)
    else
      let r := s.assess n tok
      match r.1 with
      | none => (true, r.2)
      | some (e, outs) =>
        let os := outs.map (·.1)
        let v := classVerdict e os
        if v ≠ vUndecided then (true, r.2.modItem n (Item.join v (firedBlock e os) false))
        else if it.verdict = vBlock then (true, r.2)
        else if it.setting (if it.isChunk then Setting.undecidedIn else Setting.undecidedOut) = 0 then
          (true, r.2.modItem n (Item.join vFlag none true))
        else
          let sources := nearSources e (outs.flatMap (·.2)).eraseDups
          let work := it.resolverWork sources tok
          let s1 := r.2.modItem n fun it =>
            { it with resolving := true, undecided := true, band := it.band ++ work, cleared := it.cleared ++ sources.map (·, tok) }
          if work.isEmpty then (true, s1.reevaluate n tok) else (false, s1)

/-- BLOCK_SOURCE, RULE_ID and MATCH_START of an item that is BLOCK (R183). -/
def Item.reason (it : Item) : Nat × Nat × Nat :=
  if it.verdict ≠ vBlock then (0, 0, 0)
  else
    match firstContrib it.contribs with
    | some c => (if c.src = 0 then 1 else 2, c.rule, c.start)
    | none => (4, it.ensBlock.getD 0, 0)

end Sys2Proof.Machine
end

