-- ==== Sys2Proof/Machine/Chain.lean ====
section
/-! DEFINITION. Chains of output states: grammars, lookahead walks, the states after draft tokens and the rollback ring entries that
keep them (R82, R83, R84, R202, R203, R241, R244). -/

namespace Sys2Proof.Machine

/-! ### Grammars (R202, R203) -/

def gramEntry (g : Grammar) (state cls : Nat) : Option GrammarEntry :=
  match g.states[state]? with
  | none => none
  | some q => ((g.entries.drop q.first).take q.count).find? fun e => e.cls == cls

/-- One token: the configuration after it and the state it popped. The stack's top is its head. -/
def gramStep (g : Grammar) (t : Nat) (k : GramCfg) : Option (GramCfg × Option Nat) :=
  let c := g.classMap.getD t 0
  if c = 0 then none
  else
    match gramEntry g k.state c with
    | none => none
    | some e =>
      match e.op, k.stack with
      | 0, st => some (⟨k.sel, e.next, st⟩, none)
      | 1, st => if st.length = g.maxDepth then none else some (⟨k.sel, e.next, e.ret :: st⟩, none)
      | _, [] => none
      | _, r :: st => some (⟨k.sel, r, st⟩, some r)

def gramAccepting (g : Grammar) (k : GramCfg) : Bool :=
  k.stack.isEmpty && (match g.states[k.state]? with | some q => q.accept | none => false)

/-- The gate policy of a vocabulary in a stream's pinned gate image. -/
def gatePolicy (g : GateImage) (v : Nat) : Option GatePolicy := g.policies.find? fun p => p.vocab == v
def gateGrammar (g : GateImage) (v sel : Nat) : Option Grammar := g.grammars.find? fun k => k.index == sel && k.vocab == v

/-- The grammar configuration that an item's first position starts from. -/
def startGram (g : GateImage) (vocab sel : Nat) (k : GramCfg) : GramCfg :=
  if sel = k.sel then k
  else match gateGrammar g vocab sel with | some q => ⟨sel, q.startState, []⟩ | none => ⟨0, 0, []⟩

/-! ### Lookahead walks (R82, R83) -/

def State.lookSets (s : State) (it : Item) : List PatternSet := ((s.itemCtx it).patternSets it.pins).filter setLookahead

/-- Step a candidate until the first NEW_MATCH state: the state, the bytes taken, and whether it stopped. -/
def lookWalk (p : PatternSet) : List Sym → Nat → Nat → Nat × Nat × Bool
  | [], q, k => (q, k, false)
  | y :: r, q, k =>
    let n := patNext (setState p q) (symClass p y)
    let k1 := match y with | .byte _ => k + 1 | _ => k
    if (setState p n).newMatch then (n, k1, true) else lookWalk p r n k1

/-- A set's state after the first `j` drafts, and whether one of them completed a BLOCK event (R83). -/
def chainState (p : PatternSet) (v : Vocab) (q0 : Nat) (drafts : List Nat) : Nat × Bool :=
  drafts.foldl (fun (a : Nat × Bool) d => (tokenSyms v d).foldl (fun (a : Nat × Bool) y =>
    let n := patNext (setState p a.1) (symClass p y)
    (n, a.2 || (p.action == 2 && (setState p n).newMatch))) a) (q0, false)

/-- A set's state after an uncommitted token: a lookahead set takes the end state of the token's lookahead, the others every symbol
(R84). -/
def draftStep (p : PatternSet) (v : Vocab) (q d : Nat) : Nat :=
  if setLookahead p then (lookWalk p (tokenSyms v d) q 0).1
  else (tokenSyms v d).foldl (fun q y => patNext (setState p q) (symClass p y)) q

/-! ### Ring entries of uncommitted tokens (R84, R203, R241, R244) -/

/-- A slot may be written: free, this position's, or of a position at least 64 below. -/
def ringFree (t : Tbl RingEntry) (pos : Nat) : Bool :=
  match tget t (pos % 64) with
  | none => true
  | some r => r.position == pos || decide (r.position + 64 ≤ pos)

/-- The slot of a position holds that position's entry: what a restore checks. -/
def ringHolds (t : Tbl RingEntry) (pos : Nat) : Bool := (tget t (pos % 64)).any fun r => r.position == pos

/-- The states after each of a run of uncommitted tokens from `first`, given with whether they are the proposal's: OUTPUT sets, grammar,
byte count and output count. LAST_HIT is the committed one: no lookup of an uncommitted token has returned (R237; log 104). -/
def State.draftEntries (s : State) (it : Item) (x : Stream) (v : Vocab) (first : Nat) (k0 : GramCfg) (toks : List (Nat × Bool)) : List RingEntry :=
  let c := s.itemCtx it
  let sets := (c.patternSets it.pins).filter (·.output)
  let hits := ((c.fpSel it.pins).entries.filter (·.output)).map fun e => (windowAt x.screen.outFp e.set).lastHit
  (toks.foldl (fun (a : List RingEntry × Tbl Nat × GramCfg × Nat) t =>
    let states := sets.foldl (fun (m : Tbl Nat) p => tset m p.index (draftStep p v (stateAt m p.index) t.1)) a.2.1
    let g := (gateGrammar (c.gateImage it.pins) it.entry.vocab a.2.2.1.sel).bind fun q => gramStep q t.1 a.2.2.1
    let k := match g with | some r => r.1 | none => a.2.2.1
    let byte := a.2.2.2 + tokenLen v t.1
    (a.1 ++ [{ position := first + a.1.length, token := t.1, committed := false, held := false, drafted := t.2, hostDraft := !t.2, popped := g.bind (·.2),
               gram := (k.sel, k.state, k.stack.length), lastHits := hits, outStates := states, byteEnd := byte,
               outputCount := x.screen.outputCount + a.1.length + 1 }], states, k, byte)) ([], x.screen.outStates, k0, x.screen.byteCount)).1

/-- Write entries to the ring; `none` is a lost rewind mark (R244). -/
def ringWrite (t : Tbl RingEntry) (rs : List RingEntry) : Option (Tbl RingEntry) :=
  rs.foldl (fun (a : Option (Tbl RingEntry)) r => a.bind fun t => if ringFree t r.position then some (tset t (r.position % 64) r) else none) (some t)

/-- Uncommitted entries are discarded and LENGTH_PTR returns to COMMIT_PTR (R242). -/
def Stream.dropDrafts (x : Stream) : Stream :=
  { x with e := { x.e with lengthPtr := x.e.commitPtr }, screen := { x.screen with ring := x.screen.ring.filter fun r => r.2.held || r.2.committed } }

/-- A lost rewind mark (R245, R415). -/
def State.loseRewind (sid : Nat) (s : State) : State :=
  match s.stream sid with
  | none => s
  | some x => ((s.cutItems sid E.rewindLost).ctxCount x.e.ctx Cnt.rewindLost).fault sid E.rewindLost 0

end Sys2Proof.Machine
end

