-- ==== Sys2Proof/Machine/Release.lean ====
section
/-! DEFINITION. Answers of gated items: RELEASE_IN, RELEASE_OUT, RUN_END and DRAFT, the late policies, and what a
release does to its stream (R63 to R69, R198, R213 to R217, R222, R223, R233, R234, R242, R346, R414, R415). -/

namespace Sys2Proof.Machine

/-! ### Answered items -/

/-- The stream of an answered item was busy until now (R43). -/
def State.touch (it : Item) (s : State) : State :=
  if it.owned then s.modStream it.stream fun x => { x with lastActive := s.count } else s

/-- An item is answered for the last time: its CONTEXT-scope events are counted (R80) and it leaves. -/
def State.dropItem (n : Nat) (s : State) : State :=
  match s.item n with
  | none => s
  | some it =>
    let s0 := { s with items := tdel s.items n }.touch it
    let s1 := if it.owned then s0.modStream it.stream (Stream.forget (!it.isChunk) it.stamp) else s0
    if it.refused.isNone then s1.countContexts it.entry.ctx it.stamp it.pins it.counts else s1

/-- RUNNING_VERDICT takes the more severe of its old value and a final one; bit 7 is set with the first LATE (R182). -/
def Entry.verdictWith (v : Nat) (late : Bool) (e : Entry) : Entry :=
  { e with verdict := worse e.verdict v, verdictLate := e.verdictLate || late, lateSeen := e.lateSeen || late }

/-- ITEMS_LATE counts an item once. -/
def State.countLate (n : Nat) (s : State) : State :=
  match s.item n with
  | none => s
  | some it => if it.late then s else (s.modItem n fun it => { it with late := true }).ctxCount it.entry.ctx Cnt.itemsLate

/-! ### The prompt log (R233, R234) -/

def logSize : Nat := 131072

/-- Bucket and tag of a copy key. -/
def copyKey (ids : List Nat) : Nat × Nat :=
  let x := ids.foldl (fun x v => (x * 0x9E3779B1 + v + 1) % 2 ^ 32) 0
  (x / 2 ^ 17, let t := x / 2 ^ 10 % 128; if t = 0 then 1 else t)

/-- A released prompt token enters the log at position p + 1, and the key that ends at p, if one does, the index. -/
def Stream.logToken (keyLen tok : Nat) (x : Stream) : Stream :=
  let log := x.log ++ [tok]
  let p := x.logCount - 1
  let k := copyKey (x.log.drop (x.log.length - keyLen))
  { x with
    log := log.drop (log.length - logSize), logCount := x.logCount + 1
    index := if keyLen ≤ x.logCount then tset x.index k.1 (k.2 * 2 ^ 17 + p % logSize) else x.index }

/-- Append model tokens from COMMIT_PTR on to the token record, and forget what neither a replay nor a copy key needs. -/
def Stream.recordTokens (vals : List Nat) (x : Stream) : Stream :=
  let c := x.e.commitPtr
  let r := x.record ++ ((List.range vals.length).map (· + c)).zip vals
  { x with record := r.filter fun p => decide (min x.e.ckptPos (c + vals.length - 16) ≤ p.1) }

/-- Prompt tokens are released: the pointers advance and the tokens enter the log (R56). -/
def Stream.promptReleased (keyLen : Nat) (toks : List Nat) (x : Stream) : Stream :=
  let y := toks.foldl (fun (y : Stream) v => y.logToken keyLen v) (x.recordTokens (toks.map (· + 2 ^ 18)))
  { y with e := { y.e with commitPtr := y.e.commitPtr + toks.length, lengthPtr := y.e.commitPtr + toks.length,
                           rewindMark := y.e.commitPtr + toks.length } }

/-! ### The input state at COMMIT_PTR (R252, R253) -/

/-- The input side of a screening state. -/
def inputOf (a b : Screen) : Screen :=
  { b with inStates := a.inStates, inFp := a.inFp, windows := a.windows, accums := a.accums, byteCount := a.byteCount,
           inTok := a.inTok, normIds := a.normIds }

/-- Step the input side of `r` over tokens (position, id): automata, byte count, fingerprint windows; LAST_HIT from the
results kept per position. -/
def State.stepInput (s : State) (e : Entry) (hits : List (Nat × Nat × Bool)) (toks : List (Nat × Nat)) (r : Screen) : Screen :=
  let c := s.ctx e.ctx
  match tget s.vocabs e.vocab with
  | none => r
  | some v =>
    let states := ((c.patternSets e.imagePins).filter (·.input)).foldl (fun (t : Tbl Nat) p =>
      tset t p.index (stepTokens p v ⟨stateAt r.inStates p.index, r.byteCount, r.inTok, []⟩ toks).state) r.inStates
    let sel := c.fpSel e.imagePins
    let fps := (s.fpSets sel e.vocab false).foldl (fun (t : Tbl FpWindow) q =>
      let w := toks.foldl (fun (w : FpWindow) k => (FpWindow.step q.2.n k.1 (fpToken sel v e.vocab k.2) w).1) (windowAt r.inFp q.1.set)
      let last := (hits.filter fun h => h.2.1 == q.1.set && (toks.any fun k => k.1 == h.1)).getLast?
      tset t q.1.set { w with lastHit := match last with | some h => h.2.2 | none => w.lastHit }) r.inFp
    let m := walkMap v r.byteCount r.inTok toks
    { r with inStates := states, inFp := fps, byteCount := m.1, inTok := m.2 }

/-! ### RELEASE_IN (R66) -/

/-- The packet of a chunk with every release field at its REFUSED form. -/
def Item.releaseIn (it : Item) (b : ChunkBody) (now : Nat) : ReleaseIn :=
  { port := it.port, time := now, stream := it.stream, status := 0, disp := 3, verdict := 0, late := false, handleStatus := it.handleStatus,
    tag := it.tag, seq := b.seq, count := b.count, blockSource := 0, relStart := b.start, relEnd := b.start, intakeEnd := b.stop,
    rule := 0, matchStart := 0, stamp := it.stamp, resent := false }

/-- The stream that an answer belongs to. -/
def Item.sender (it : Item) : Option Nat := if it.owned then some it.stream else none

def State.sendIn (it : Item) (r : ReleaseIn) (s : State) : State := s.handOff ⟨it.domain, it.port, it.entry.ctx, it.sender, 0, 0, .releaseIn r⟩

/-- Chunks of a stream accepted and not yet answered are answered REFUSED with E_STATE (R64). -/
def State.refuseChunks (sid : Nat) (s : State) : State :=
  { s with items := s.items.map fun (p : Nat × Item) =>
      if p.2.owned ∧ p.2.stream = sid ∧ p.2.isChunk ∧ p.2.refused.isNone ∧ p.2.cut.isNone ∧ !p.2.answered then
        (p.1, { p.2 with refused := some E.state }) else p }

/-- A BLOCK ends the stream: DRAINING with a close reason, later chunks refused, no run end outstanding of its own. -/
def State.blockStream (sid reason : Nat) (s : State) : State := (s.refuseChunks sid).drain sid reason

/-- A save is given up with a status, reported in a SNAPSHOT event (R45). -/
def State.giveUpSave (sid code : Nat) (s : State) : State :=
  match s.stream sid with
  | none => s
  | some x =>
    (s.modStream sid fun x => { x with snapStatus := code }).event x.admInst Ev.snapshot x.e.ctx sid s.count
      (leBytes 1 code ++ List.replicate 7 0 ++ leBytes 8 x.e.handle)

/-- A SAVE prefix is complete: the snapshot is written when every prefix chunk was PASS, or the save is given up (R45,
R48). -/
def State.saveSnapshot (sid : Nat) (after : Screen) (held : List Nat) (s : State) : State :=
  match s.stream sid with
  | none => s
  | some x =>
    if !x.prefixPass then s.giveUpSave sid E.state
    else
      let toks := x.prefixToks
      let bytes := Config.snapshotBytes s.freshCtr
      let room := s.fresh.fitSnapshot bytes
      if !room.1 then room.2.giveUpSave sid E.capacity
      else
        let ps := room.2.allocRegion 1 (pagesOf bytes)
        let s1 := room.2
        let n : Snapshot :=
          { ctx := x.e.ctx, gen := (s.ctx x.e.ctx).gen, handle := x.e.handle, vocab := x.e.vocab, length := toks.length, heldIds := held,
            digest := sha256 (leBytes 1 x.e.vocab ++ toks.flatMap (leBytes 4)), imagePins := x.e.imagePins,
            adapterPins := x.e.adapterPins
            screen := { inputOf after x.screen with held := held, models := after.models, summary := x.screen.summary, origin := x.screen.origin }
            atCommit := { x.rel with models := after.models, summary := x.screen.summary, origin := x.screen.origin },
            log := x.log, index := x.index, bytes := bytes, lastRestore := 0, readers := 0, pages := ps }
        (s1.modStream sid fun x => { x with saving := some n }).newWrite .snapWrite x.e.ctx (some sid) ps

/-- The prompt summary that a chunk gives once every slice of the first prompt guard has run (R150; log 30). -/
def State.chunkSummary (s : State) (it : Item) (b : ChunkBody) : Option (List Fp32) :=
  (((s.itemCtx it).promptGuards it.pins).head?).bind fun m =>
    if b.slices.all fun l => l.model != m.modelId || l.scores.isSome then tget b.vectors m.modelId else none

/-- What a chunk's answer does to its stream beyond the packet: `rel` tokens of its span are released, `keep` more are
held on, `lost` says that the rest is withheld. -/
def State.chunkReleased (n : Nat) (it : Item) (b : ChunkBody) (rel : Nat) (lost : Bool) (s : State) : State :=
  match s.stream it.stream with
  | none => s
  | some x =>
    let span := x.rel.held ++ b.toks
    let out := span.take rel
    let held := if lost then [] else span.drop rel
    let first := b.start - x.rel.held.length
    let relIn := if held.isEmpty then inputOf b.after x.rel
      else s.stepInput x.e x.inHits ((List.range out.length).map (· + first) |>.zip out)
        { inputOf b.after x.rel with inStates := x.rel.inStates, inFp := x.rel.inFp, byteCount := x.rel.byteCount, inTok := x.rel.inTok }
    let summary := (s.chunkSummary it b).getD x.screen.summary
    let s1 := s.modStream it.stream fun x =>
      let y := x.promptReleased (it.setting Setting.copyKey) out
      { y with
        rel := { relIn with held := held }, heldIn := held.length
        inHits := x.inHits.filter fun h => decide (first + out.length ≤ h.1)
        e := { y.e with holdback := held.length }
        screen := { y.screen with summary := if out.isEmpty then y.screen.summary else summary, origin := if lost then y.screen.origin else b.origin } }
    let s2 := if b.pfxEnd then s1.saveSnapshot it.stream b.after held else s1
    s2.modItem n fun it => { it with answered := true }

/-- The output windows at the start of a run: those that include the prompt are primed from its last tokens (R98). -/
def State.primedFp (s : State) (x : Stream) : Tbl FpWindow :=
  let sel := (s.ctx x.e.ctx).fpSel x.e.imagePins
  match tget s.vocabs x.e.vocab with
  | none => x.screen.outFp
  | some v => (s.fpSets sel x.e.vocab true).foldl (fun (t : Tbl FpWindow) q =>
      if q.1.spanPrompt then
        let toks := (List.range x.log.length).zip x.log
        let w := toks.foldl (fun (w : FpWindow) k =>
          (FpWindow.step q.2.n (x.logCount - x.log.length + k.1) (fpToken sel v x.e.vocab k.2) w).1) FpWindow.empty
        tset t q.1.set w
      else tset t q.1.set FpWindow.empty) []

/-- The RELEASE_IN of a chunk marked LAST turns its stream to GENERATING (R39). -/
def State.turnGenerating (sid : Nat) (s : State) : State :=
  match s.stream sid with
  | none => s
  | some x =>
    if x.e.phase ≠ .intake ∨ x.e.state = .draining then s
    else
      let fps := s.primedFp x
      s.modStream sid fun x =>
        { x with e := x.e.turn .generating, reachedGen := true, screen := { x.screen with outFp := fps }, rel := { x.rel with outFp := fps } }

/-- The answer of an accepted, screened chunk whose verdict is final (R63, Table 3.5), marked LATE or not. A withheld chunk
whose screening goes on under WITHHOLD stays until it is done (R64, R150). -/
def State.answerChunk (n : Nat) (late : Bool) (s : State) : State :=
  match s.item n with
  | none => s
  | some it =>
    match it.body, s.stream it.stream with
    | .chunk b, some x =>
      let v := it.final.getD 0
      let start := b.start - x.rel.held.length
      let stop := if v = vBlock then start else max start b.hold
      let r := it.reason
      let pkt := { it.releaseIn b s.count with disp := if v = vBlock then 1 else 0, verdict := v, late := late, blockSource := r.1, rule := r.2.1,
                                               matchStart := r.2.2, relStart := start, relEnd := stop }
      let s1 := (s.sendIn it pkt).modStream it.stream fun x =>
        { x with e := x.e.verdictWith v late, prefixPass := x.prefixPass && v == vPass }
      let s2 := s1.chunkReleased n it b (stop - start) (v == vBlock)
      let s3 := (if b.last then s2.turnGenerating it.stream else s2).captureIfDue it.stream
      if v = vBlock ∧ (it.abort ∨ it.setting Setting.inputBlock = 1) then (s3.dropItem n).blockStream it.stream 8
      else if b.evaluated then s3.dropItem n else s3
    | _, _ => s

/-- The LATE_REPORT of a chunk released under PASS_MARKED (Table 3.7). -/
def State.reportChunk (n : Nat) (s : State) : State :=
  match s.item n with
  | none => s
  | some it =>
    match it.chunk? with
    | none => s
    | some b =>
      let v := it.final.getD 0
      let r := it.reason
      let pkt := { it.releaseIn b s.count with disp := 5, verdict := v, late := true, blockSource := r.1, rule := r.2.1, matchStart := r.2.2,
                                               relStart := b.stop, relEnd := b.stop }
      let s1 := ((s.sendIn it pkt).modEntry it.stream (·.verdictWith v true)).dropItem n
      if v = vBlock then s1.blockStream it.stream 8 else s1

/-- The late policy of a chunk not ready at its release time (Table 3.7). A prefix chunk released UNDECIDED has not received
PASS, whatever its later verdict: DESIGN CHOICE, R45 does not say (log 103). -/
def State.lateChunk (n : Nat) (s : State) : State :=
  match (s.countLate n).item n with
  | none => s
  | some it =>
    let s := s.countLate n
    match it.body, s.stream it.stream with
    | .chunk b, some x =>
      let start := b.start - x.rel.held.length
      match it.setting Setting.latePolicy with
      | 0 =>
        let pkt := { it.releaseIn b s.count with disp := 1, verdict := vBlock, late := true, blockSource := 5, relStart := start, relEnd := start }
        let s1 := (s.sendIn it pkt).modStream it.stream fun x => { x with e := x.e.verdictWith vBlock true, prefixPass := false }
        ((s1.chunkReleased n it b 0 true).dropItem n).blockStream it.stream 9
      | 1 => (s.modItem n fun it => { it with overdue := true }).modEntry it.stream (·.hold true false false)
      | _ =>
        let pkt := { it.releaseIn b s.count with disp := 0, verdict := vUndecided, late := true, relStart := start, relEnd := b.stop }
        let s1 := (s.sendIn it pkt).modStream it.stream fun x =>
          { x with e := { x.e with verdictLate := true, lateSeen := true }, prefixPass := false }
        let s2 := s1.chunkReleased n it b (b.stop - start) false
        (if b.last then s2.turnGenerating it.stream else s2).captureIfDue it.stream
    | _, _ => s

/-- An answer that the verdict has no part in: refused, cut by a fault or reset, or a verified prefix (R47, R64, R66,
R346, R414, R415). -/
def State.plainIn (n : Nat) (it : Item) (b : ChunkBody) (s : State) : State :=
  let base := it.releaseIn b s.count
  let s := if (it.refused.isSome || it.cut.isSome) && b.pfxEnd && !b.pfx && it.handleStatus != hsNone && it.owned then s.giveUpSave it.stream E.state else s
  match it.refused, it.cut with
  | some e, _ => (s.sendIn it { base with status := e }).dropItem n
  | none, some e =>
    match s.stream it.stream with
    | none => s.dropItem n
    | some x =>
      let c := x.e.commitPtr
      let held := x.rel.held.length
      let pkt := if e = E.context then { base with status := e, disp := 1, relStart := b.start - held, relEnd := b.start - held }
        else { base with status := e, disp := 1, relStart := c, relEnd := c, intakeEnd := c }
      let s1 := (s.sendIn it pkt).dropItem n
      if e = E.context then s1.modStream it.stream fun x => { x with rel := { x.rel with held := [] }, heldIn := 0, heldOut := [], e := { x.e with holdback := 0 } } else s1
  | none, none => (s.sendIn it { base with disp := 2 }).dropItem n

/-! ### RELEASE_OUT (R217) -/

def clientNone : Nat := 0xFFFFFFFF

/-- The packet of an item that commits, releases and withholds nothing: `c` is COMMIT_PTR, `h` the held tokens. -/
def Item.releaseOut (it : Item) (b : CandBody) (c h now : Nat) : ReleaseOut :=
  { port := it.port, time := now, stream := it.stream, status := 0, disp := 3, verdict := 0, undecided := false, late := false,
    endReason := 0, tag := it.tag, first := c, commit := 0, decided := 0, accepted := 0, held := h, relStart := c - h, relEnd := c - h,
    withheldEnd := c - h, clientEnd := clientNone, blockSource := 0, round := b.round, rule := 0, stamp := it.stamp, toks := [],
    resent := false }

/-- The hot slot of an item's stream; a stream without one has its number for it (R224; log 107). -/
def State.hotOf (s : State) (sid : Nat) : Nat := ((s.stream sid).bind (·.e.hotSlot)).getD sid

/-- Positions that an item buffers, from stamp to release: a refused one none (R224). -/
def Item.room (it : Item) : Nat := if it.owned && it.refused.isNone then (match it.cand? with | some b => b.positions.length | none => 0) else 0

/-- Until it leaves, the packet of an item holds the item's pipeline buffer (R280). -/
def State.sendOut (it : Item) (r : ReleaseOut) (s : State) : State :=
  s.handOff ⟨it.domain, it.port, it.entry.ctx, it.sender, s.hotOf it.stream, it.room, .releaseOut r⟩

/-- The pointers, held tokens and ring after a RELEASE_OUT (Table 10.6): `toks` are committed, the span up to `keep` is
resolved. -/
def Stream.outputReleased (toks : List Nat) (keep : Nat) (x0 : Stream) : Stream :=
  let x := x0.recordTokens toks
  let c := x.e.commitPtr + toks.length
  let all := x.heldOut ++ toks
  let first := x.e.commitPtr - x.heldOut.length
  let held := all.drop (keep - first)
  { x with
    heldOut := held
    e := { x.e with commitPtr := c, lengthPtr := c, rewindMark := c, holdback := held.length }
    screen := { x.screen with ring := (x.screen.ring.filter fun r => decide (keep ≤ r.2.position) && decide (r.2.position < c)).map fun r =>
      (r.1, { r.2 with held := true, committed := true }) } }

/-- The DRAFT that follows a RELEASE_OUT (R15, R238, Table 10.6): its tokens are stepped from the committed state, and the ring keeps
the chain (R83, R84). No proposal was formed for a stream that is not GENERATING or HELD now (R231). -/
def State.sendDraft (it : Item) (b : CandBody) (s : State) : State :=
  match b.draft, s.stream it.stream, tget s.vocabs it.entry.vocab with
  | some d, some x, some v =>
    if !(x.e.state == .generating ∨ x.e.state == .held) then s
    else
      let s0 := if d.truncated then s.ctxCount it.entry.ctx Cnt.truncated else s
      let s1 := if d.cut = 0 then s0 else s0.ctxCountBy it.entry.ctx Cnt.cut d.cut
      if d.toks.isEmpty then s1
      else
        let src := ((indexed d.neural).map fun p => if p.2 then 2 ^ p.1 else 0).sum
        let c := x.e.commitPtr
        let pkt : DraftOut := ⟨it.port, s.count, it.stream, d.probe, c, it.tag, src, d.toks, false⟩
        match ringWrite x.screen.ring (s.draftEntries it x v c x.screen.gram (d.toks.map fun t => (t.1, true))) with
        | none => s1.loseRewind it.stream
        | some ring =>
          ((s1.handOff ⟨it.domain, it.port, it.entry.ctx, it.sender, 0, 0, .draft pkt⟩).modStream it.stream fun x =>
            { x with proposal := some { d with first := c }, e := { x.e with lengthPtr := c + d.toks.length }, screen := { x.screen with ring := ring } }).ctxCountBy
              it.entry.ctx Cnt.proposed d.toks.length
  | _, _, _ => s

/-- COMMITTED or EXTEND_REQUEST (R213, R214): the span up to the hold point is released; tokens that END's BLOCK event
takes with it are withheld (R215). `v` is the verdict shown. -/
def State.commitOut (n v : Nat) (late : Bool) (it : Item) (b : CandBody) (s : State) : State :=
  match s.stream it.stream with
  | none => s
  | some x =>
    let c := x.e.commitPtr
    let h := x.heldOut.length
    let start := c - h
    let stop := max start (min b.holdPoint (c + b.chosen.length))
    let wend := if b.endBlock.isSome then c + b.chosen.length else stop
    let shown := match b.endBlock with | some _ => vBlock | none => v
    let src := match b.endBlock with | some e => (1, e.rule) | none => (0, 0)
    let pkt := { it.releaseOut b c h s.count with
      disp := if b.exhausted.isSome then 2 else 0, verdict := shown, undecided := it.undecided && v != vUndecided, late := late,
      endReason := b.endReason, commit := b.chosen.length, decided := b.decided, accepted := b.accepted,
      held := c + b.chosen.length - wend, relStart := start, relEnd := stop, withheldEnd := wend,
      clientEnd := match b.stopHit with | some p => p.1 | none => clientNone,
      blockSource := src.1, rule := src.2, round := b.exhausted.getD b.round, toks := b.chosen }
    let s1 := (s.sendOut it pkt).modStream it.stream fun x =>
      { (x.outputReleased b.chosen wend) with e := (x.outputReleased b.chosen wend).e.verdictWith (if v = vUndecided then vPass else shown) late }
    let s2 := (s1.captureIfDue it.stream).modItem n fun it => { it with answered := true }
    let s3 := if b.endReason = 0 then s2.sendDraft it b else s2.drain it.stream b.endReason
    s3

/-- The answer of a ready item (R213, R214, R223). -/
def State.answerCand (n : Nat) (late : Bool) (s : State) : State :=
  match s.item n with
  | none => s
  | some it =>
    match it.body, s.stream it.stream with
    | .cand b, some x =>
      let v := it.final.getD 0
      if v = vBlock then
        let c := x.e.commitPtr
        let h := x.heldOut.length
        let r := it.reason
        let pkt := { it.releaseOut b c h s.count with
          disp := 1, verdict := v, undecided := it.undecided, late := late, commit := b.chosen.length, decided := b.decided,
          accepted := b.accepted, held := 0, withheldEnd := c + b.chosen.length, blockSource := r.1, rule := r.2.1, endReason := b.endReason }
        let s1 := (s.sendOut it pkt).modStream it.stream fun x =>
          let y := x.outputReleased b.chosen (c + b.chosen.length)
          { y with e := y.e.verdictWith v late }
        ((s1.captureIfDue it.stream).dropItem n).drain it.stream 8
      else ((s.commitOut n v late it b).dropItem n)
    | _, _ => s

/-- The LATE_REPORT of an item released under PASS_MARKED (Table 9.9). -/
def State.reportCand (n : Nat) (s : State) : State :=
  match s.item n with
  | none => s
  | some it =>
    match it.body, s.stream it.stream with
    | .cand b, some x =>
      let v := it.final.getD 0
      let c := x.e.commitPtr
      let h := x.heldOut.length
      let r := it.reason
      let pkt := { it.releaseOut b c h s.count with
        disp := 5, verdict := v, undecided := it.undecided, late := true, held := if v = vBlock then 0 else h,
        withheldEnd := if v = vBlock then c else c - h, blockSource := r.1, rule := r.2.1 }
      let s1 := ((s.sendOut it pkt).modEntry it.stream (·.verdictWith v true)).dropItem n
      if v = vBlock then (s1.modStream it.stream (Stream.outputReleased [] c)).drain it.stream 8 else s1
    | _, _ => s

/-- Decisions are discarded: LENGTH_PTR returns to COMMIT_PTR, and what a ring entry keeps returns to its committed value: the OUTPUT
sets, the grammar, the byte count, the output count, and the fingerprint windows with LAST_HIT (R109, R211, R242). -/
def Stream.discard (b : CandBody) (x : Stream) : Stream :=
  let y := x.dropProposal
  match b.prior with
  | none => y
  | some p =>
    { y with
      screen := { y.screen with outStates := p.outStates, outFp := p.outFp, normIds := p.normIds, byteCount := p.byteCount, outTok := p.outTok,
                                gram := p.gram, outputCount := p.outputCount, ring := p.ring.filter fun r => r.2.held || r.2.committed }
      rel := { y.rel with byteCount := p.byteCount } }

/-- The late policy of an item not ready at its release time (Table 9.9). -/
def State.lateCand (n : Nat) (s : State) : State :=
  match (s.countLate n).item n with
  | none => s
  | some it =>
    let s := s.countLate n
    match it.body, s.stream it.stream with
    | .cand b, some x =>
      let c := x.e.commitPtr
      let h := x.heldOut.length
      let policy := it.setting Setting.latePolicy
      if policy = 0 then
        let pkt := { it.releaseOut b c h s.count with disp := 1, verdict := vBlock, late := true, blockSource := 5, held := 0, withheldEnd := c }
        let s1 := (s.sendOut it pkt).modStream it.stream fun x =>
          let y := (x.discard b).outputReleased [] c
          { y with e := y.e.verdictWith vBlock true }
        (s1.dropItem n).drain it.stream 9
      else if policy = 2 ∧ b.committed then s.commitOut n vUndecided true it b
      else (s.modItem n fun it => { it with overdue := true }).modEntry it.stream (·.hold true false false)
    | _, _ => s

/-- The answer of a refused item; unless an accepted one of the stream is in hand, LENGTH_PTR returns to COMMIT_PTR and the uncommitted
ring entries go (R242). -/
def State.refusedOut (n : Nat) (it : Item) (r : ReleaseOut) (s : State) : State :=
  let busy := (s.itemsOf it.stream).any fun p => p.1 != n && p.2.live && !p.2.isChunk && !p.2.answered
  let s1 := s.sendOut it r
  if busy then s1 else s1.modStream it.stream Stream.dropDrafts

/-- An answer that the verdict has no part in (R198, R216, R245, R346, R414, R415). An expiring item carries the run's
ending when its stream has one (R215). -/
def State.plainOut (n : Nat) (it : Item) (b : CandBody) (s : State) : State :=
  if !it.owned then
    (s.sendOut it { it.releaseOut b it.entry.commitPtr 0 s.count with status := it.refused.getD 0, round := 0 }).dropItem n
  else
    match s.stream it.stream with
    | none => s.dropItem n
    | some x =>
      let c := x.e.commitPtr
      let h := x.heldOut.length
      let base := it.releaseOut b c h s.count
      match it.refused, it.cut with
      | some e, _ =>
        match x.runEnd with
        | some r =>
          if r.carrier = some n then
            let pkt := { base with
              status := e, verdict := r.verdict, endReason := r.reason, blockSource := r.source, rule := r.rule, held := 0,
              relEnd := if r.withhold then c - h else c, withheldEnd := c, round := if b.extend then b.round else 0 }
            (((s.sendOut it pkt).modStream it.stream fun x => { ((x.outputReleased [] c).forget true r.stamp) with runEnd := none }).countContexts
              x.e.ctx r.stamp r.pins r.counts).dropItem n
          else (s.refusedOut n it { base with status := e, round := if b.extend then b.round else 0 }).dropItem n
        | none => (s.refusedOut n it { base with status := e, round := if b.extend then b.round else 0 }).dropItem n
      | none, some e =>
        let pkt :=
          if e = E.context then { base with status := e, disp := 1, held := 0, withheldEnd := c }
          else if e = 0 then { base with disp := 1, verdict := vBlock, blockSource := 4 }
          else { base with status := e, disp := 1 }
        let s1 := (s.sendOut it pkt).dropItem n
        if e = E.context then s1.modStream it.stream (Stream.outputReleased [] c)
        else s1.modStream it.stream fun x => if e = 0 then x.discard b else x
      | none, none => s.dropItem n

/-! ### RUN_END (R215, R216) -/

/-- The RUN_END packet of a stream whose run has ended without an item to carry it. -/
def State.sendRunEnd (sid : Nat) (x : Stream) (r : RunEnd) (s : State) : State :=
  let c := x.e.commitPtr
  let h := x.heldOut.length
  let port := s.releasePort x
  let pkt : ReleaseOut :=
    { port := port, time := s.count, stream := sid, status := 0, disp := 4, verdict := r.verdict, undecided := false, late := false,
      endReason := r.reason, tag := 0, first := c, commit := 0, decided := 0, accepted := 0, held := 0, relStart := c - h,
      relEnd := if r.withhold then c - h else c, withheldEnd := c, clientEnd := clientNone, blockSource := r.source, round := 0,
      rule := r.rule, stamp := r.stamp, toks := [], resent := false }
  ((s.handOff ⟨x.e.domain, port, x.e.ctx, some sid, 0, 0, .releaseOut pkt⟩).modStream sid fun x =>
    { ((x.outputReleased [] c).forget true r.stamp) with runEnd := none, lastActive := s.count }).countContexts x.e.ctx r.stamp r.pins r.counts

end Sys2Proof.Machine
end

