-- ==== Sys2Proof/Machine/Intake.lean ====
section
/-! DEFINITION. Prompt intake: the checks at a chunk's stamp, the intake projection, FOLLOW moves, intake tasks, lookups,
slices and firings (R51 to R65, R69, R86, R93, R98, R107, R134, R136, R150, R153, R192). -/

namespace Sys2Proof.Machine

/-! ### The packet (R52, R53, R282) -/

/-- A CHUNK header flit and its token fields. -/
structure ChunkPkt where
  stream : Nat
  count : Nat
  flags : Nat
  tag : Nat
  seq : Nat
  toks : List Nat
  bad : Bool
  deriving DecidableEq, Repr

/-- Token fields of a packet from an offset. -/
def tokenFields (p : Bytes) (off n : Nat) : List Nat := (List.range n).map fun k => field p (off + 4 * k) 4

def ChunkPkt.of (p : Bytes) : ChunkPkt :=
  let n := field p 0x12 2
  let flits := 1 + ceilDiv n 16
  let ts := tokenFields p 64 (min n ((p.length - 64) / 4))
  { stream := field p 0x10 2 % 16384, count := n, flags := field p 0x14 1, tag := field p 0x16 2, seq := field p 0x18 4, toks := ts
    bad := decide (16384 ≤ field p 0x10 2) || bits (field p 0x14 1) 3 3 != 0 || bits (field p 0x14 1) 7 7 != 0 || !zeroRange p 0x15 1 ||
      !zeroRange p 0x1C 36 || Hdr.flits p != flits || p.length != 64 * flits || !ts.all tokenOk ||
      !zeroRange p (64 + 4 * n) (64 * flits - 64 - 4 * n) }

def ChunkPkt.last (c : ChunkPkt) : Bool := bit c.flags 0
def ChunkPkt.pfx (c : ChunkPkt) : Bool := bit c.flags 1
def ChunkPkt.pfxEnd (c : ChunkPkt) : Bool := bit c.flags 2
def ChunkPkt.origin (c : ChunkPkt) : Nat := bits c.flags 6 4

/-- Flags outside R53's combinations, or a reserved ORIGIN. Prefix modes: 0 none, 1 USE_VERIFY, 2 USE_TRUSTED,
3 SAVE. -/
def ChunkPkt.illegal (c : ChunkPkt) (x : Stream) : Bool :=
  let verify := x.e.prefixMode == 1 && !x.e.handleRefused && !x.prefixDone
  (c.pfx && !verify) || (c.pfxEnd && (x.prefixDone || !(x.e.prefixMode == 3 || (verify && c.pfx)))) || (c.last && c.pfx) ||
    (c.count == 0 && !c.last) || decide (5 < c.origin)

/-! ### Items of a stream -/

/-- Accepted items of a stream that are still screened, oldest first. -/
def State.liveOf (s : State) (sid : Nat) : List (Nat × Item) := (s.itemsOf sid).filter fun p => p.2.live

def State.unanswered (s : State) (sid : Nat) : List (Nat × Item) := (s.liveOf sid).filter fun p => !p.2.answered

/-- A context is a suspect that has neither passed its replay nor been reset: it releases nothing (R20, R352, R354). -/
def State.awaits (s : State) (c : Nat) : Bool := s.hangs.any fun h => h.2.suspects.contains c

/-- The replay of a suspect runs now (R353). -/
def State.replays (s : State) (c : Nat) : Bool := s.hangs.any fun h => h.2.replaying == some c

/-- A suspect that waits for its replay: frozen, its work at rest. -/
def State.frozenOut (s : State) (c : Nat) : Bool := s.awaits c && !s.replays c

/-- A context waits for the replay of a hang, and the item is not one that the replay re-runs now (R352, R353). -/
def State.suspended (s : State) (c stamp : Nat) : Bool :=
  s.awaits c && !(s.hangs.any fun h => h.2.replaying == some c && decide (stamp ≤ h.2.since))

/-- A unit runs no work of a context: it is involved in a hang, or the context is frozen (R353). -/
def State.barred (s : State) (u : UnitId) (c : Nat) : Bool :=
  !s.replays c && (s.awaits c || s.hangs.any fun h => h.2.engines.contains u)

/-- Screening of an item stalls while HOST holds its stream or its context waits for a replay; LATE alone stalls nothing
(R41, R352). -/
def State.stalled (s : State) (x : Stream) (stamp : Nat) : Bool :=
  (x.e.state == .held && x.e.host) || s.suspended x.e.ctx stamp

/-- Bytes that a run of tokens presents. -/
def State.tokenBytes (s : State) (v : Nat) (toks : List Nat) : Nat :=
  match tget s.vocabs v with
  | none => 0
  | some t => (toks.map (tokenLen t)).sum

/-! ### The intake projection (R60, R186, Table 3.3; log 32) -/

/-- Pool engines of powered rows that no hang involves. -/
def State.poolReady (s : State) : List Nat :=
  let gates := s.reserving.flatMap fun p => p.2.gateEngines
  (s.working 64 .hearth).filter fun e => !gates.contains e && !(s.hangs.any fun h => h.2.engines.contains (.hearth e)) && ((s.rows.map fun (r : Row) => r.power == .active).getD (e / 8) false)

/-- The largest chain that free engines carry. -/
def chainLen (cost free : Nat) : Nat → Nat
  | 0 => 0
  | c + 1 => if ceilDiv ((c + 1) * cost) 500 ≤ free then c + 1 else chainLen cost free c

/-- Slices of one chunk and model still to run: chunk, stream, model, cost, the longest chain, how many, the first firing
that may take them, the keys of R35, and whether they are resolver slices (R59, R134, R186). -/
structure Demand where
  item : Nat
  stream : Nat
  model : Nat
  cost : Nat
  chain : Nat
  left : Nat
  elig : Nat
  order : List Nat
  res : Bool
  deriving DecidableEq, Repr

/-- Slices of a stream and model go into chains of their own, resolver slices apart. -/
def Demand.key (d : Demand) : Nat := (2 * d.stream + b2n d.res) * 2 ^ 32 + d.model

/-- Cost of a slice of a model for a stream, with its pinned adapters, those of the source for a resolver (R134, R156, R185). -/
def State.sliceCost (s : State) (e : Entry) (target : Nat) (m : Model) : Nat :=
  m.sliceCost + (((s.passEnv e 512 none).adapters.filter fun a => a.target == target).map (·.sliceCostAdd)).sum

/-- The order of R35: priority, absolute deadline, stamp; smaller first. -/
def Item.rank (it : Item) : List Nat :=
  [7 - it.entry.priority, if it.entry.deadline = 0 then 2 ^ 64 else it.entry.admitStamp + it.entry.deadline, it.stamp]

/-- The worse of two ranks. -/
def worseRank (a b : List Nat) : List Nat := if keyLe a b then b else a

/-- The order of R35 among a stream's and other chunks: a chunk's slices follow those of its stream's earlier chunks, so it ranks no
better than they do. Only chunks that still have slices to run count. -/
def State.effectiveRank (s : State) (p : Nat × Item) : List Nat :=
  (s.items.filter fun q => q.2.owned && q.2.stream == p.2.stream && q.2.live && decide (q.1 < p.1) &&
    (q.2.chunk?.any fun b => !b.pfx && (!b.begun || b.slices.any fun l => l.scores.isNone))).foldl (fun r q => worseRank r q.2.rank) p.2.rank

/-- Live chunks in the order of R35. -/
def State.chunksInOrder (s : State) : List (Nat × Item) :=
  (sortBy (fun (a b : List Nat × Nat × Item) => keyLe (a.1 ++ [a.2.1]) (b.1 ++ [b.2.1]))
    ((s.items.filter fun p => p.2.live && p.2.isChunk).map fun p => (s.effectiveRank p, p))).map (·.2)

/-- The first firing boundary at or after a count. -/
def nextFiring (t : Nat) : Nat := ceilDiv t 500

/-- When an item's tokens are detokenised at the latest (Table 3.4), its restore done. -/
def intakeReady (it : Item) (count : Nat) : Nat :=
  let cold := if it.entry.hotSlot.isNone then 400 else 0
  let rest := if it.entry.restoring then it.entry.admitStamp + 1100 else 0
  max (it.stamp + 10 + ceilDiv count 14 + cold) rest

/-- When slices ready at `t` have their rows awake: at once if powered pool engines carry a full chain or no row is gated,
otherwise when a wake that begins then, or has begun, is complete (R59, R136, Table 6.6). -/
def State.awakeAt (s : State) (cost chain t : Nat) : Nat :=
  let off := s.rows.filter fun r => r.power != .active
  if ceilDiv (chain * cost) 500 ≤ s.poolReady.length then t
  else maxOf (t :: off.map fun r => (if r.waking then r.lastPacked else t) + if r.power == .off then 1500 else 300)

/-- The first firing after the one whose chains run. -/
def State.firingEnd (s : State) : Nat :=
  maxOf (s.chains.flatMap fun c => c.engines.map fun e => (s.rows.map (·.lastPacked)).getD (e / 8) 0 / 500 + 1)

/-- Longest chain of a model (R134). -/
def longestChain (m : Model) : Nat := min 4 (max 1 m.maxChain)

/-- The resolver slices that a chunk is charged for under RESOLVE, one demand for each source, eligible from a firing (R186). -/
def State.follows (s : State) (n : Nat) (it : Item) (b : ChunkBody) (elig : Nat) : List Demand :=
  let c := s.itemCtx it
  if it.setting Setting.undecidedIn = 1 ∧ it.final.isNone then
    ((c.promptGuards it.pins).filterMap fun m =>
      ((c.ensemble it.pins 0).bind fun e => (e.resolvers.find? fun r => r.1 == m.modelId).bind fun r => c.modelById it.pins r.2).map fun r =>
        ⟨n, it.stream, r.modelId, s.sliceCost it.entry m.modelId r, longestChain r,
          if it.resolving then (it.band.filter fun q => q.1 == m.modelId && q.2.2.isNone).length else ceilDiv b.toks.length 64,
          elig, s.effectiveRank (n, it), true⟩).filter fun d => decide (0 < d.left)
  else []

/-- A gate evaluation at the bound of Table 8.10 after the last feature. -/
def State.evalBound (s : State) (it : Item) : Nat :=
  match (s.itemCtx it).ensemble it.pins 0 with
  | none => 0
  | some e => 10 + ceilDiv (maxOf (e.pages.map fun p => ceilDiv (nodeTotal p) 4096) + 24) 14

/-- Resolver slices to come once every guard score of their chunk is there: the chunk and its demands. -/
abbrev Later := Nat × List Demand

/-- What a chunk whose other features come at `feat` still asks of the firings; its resolver slices, at once or after its guard
scores; and the end of the firing that its packed slices are in. -/
def State.demands (s : State) (feat n : Nat) (it : Item) (b : ChunkBody) : List Demand × List Later × List (Nat × Nat) :=
  let next := max (nextFiring s.count) s.firingEnd
  let guards := (s.itemCtx it).promptGuards it.pins
  let mine := b.slices.filter fun l => l.scores.isNone && guards.any fun m => m.modelId == l.model
  let ds := guards.filterMap fun m =>
    let left := if b.begun then (mine.filter fun l => l.model == m.modelId && !l.packed).length else ceilDiv b.toks.length 64
    let cost := s.sliceCost it.entry m.modelId m
    let ready := s.awakeAt cost (longestChain m) (max s.count (intakeReady it b.count))
    if left = 0 then none else some ⟨n, it.stream, m.modelId, cost, longestChain m, left, max next (nextFiring ready), s.effectiveRank (n, it), false⟩
  let packed := b.begun && mine.any (·.packed)
  let after := if it.resolving then next else nextFiring (max s.count feat + s.evalBound it)
  let res := s.follows n it b (if packed then max (s.firingEnd + 1) after else after)
  if ds.isEmpty then (res, [], if packed then [(n, s.firingEnd)] else [])
  else (ds, if res.isEmpty then [] else [(n, res)], if packed then [(n, s.firingEnd)] else [])

/-- One projected firing: the free engines, each stream's ordinary slices, each chain's slices, what is held back, what
remains, and the chunks of which some model's slices ended in it. -/
structure Fill where
  free : Nat
  taken : List (Nat × Nat)
  runs : List (Nat × Nat)
  blocked : List Nat
  rest : List Demand
  ended : List Nat

def fillOne (firing : Nat) (a : Fill) (d : Demand) : Fill :=
  if firing < d.elig ∨ a.blocked.contains d.key then { a with rest := a.rest ++ [d], blocked := d.key :: a.blocked }
  else
    let had := countAt a.runs d.key
    let used := ceilDiv (had * d.cost) 500
    let room := min (d.chain - had) (if d.res then d.left else 4 - countAt a.taken d.stream)
    let k := chainLen d.cost (a.free + used) (had + min d.left room) - had
    let b := { a with
      free := a.free + used - ceilDiv ((had + k) * d.cost) 500
      taken := if d.res then a.taken else bump a.taken d.stream k
      runs := bump a.runs d.key k }
    if k = d.left then { b with ended := d.item :: b.ended }
    else { b with rest := b.rest ++ [{ d with left := d.left - k }], blocked := d.key :: b.blocked }

/-- Project firings until all work is done: the firings after which each chunk has some model's last scores. Resolver slices come two
firings after the one that gives their chunk its last guard score (R186). -/
def project (engines : Nat) : Nat → Nat → List Demand → List Later → List (Nat × Nat) → List (Nat × Nat)
  | 0, _, ds, later, acc => acc ++ (ds.map fun d => (d.item, 2 ^ 64)) ++ later.map fun l => (l.1, 2 ^ 64)
  | fuel + 1, f, ds, later, acc =>
    if ds.isEmpty then acc
    else
      let sorted := sortBy (fun (a b : Demand) => keyLe (b2n (!a.res) :: a.order) (b2n (!b.res) :: b.order)) ds
      let r := sorted.foldl (fillOne f) ⟨engines, [], [], [], [], []⟩
      let waits := fun (l : Later) => r.rest.any fun d => d.item == l.1 && !d.res
      let more := (later.filter fun l => !waits l).flatMap fun l => l.2.map fun d => { d with elig := max d.elig (f + 2) }
      project engines fuel (f + 1) (r.rest ++ more) (later.filter waits) (acc ++ r.ended.map fun i => (i, f + 1))

/-- Engine time of a firing that prompt slices may use, in 10 ns of one engine. -/
def State.hearthRemainder (s : State) : Nat := 32000 - 100 * s.resvSum (·.hearthShare) - 500 * s.failedHearths

/-- Occupancy and latency in fabric cycles of an intake task over `bytes` symbols of a set (Table 4.5, R86): the task start, a step for
each symbol, 12 cycles of it where the set has tier-1 states, FETCH_BOUND fetches for every 1,024 symbols, the result. That every
symbol may be the dearest that the tier counts allow is DEDUCED: R86 says only where the costs are taken from (log 32). -/
def taskCost (p : PatternSet) (bytes : Nat) : Nat × Nat :=
  (6 + bytes, 6 + bytes * (if p.tier1 = 0 then 1 else 12) + 1120 * p.fetchBound * ceilDiv bytes 1024 + 4)

/-- Grate and fingerprint work of the chunks in order: until when the lanes and the lookups they share are taken, the end of each
stream's steps, and when each chunk has these features. -/
structure Flow where
  lanes : Nat
  lookups : Nat
  perStream : List (Nat × Nat)
  ends : List (Nat × Nat)

/-- The sets of a chunk that are still to be stepped. -/
def State.setsLeft (s : State) (it : Item) (b : ChunkBody) : List PatternSet :=
  ((s.itemCtx it).patternSets it.pins).filter fun p => p.input && (!b.begun || b.tasks.contains p.index)

/-- Lookups of a chunk that are still to return. -/
def State.lookupsLeft (s : State) (it : Item) (b : ChunkBody) : Nat :=
  if b.begun then (b.lookups.filter fun l => l.result.isNone).length
  else (s.fpSets ((s.itemCtx it).fpSel it.pins) it.entry.vocab false).length * b.toks.length

/-- One chunk's work after that of the chunks before it (Table 3.3): each set continues from the stream's previous chunk, lanes and
lookups are shared in order, what has come asks for nothing. -/
def State.flowOne (s : State) (a : Flow) (p : Nat × Item) : Flow :=
  match p.2.chunk? with
  | none => a
  | some b =>
    if b.pfx then a
    else
      let bytes := s.tokenBytes p.2.entry.vocab b.toks
      let costs := (s.setsLeft p.2 b).map fun q => taskCost q bytes
      let looks := s.lookupsLeft p.2 b
      let wait := if p.2.entry.phase = .generating then p.2.setting Setting.dG else 0
      let start := intakeReady p.2 b.count + wait
      let begin := max start (countAt a.perStream p.2.stream)
      let lanes := if costs.isEmpty then a.lanes
        else max a.lanes begin + ceilDiv ((costs.map (·.1)).sum) (14 * max 1 (64 * (s.working 4 .grate).length))
      let grate := if costs.isEmpty then 0 else max s.count (max lanes (begin + ceilDiv (maxOf (costs.map (·.2))) 14))
      let lookups := if looks = 0 then a.lookups else max a.lookups start + ceilDiv (looks * 500) (max 1 (2000 * (4 - s.failedFp) / 4))
      let fp := if looks = 0 then 0 else max s.count lookups
      ⟨lanes, lookups, (a.perStream.filter fun q => q.1 != p.2.stream) ++ [(p.2.stream, max begin grate)], a.ends ++ [(p.1, max grate fp)]⟩

/-- Assay cycles per second that INPUT evaluations may use: what the OUTPUT charges leave (R190). -/
def State.inputShare (s : State) : Nat := 1400000000 * (4 - s.failedAssays) - s.assayCharge s.holds

/-- Assay cycles of a chunk's evaluations, charged as the OUTPUT page is, and again for the second evaluation that RESOLVE may bring
(R184, R190; DEDUCED, log 32). -/
def State.inputCycles (s : State) (it : Item) : Nat :=
  match (s.itemCtx it).ensemble it.pins 0 with
  | none => 0
  | some e => (e.pages.map fun p => ceilDiv (nodeTotal p) 4096 + 2).sum * (if it.setting Setting.undecidedIn = 1 ∧ !e.resolvers.isEmpty then 2 else 1)

/-- The Assay takes the evaluations of (item, feature end) in the order their features come: each is over by its release time. -/
def assayFits (rate : Nat) (s : State) (ends : List (Nat × Nat)) : Bool :=
  ((sortBy (fun (a b : Nat × Nat) => keyLe [a.2, a.1] [b.2, b.1]) ends).foldl (fun (a : Nat × Bool) e =>
    match s.item e.1 with
    | none => a
    | some it =>
      let cost := if it.final.isSome then 0 else s.inputCycles it
      let stop := max a.1 e.2 + ceilDiv (cost * 100000000) (max 1 rate)
      if cost = 0 then a else (stop, a.2 && decide (stop ≤ it.due))) (0, true)).2


/-- intake_fits: with the new chunk, every accepted unreleased chunk keeps its features 2.00 µs before its release. A chunk that is
late already, overdue under HOLD or answered under PASS_MARKED, has no such time left: it asks for resources and is not in the
test (DESIGN CHOICE, log 103). -/
def State.intakeFits (s : State) (n : Nat) (it : Item) (b : ChunkBody) : Bool :=
  let w := { s with items := tset s.items n (it.onChunk fun _ => b) }
  let all := w.items.filter fun p => p.2.live && p.2.isChunk && !(p.2.chunk?.any (·.pfx))
  let open_ := all.filter fun p => !p.2.answered && !p.2.late
  let flow := (all.foldl w.flowOne ⟨0, 0, [], []⟩).ends
  let ds := all.map fun p => match p.2.chunk? with
    | some c => w.demands (countAt flow p.1) p.1 p.2 c
    | none => ([], [], [])
  let hearth := project (s.hearthRemainder / 500) 4096 (max (nextFiring s.count) s.firingEnd) (ds.flatMap (·.1)) (ds.flatMap (·.2.1)) (ds.flatMap (·.2.2))
  let ends := open_.map fun p => (p.1, maxOf (countAt flow p.1 :: (hearth.filter fun e => e.1 == p.1).map fun e => 500 * e.2))
  (open_.all fun p => ends.all fun e => e.1 != p.1 || decide (e.2 + 200 ≤ p.2.due)) && assayFits s.inputShare w ends

/-! ### The checks at the stamp (R54) -/

def State.expired (s : State) (e : Entry) : Bool := e.deadline != 0 && decide (e.admitStamp + e.deadline ≤ s.count)

def StreamState.gone : StreamState → Bool
  | .draining => true | .closed => true | .faulted => true | .free => true | _ => false

/-- R54 from the stream's state on, for an entry of the port's domain. -/
def State.chunkCheck (s : State) (x : Stream) (c : ChunkPkt) (n : Nat) (it : Item) (b : ChunkBody) : Nat :=
  let size := match tget s.vocabs x.e.vocab with | some v => v.entries.length | none => 0
  firstFail
    [(x.e.state.gone || s.expired x.e, E.state), (c.bad || c.illegal x, E.field),
     (decide (512 < c.count) || !(c.toks.all fun t => decide (t < size)), E.range), (c.seq != x.nextSeq, E.sequence),
     (decide (64 ≤ ((s.unanswered it.stream).filter fun p => p.2.isChunk).length) || !s.intakeFits n it b, E.capacity)]

/-! ### FOLLOW (R51) -/

/-- The pins that a stream with FOLLOW takes at a CHUNK's stamp. -/
def State.followPins (s : State) (e : Entry) : List Nat × List (Nat × Nat) :=
  ((s.ctx e.ctx).pinsNow, e.adapterPins.map fun p =>
    match (tget s.adapters p.1).bind AdapterSlot.newest with
    | some v => (p.1, v.version)
    | none => p)

def State.followMove (sid : Nat) (s : State) : State :=
  match s.stream sid with
  | none => s
  | some x =>
    if x.e.follow then
      let p := s.followPins x.e
      ((s.modEntry sid fun e => { e with imagePins := p.1, adapterPins := p.2 }).retireInstalls x.e.ctx).retireAdapters
    else s

/-- Two sets whose window counts carry over: SCOPE is a bit of WINDOW_ACTION (R93, Table 4.6). -/
def sameWindow (a b : PatternSet) : Bool :=
  a.index == b.index && a.winLength == b.winLength && a.winThreshold == b.winThreshold && a.winAction == b.winAction && a.winContext == b.winContext

/-- A model's state carries over (R153). -/
def sameModel (a b : Model) : Bool := a.layoutId == b.layoutId && a.layoutId != 0 && a.stateBytes == b.stateBytes

/-- The screening state moves from one set of pins to another (R93, R98, R153, R192). -/
def Ctx.moveScreen (c : Ctx) (vocab : Nat) (old new : List Nat) (r : Screen) : Screen :=
  let moved := fun (k : Nat) => old.getD k 0 != new.getD k 0
  let r1 := if moved 0 then
      let ps := c.patternSets old
      let qs := c.patternSets new
      { r with inStates := [], outStates := [],
               windows := r.windows.filter fun w => ps.any fun p => p.index == w.1 && qs.any fun q => sameWindow p q }
    else r
  let r2 := if moved 1 then
      let f := c.fpSel old
      let g := c.fpSel new
      let table := fun (k : FpSelection) => k.norms.find? fun n => n.vocab == vocab
      let keep := fun (out : Bool) (i : Nat) => table f == table g && [f, g].all fun k => k.entries.any fun e => e.set == i && (if out then e.output else e.input)
      { r1 with inFp := r1.inFp.filter fun w => keep false w.1, outFp := r1.outFp.filter fun w => keep true w.1 }
    else r1
  let r3 := if moved 2 || moved 3 then
      let image := fun (pins : List Nat) (k : Nat) => if k = 2 then c.guardModels pins else c.probeModels pins
      let kindOf := fun (id : Nat) => if (c.probeModels old).any fun m => m.modelId == id then 3 else 2
      let kept := fun (id : Nat) => !moved (kindOf id) ||
        match (image old (kindOf id)).find? fun m => m.modelId == id, (image new (kindOf id)).find? fun m => m.modelId == id with
        | some a, some b => sameModel a b
        | _, _ => false
      let prompts := moved 2 && (c.promptGuards old).any fun m => !kept m.modelId
      { r2 with models := (r2.models.filter fun m => kept m.1).map fun (m : Nat × ModelState) =>
                  (m.1, if moved (kindOf m.1) then { m.2 with toks := [], count := 0 } else m.2),
                summary := if prompts then [] else r2.summary }
    else r2
  { r3 with accums := c.moveAccums old new r3.accums }

/-- Bring the screening state to an item's pins. -/
def State.movePins (sid : Nat) (pins : List Nat) (s : State) : State :=
  s.modStream sid fun x =>
    if x.scrPins = pins then x
    else
      let c := s.ctx x.e.ctx
      { x with scrPins := pins, screen := c.moveScreen x.e.vocab x.scrPins pins x.screen, rel := c.moveScreen x.e.vocab x.scrPins pins x.rel }

/-! ### The end of a run by a CHUNK, a close or an expiry (R69, R215) -/

/-- The run ends: its END comes after the CANDIDATES items already stamped. -/
def State.endRun (sid due reason : Nat) (carrier : Option Nat) (s : State) : State :=
  s.modStream sid fun x =>
    if x.runEnd.isNone ∧ x.e.phase = .generating then
      { x.dropProposal with runEnd := some ⟨s.nextItem, false, carrier, due, s.count, reason, 0, 0, 0, false, [], []⟩, extendPending := none }
    else x

/-! ### Acceptance (R54, R56, R69) -/

/-- A new item's fields that do not depend on its kind. -/
def Item.new (sid port dom stamp delay tag : Nat) (ss : List Nat) (e : Entry) (body : ItemBody) : Item :=
  { stream := sid, owned := true, port := port, domain := dom, stamp := stamp, due := stamp + delay, tag := tag, refused := none, cut := none,
    handleStatus := 0, settings := ss, entry := e, contribs := [], flagged := false, undecided := false, abort := false, ensBlock := none,
    band := [], values := [], prior := [], tallies := [], inputs := [], counts := [], cleared := [], resolving := false, final := none, late := false,
    answered := false, overdue := false, waits := none, body := body }

def ChunkBody.new (c : ChunkPkt) (start : Nat) (r : Screen) : ChunkBody :=
  { begun := false, byte0 := 0, after := r, hold := 0, seq := c.seq, count := c.count, toks := c.toks, last := c.last, pfx := c.pfx,
    pfxEnd := c.pfxEnd, origin := c.origin, start := start, stop := start, relStart := start, tasks := [], partials := [], lookups := [],
    slices := [], mismatch := false, evaluated := false, vectors := [] }

def State.addItem (it : Item) (s : State) : State := { s with items := tset s.items s.nextItem it, nextItem := s.nextItem + 1 }

/-- A handle refused at intake: the stream starts again from nothing (R47, R56, R67). -/
def Stream.handleLost (x : Stream) : Stream :=
  let empty := { Screen.empty with draftLen := x.screen.draftLen }
  { x with e := { x.e with handleRefused := true, restoring := false, lengthPtr := 0, commitPtr := 0, rewindMark := 0, holdback := 0 }
           intakePos := 0, verifyCount := 0, nextSeq := 0, prefixToks := [], restore := none, prefixDone := false
           scrPins := x.e.imagePins, screen := empty, rel := empty, inHits := [], trail := [], gramStarts := [], heldIn := 0, log := [], logCount := 0
           index := [], record := [], taps := [], probeWait := [], probeNext := 0, featurePath := [], base := ⟨0, empty⟩ }

/-- A PREFIX chunk under USE_VERIFY: hashed, and compared at PREFIX_END or beyond the snapshot's length (R47). -/
def State.verifyChunk (sid : Nat) (it : Item) (b : ChunkBody) (s : State) : State :=
  match s.stream sid with
  | none => s
  | some x =>
    let toks := x.prefixToks ++ b.toks
    let snap := s.usable x.e.ctx x.e.handle x.e.vocab x.admPins.1 x.admPins.2
    let tooLong := match s.snapshot x.e.ctx x.e.handle with | some n => decide (n.length < toks.length) | none => false
    let good := match snap with
      | some n => n.digest == sha256 (leBytes 1 x.e.vocab ++ toks.flatMap (leBytes 4))
      | none => false
    if tooLong || (b.pfxEnd && !good) then
      ((s.modStream sid Stream.handleLost).addItem { it with refused := some E.handle, handleStatus := hsBad, body := .chunk { b with mismatch := true } })
    else
      let s1 := (s.modStream sid fun x =>
        { x with prefixToks := toks, verifyCount := x.verifyCount + b.count, nextSeq := (x.nextSeq + 1) % 2 ^ 32, prefixDone := b.pfxEnd }).addItem
          { it with handleStatus := if b.pfxEnd then hsOk else hsNone }
      match b.pfxEnd, snap with
      | true, some n =>
        ((s1.reading (snapKey n) (· + 1)).newXfer .snapRestore x.e.ctx (some sid)).modStream sid fun x =>
          { x with restore := some n, e := { x.e with restoring := true } }
      | _, _ => s1

/-- An accepted chunk (R54, R56, R69): the run of a GENERATING stream ends and it turns to INTAKE. -/
def State.acceptChunk (sid : Nat) (it : Item) (b : ChunkBody) (s : State) : State :=
  let s0 := s.modStream sid fun x =>
    { x with e := { x.e with lastStamp := s.count }, lastActive := s.count }
  let s1 := if (s0.stream sid).any fun x => x.e.prefixMode == 2 && x.e.restoring then s0
    else s0.modEntry sid fun e => if e.phase = .admitted then e.turn .intake else e
  let s2 := s1.endRun sid (s.count + it.setting Setting.dG) 13 none
  let s3 := s2.modEntry sid fun e => if e.phase = .generating then e.turn .intake else e
  if b.pfx then s3.verifyChunk sid it b
  else
    match s3.stream sid with
    | none => s3
    | some x =>
      let stop := x.intakePos + b.count
      let body := { b with start := x.intakePos, stop := stop, relStart := x.intakePos }
      let s4 := s3.modStream sid fun x =>
        { x with intakePos := stop, nextSeq := (x.nextSeq + 1) % 2 ^ 32, prefixDone := x.prefixDone || b.pfxEnd
                 prefixToks := if x.e.prefixMode = 3 ∧ !x.prefixDone then x.prefixToks ++ b.toks else x.prefixToks }
      let vs := x.trailValues ((s.ctx x.e.ctx).fed x.e.imagePins true)
      (s4.modStream sid (Stream.giveTrail s4.nextItem)).addItem { it with handleStatus := if b.pfxEnd then hsOk else hsNone, body := .chunk body, values := vs, prior := vs }

/-- A stream expires at the stamp of an item (R36): DRAINING with DEADLINE, and its run ends. -/
def State.expire (sid due : Nat) (carrier : Option Nat) (s : State) : State :=
  ((s.endRun sid due 7 carrier)).drain sid 7

/-- SWAPPED: a stream takes a hot slot at the stamp of its first gated item when its context has one left (R43). -/
def State.firstHot (sid : Nat) (s : State) : State :=
  match s.stream sid with
  | none => s
  | some x =>
    if x.e.hotSlot.isNone ∧ x.e.lastStamp = 0 ∧ s.hotUsed x.e.ctx < (s.ctx x.e.ctx).resv.hotSlots then
      s.takeHot sid
    else s

/-- A CHUNK at its stamp (R54, R66, R414). A refused one moves no pin of a FOLLOW stream: DESIGN CHOICE, R51 says only "at the
stamp of its next CHUNK" (log 103). -/
def State.takeChunk (dom port : Nat) (pkt : Bytes) (s : State) : State :=
  let c := ChunkPkt.of pkt
  let foreign := fun (code : Nat) (s : State) =>
    s.addItem { Item.new c.stream port dom s.count 15000 c.tag [] (Entry.admitted (AdmitReq.ofPacket dom port []) 0 [] [] none false false)
      (.chunk (ChunkBody.new c 0 Screen.empty)) with owned := false, refused := some code }
  match s.stream c.stream with
  | none => foreign E.state s
  | some x =>
    if x.e.state = .free then foreign E.state s
    else if x.e.domain ≠ dom then foreign E.context s
    else
      let ss := (s.ctx x.e.ctx).settings
      let follow := if x.e.follow then let p := s.followPins x.e; { x.e with imagePins := p.1, adapterPins := p.2 } else x.e
      let b := ChunkBody.new c x.intakePos x.screen
      let it := Item.new c.stream port dom s.count (setting ss Setting.dC) c.tag ss follow (.chunk b)
      let bad := s.chunkCheck x c s.nextItem it b
      if bad ≠ 0 then
        let s1 := s.addItem { it with refused := some bad }
        if x.e.state.live && s.expired x.e then s1.expire c.stream (s.count + setting ss Setting.dG) none else s1
      else if x.badRestore then
        (s.modStream c.stream fun x => { x.handleLost with badRestore := false }).addItem { it with refused := some E.handle, handleStatus := hsBad }
      else ((s.followMove c.stream).firstHot c.stream).acceptChunk c.stream it b

/-! ### Screening begins -/

/-- Results of a lookup that clears LAST_HIT at a SPECIAL token. -/
def fpClear : Nat := 3

/-- The lookups of one set over a run of tokens, and the window after them (R98, R102, R107). -/
def setLookups (sel : FpSelection) (v : Vocab) (vocab : Nat) (q : FpEntry × FpSetDef) (w0 : FpWindow) (toks : List (Nat × Nat)) :
    FpWindow × List Lookup :=
  toks.foldl (fun (a : FpWindow × List Lookup) k =>
    let t := fpToken sel v vocab k.2
    let r := FpWindow.step q.2.n k.1 t a.1
    let first := match r.1.ids with | i :: _ => i.2 | [] => k.1
    if t = .special then (r.1, a.2 ++ [⟨0, k.1, k.2, q.1.set, 0, k.1, k.1, false, some fpClear⟩])
    else if r.2 then (r.1, a.2 ++ [⟨0, k.1, k.2, q.1.set, fpHash q.2 r.1, first, k.1, false, none⟩])
    else (r.1, a.2)) (w0, [])

/-- Slices of a chunk for each prompt guard (R59). -/
def slicesOf (ms : List Model) (toks : List Nat) : List Slice :=
  ms.flatMap fun m => (List.range (ceilDiv toks.length 64)).map fun k => ⟨m.modelId, k, (toks.drop (64 * k)).take 64, false, none, false⟩

/-- A chunk's Grate, fingerprint and guard work is formed, from the screening state that the items before it leave. -/
def State.beginChunk (n : Nat) (s : State) : State :=
  match s.item n with
  | none => s
  | some it0 =>
    let s := s.movePins it0.stream it0.pins
    match it0.body, s.stream it0.stream with
    | .chunk b, some x =>
      match tget s.vocabs it0.entry.vocab with
      | none => s
      | some v =>
        let c := s.itemCtx it0
        let sel := c.fpSel it0.pins
        let ids := (List.range b.toks.length).map (· + b.start) |>.zip b.toks
        let sets := (c.patternSets it0.pins).filter (·.input)
        let fps := (s.fpSets sel it0.entry.vocab false).map fun q => (q.1.set, setLookups sel v it0.entry.vocab q (windowAt x.screen.inFp q.1.set) ids)
        let looks := (indexed (fps.flatMap fun f => f.2.2)).map fun p => { p.2 with idx := p.1 }
        let m := walkMap v x.screen.byteCount x.screen.inTok ids
        let scr := { x.screen with
          byteCount := m.1, inTok := m.2
          inFp := fps.foldl (fun (t : Tbl FpWindow) f => tset t f.1 { f.2.1 with lastHit := (windowAt t f.1).lastHit }) x.screen.inFp }
        let es := c.fed it0.pins true
        let tallies := (c.patternSets it0.pins).foldl (fun (l : List (Nat × Nat)) p =>
          setCounts es 0 (fun f => f.kind == 3 && f.argA == p.index) (x.windowCount c it0.stamp p) l) []
        (s.modStream it0.stream fun x => { x with screen := scr }).modItem n fun it =>
          { it with
            tallies := tallies
            body := .chunk { b with
              begun := true, byte0 := x.screen.byteCount, after := scr, hold := b.stop, tasks := sets.map (·.index), lookups := looks
              slices := slicesOf (c.promptGuards it0.pins) b.toks } }
    | _, _ => s

/-! ### Features of a chunk -/

/-- The chunk is BLOCK at once (R62): its uneaten slices are cancelled, and run again for state only under WITHHOLD
(R150). -/
def State.blockChunk (n : Nat) (s : State) : State :=
  match s.item n with
  | none => s
  | some it =>
    if it.final.isSome ∨ it.contribs.isEmpty then s
    else
      let keep := !it.abort && it.setting Setting.inputBlock == 0
      (s.modItem n fun it => { it with final := some vBlock }).modChunk n fun b =>
        { b with slices := (b.slices.filter fun l => l.scores.isSome || keep).map fun (l : Slice) =>
            if l.scores.isSome then l else { l with packed := false, stateOnly := true } }

/-- The hold point at the end of a chunk (R65): the earliest live partial match, at most 32 tokens back. -/
def State.holdChunk (n : Nat) (s : State) : State :=
  match s.item n with
  | none => s
  | some it =>
    match it.chunk? with
    | none => s
    | some b =>
      if !b.tasks.isEmpty then s
      else
        let p := b.partials.foldl min b.stop
        let far := decide (p + 32 < b.stop)
        let hold := if far then b.stop - 32 else p
        let es := (s.itemCtx it).fed it.pins true
        let s1 := (s.modChunk n fun b => { b with hold := hold }).modItem n fun it =>
          { it with tallies := setCounts es 0 (fun f => f.kind == 7) (b.stop - hold) it.tallies }
        if far then s1.ctxCount it.entry.ctx Cnt.holdbackOverflow else s1

/-- Runs of 1,024 symbols whose fetches exceed FETCH_BOUND, of a set that has tier-2 states (R87). -/
def fetchOverruns (p : PatternSet) (symbols : Nat) (fetches : List Nat) : Nat :=
  if p.states.length ≤ p.tier0 + p.tier1 then 0 else ((fetches.take (ceilDiv symbols 1024)).filter fun n => decide (p.fetchBound < n)).length

/-- An intake task steps one input set over the chunk (R62, R65, R73 to R80, R86). A SAVE chunk marked both LAST and PREFIX_END
presents END, as LAST asks: DESIGN CHOICE (R74, log 104). `fetches` are the block fetches of each run of 1,024 symbols, which the
command gives, since which blocks a thread or the cache holds depends on the threads that run beside it: DESIGN CHOICE (R87, R88,
log 104). -/
def State.intakeTask (n set : Nat) (fetches : List Nat) (s : State) : State :=
  match s.item n with
  | none => s
  | some it =>
    match it.body, s.stream it.stream, tget s.vocabs it.entry.vocab, ((s.itemCtx it).patternSets it.pins).find? fun p => p.index == set with
    | .chunk b, some x, some v, some p =>
      let ids := (List.range b.toks.length).map (· + b.start) |>.zip b.toks
      let w0 : Walk := ⟨stateAt x.screen.inStates set, b.byte0, b.after.inTok.filter fun e => decide (e.2 < b.start), []⟩
      let w1 := stepTokens p v w0 ids
      let w := if b.last then stepEnd p (b.stop - 1) w1 else w1
      let partials := if !b.last && (p.action == 1 || p.action == 2) then (partialFrom p w1).toList else []
      let eff := setEffect p x.e.admitStamp it.stamp (tget x.screen.windows set) w.events
      let wins := fun (t : Tbl WinCount) => match eff.window with | some k => tset t set k | none => t
      let es := (s.itemCtx it).fed it.pins true
      let s1 := s.modStream it.stream fun x =>
        { x with screen := { x.screen with inStates := tset x.screen.inStates set w.state, windows := wins x.screen.windows } }
      let s2 := (s1.recordEvents it.stream p false it.stamp w.events).modItem n fun it =>
        { it with
          contribs := it.contribs ++ eff.blocks, flagged := it.flagged || eff.flag, abort := it.abort || eff.abort
          counts := if eff.ctxCount = 0 then it.counts else bump it.counts set eff.ctxCount
          tallies := setCounts es 0 (fun f => f.kind == 3 && f.argA == set)
            (match eff.window with | some k => k.count | none => x.windowCount (s.itemCtx it) it.stamp p)
            (addCounts es 0 (grateCount set false w.events) it.tallies)
          body := .chunk { b with
            tasks := b.tasks.erase set, partials := b.partials ++ partials
            after := { b.after with inStates := tset b.after.inStates set w.state, windows := wins b.after.windows } } }
      let s2 := { s2 with items := s2.items.map fun (q : Nat × Item) =>
        if q.2.stream = it.stream ∧ q.2.owned ∧ n < q.1 then
          (q.1, q.2.onChunk fun b => { b with after := { b.after with windows := wins b.after.windows } }) else q }
      let s3 := match eff.report with | some k => s2.windowEvent it.entry.ctx it.stream set 0 it.stamp k | none => s2
      let overruns := fetchOverruns p (b.toks.map (tokenLen v)).sum fetches
      let s4 := if overruns = 0 then s3 else s3.ctxCountBy it.entry.ctx Cnt.fetchOverrun overruns
      (s4.holdChunk n).blockChunk n
    | _, _, _, _ => s

/-- LAST_HIT after a chunk, in it and in every later chunk already begun. -/
def State.afterHits (sid n : Nat) (upd : Tbl FpWindow → Tbl FpWindow) (s : State) : State :=
  { s with items := s.items.map fun (q : Nat × Item) =>
    if q.2.stream = sid ∧ q.2.owned ∧ n ≤ q.1 then (q.1, q.2.onChunk fun b => { b with after := { b.after with inFp := upd b.after.inFp } }) else q }

/-- Apply one lookup result of a chunk in order: LAST_HIT, FP_HITS, and the set's action, under TWO_HIT only at the second of two
consecutive hits (R107, Table 5.2). -/
def State.applyLookup (n : Nat) (l : Lookup) (s : State) : State :=
  match s.item n with
  | none => s
  | some it =>
    match s.stream it.stream, ((s.itemCtx it).fpSel it.pins).entries.find? fun e => e.set == l.set with
    | some x, some e =>
      let r := l.result.getD fpMiss
      let old := (windowAt x.screen.inFp l.set).lastHit
      let hit := r != fpClear && countsHit e r
      let now := if r = fpClear then false else lastHitAfter e old r
      let act := hit && (!e.twoHit || old)
      let es := (s.itemCtx it).fed it.pins true
      let upd := fun (t : Tbl FpWindow) => tset t l.set { windowAt t l.set with lastHit := now }
      let s1 := s.modStream it.stream fun x =>
        { x with screen := { x.screen with inFp := upd x.screen.inFp }, inHits := x.inHits ++ [(l.pos, l.set, now)] }
      (s1.modItem n fun it =>
        { it with
          contribs := if act && e.action == 2 then it.contribs ++ [⟨l.last, 1, [l.set], l.set, l.first⟩] else it.contribs
          flagged := it.flagged || (act && e.action == 1)
          tallies := if hit then addCounts es 0 (fun f => if f.kind = 1 ∧ f.argA = l.set then 1 else 0) it.tallies else it.tallies
          body := match it.body with
            | .chunk b => .chunk { b with lookups := b.lookups.map fun (k : Lookup) => if k.idx = l.idx then { k with committed := true } else k }
            | .cand b => .cand b }).afterHits it.stream n upd |>.blockChunk n
    | _, _ => s.modChunk n fun b => { b with lookups := b.lookups.map fun (k : Lookup) => if k.idx = l.idx then { k with committed := true } else k }

/-- Apply every lookup result of a stream's chunks that no earlier one of its set waits for. -/
def State.settleLookups (sid : Nat) (s : State) : State :=
  ((s.liveOf sid).foldl (fun (a : List Nat × State) p =>
    match p.2.chunk? with
    | none => a
    | some b => b.lookups.foldl (fun (a : List Nat × State) l =>
        if l.committed then a
        else if l.result.isNone ∨ a.1.contains l.set then (l.set :: a.1, a.2)
        else (a.1, a.2.applyLookup p.1 l)) a) ([], s)).2

/-! ### Firings (R59, R134, R136) -/

/-- The state of a model of a stream. -/
def Stream.modelState (x : Stream) (m : Nat) : ModelState := (tget x.screen.models m).getD ⟨[], [], 0⟩

/-- The initial state words of a model. -/
def Stream.words (x : Stream) (m : Model) : List Fp32 :=
  let w := (x.modelState m.modelId).words
  if w.isEmpty then List.replicate (m.stateBytes / 4) (fZero false) else w

/-- The last slice of a chunk whose tokens were released before it ran gives the summary then (R150). -/
def State.lateSummary (n : Nat) (s : State) : State :=
  match s.item n with
  | some it =>
    match it.chunk? with
    | some b =>
      if it.answered ∧ it.live ∧ !b.slices.any (·.stateOnly) ∧ !b.toks.isEmpty then
        match s.chunkSummary it b with
        | some v => s.modStream it.stream fun x => { x with screen := { x.screen with summary := v } }
        | none => s
      else s
    | none => s
  | none => s

/-- Run one packed slice at the end of its firing: scores, pooled vector, state (R134, R150); `batch`: the tokens that its chain carries
together (R126). -/
def State.runSlice (batch n k : Nat) (s : State) : State :=
  match s.item n with
  | none => s
  | some it =>
    match it.body, s.stream it.stream with
    | .chunk b, some x =>
      match b.slices[k]? with
      | none => s
      | some l =>
        match (s.itemCtx it).modelById it.pins l.model with
        | none => s
        | some m =>
          if !l.packed ∨ l.scores.isSome then s
          else
            let env := s.passEnv it.entry (laneWidth batch) (some (Config.partialOrder s.freshCtr))
            let st := x.words m
            let r := s.fresh.calc it.entry.ctx (evalSlice env m l.toks b.origin st)
            let es := (s.itemCtx it).fed it.pins true
            let ms := ⟨r.1.2.2, [], 0⟩
            let s1 := r.2.modStream it.stream fun x => { x with screen := { x.screen with models := tset x.screen.models l.model ms } }
            let s2 := { s1 with items := s1.items.map fun (p : Nat × Item) =>
              if p.2.stream = it.stream ∧ p.2.owned ∧ n ≤ p.1 then
                (p.1, p.2.onChunk fun b => { b with after := { b.after with models := tset b.after.models l.model ms } }) else p }
            State.lateSummary n <| s2.modItem n fun it =>
              { it with
                values := if l.stateOnly then it.values else addScores es 0 l.model r.1.1 it.values
                inputs := if l.stateOnly then it.inputs else it.inputs ++ [⟨l.model, l.idx, l.toks.map some, [], [], st⟩]
                body := match it.body with
                  | .chunk b => .chunk { b with
                      slices := b.slices.set k { l with scores := some r.1.1, packed := false }
                      vectors := (b.vectors.filter fun v => v.1 != l.model) ++ [(l.model, r.1.2.1)] }
                  | .cand b => .cand b }
    | _, _ => s

/-- The slices of a chunk that wait for the next firing, as (place, slice), for one model; those the firing that runs carries are
left out (`running`). -/
def waitingSlices (running : Bool) (b : ChunkBody) (model : Nat) : List (Nat × Slice) :=
  (indexed b.slices).filter fun q => q.2.model == model && q.2.scores.isNone && !(running && q.2.packed)

/-- A chunk's tokens have been detokenised: taken at the bound of Table 3.4 (R58, R59; log 32). -/
def State.detokenised (s : State) (it : Item) (b : ChunkBody) : Bool := b.begun && decide (it.stamp + 10 + ceilDiv b.count 14 ≤ s.count)

/-- Packing as it goes: free engines, chains, each stream's ordinary slices, the streams and models held back, whether some chain
waits for power. -/
structure Pack where
  free : List Nat
  chains : List Chain
  taken : List (Nat × Nat)
  blocked : List (Nat × Nat)
  short : Bool

/-- Join the next slices of a stream and model to its chain, or begin one (R59, R134). -/
def joinChain (n model need : Nat) (slices : List (Nat × Nat)) (a : Pack) (sid : Nat → Option Nat) : List Chain :=
  if a.chains.any fun c => !c.resolver && c.model == model && sid c.item == sid n then
    a.chains.map fun (c : Chain) => if !c.resolver ∧ c.model = model ∧ sid c.item = sid n then
      { c with slices := c.slices ++ slices, engines := c.engines ++ a.free.take need } else c
  else a.chains ++ [⟨n, slices, a.free.take need, model, false⟩]

/-- Pack the waiting slices of one chunk and model: they follow those of the stream's earlier chunks, in one chain. -/
def State.packModel (s : State) (running : Bool) (p : Nat × Item) (b : ChunkBody) (a : Pack) (m : Model) : Pack :=
  let sid := p.2.stream
  let all := waitingSlices running b m.modelId
  let mine := a.chains.find? fun c => !c.resolver && c.model == m.modelId && ((s.item c.item).map (·.stream)) == some sid
  let had := match mine with | some c => c.slices.length | none => 0
  let same := mine.all fun c => (s.item c.item).any fun i => i.pins.getD 2 0 == p.2.pins.getD 2 0 && i.entry.adapterPins == p.2.entry.adapterPins
  let used := match mine with | some c => c.engines.length | none => 0
  let room := min (longestChain m - had) (4 - countAt a.taken sid)
  let want := min room all.length
  let cost := s.sliceCost p.2.entry m.modelId m
  let held := { a with blocked := (sid, m.modelId) :: a.blocked }
  if all.isEmpty then a
  else if a.blocked.contains (sid, m.modelId) ∨ !same ∨ !s.detokenised p.2 b then held
  else
    let k := chainLen cost (a.free.length + used) (had + want) - had
    let need := ceilDiv ((had + k) * cost) 500 - used
    let done := { a with
      free := a.free.drop need
      chains := if k = 0 then a.chains else joinChain p.1 m.modelId need ((all.take k).map fun q => (p.1, q.1)) a fun i => (s.item i).map (·.stream)
      taken := bump a.taken sid k
      short := a.short || decide (k < want) }
    if k < all.length then { done with blocked := (sid, m.modelId) :: a.blocked } else done

/-- Pack a chunk's slices of every prompt guard. -/
def State.packChunk (s : State) (running : Bool) (p : Nat × Item) (a : Pack) : Pack :=
  match s.stream p.2.stream, p.2.chunk? with
  | some x, some b => if s.stalled x p.2.stamp then a else ((s.itemCtx p.2).promptGuards p.2.pins).foldl (s.packModel running p b) a
  | _, _ => a

/-- Resolver slices come ahead of every ordinary slice, a chain for each resolver (R59, R186). -/
def State.packResolver (s : State) (p : Nat × Item) (a : Pack) : Pack :=
  let c := s.itemCtx p.2
  match c.ensemble p.2.pins 0 with
  | none => a
  | some e =>
    e.resolvers.foldl (fun (a : Pack) r =>
      match c.modelById p.2.pins r.2 with
      | none => a
      | some m =>
        let cost := s.sliceCost p.2.entry r.1 m
        let want := min (longestChain m) (p.2.band.filter fun q => q.1 == r.1 && q.2.2.isNone).length
        let k := chainLen cost a.free.length want
        let need := ceilDiv (k * cost) 500
        if want = 0 ∨ m.token then a
        else if k = 0 then { a with short := true }
        else { a with free := a.free.drop need, chains := a.chains ++ [⟨p.1, [], a.free.take need, m.modelId, true⟩], short := a.short || decide (k < want) }) a

/-- The chains of a firing, in the order of R186 and R35 (R134). -/
def State.packFiring (s : State) (running : Bool) : Pack :=
  let chunks := s.chunksInOrder
  let p1 := (chunks.filter fun p => p.2.resolving && !s.suspended p.2.entry.ctx p.2.stamp).foldl (fun a p => s.packResolver p a) ⟨s.poolReady, [], [], [], false⟩
  chunks.foldl (fun a p => s.packChunk running p a) p1

/-- A slice that waits for nothing but power, judged against the next firing, wakes every gated row (R136). -/
def State.wakeWaiting (s : State) : State := if (s.packFiring true).short then s.wakeAll else s

/-- Tokens that a chain carries together. -/
def State.chainTokens (s : State) (c : Chain) : Nat :=
  (c.slices.map fun q => (((s.item q.1).bind Item.chunk?).bind fun b => (b.slices[q.2]?).map fun l => l.toks.length).getD 0).sum

/-- A firing boundary: the ending firing's scores, then the next firing's chains (R134). -/
def State.fireHearths (s : State) : State :=
  let s1 := (s.chains.filter fun c => !((s.item c.item).any fun i => s.frozenOut i.entry.ctx)).foldl (fun (s : State) c => c.slices.foldl (fun (t : State) q => t.runSlice (s.chainTokens c) q.1 q.2) s) s
  let p2 := s1.packFiring false
  let used := p2.chains.flatMap (·.engines)
  let s2 := { s1 with
    chains := p2.chains
    rows := (indexed s1.rows).map fun (r : Nat × Row) => if used.any fun e => e / 8 == r.1 then { r.2 with lastPacked := s1.count } else r.2 }
  let s3 := p2.chains.foldl (fun (s : State) c => c.slices.foldl (fun (s : State) q =>
    s.modChunk q.1 fun b => { b with slices := b.slices.modify q.2 fun l => { l with packed := true } }) s) s2
  if p2.short then s3.wakeAll else s3

end Sys2Proof.Machine
end

