-- ==== Sys2Proof/Machine/Gate.lean ====
section
/-! DEFINITION. The output gate up to the decision: the CANDIDATES packet and its checks, mask stages, grammars,
exhaustion, sampling, the acceptance test and stop detection (R82, R83, R109, R194 to R212, R219, R240). -/

namespace Sys2Proof.Machine

/-! ### The packet (R194, R195, R282) -/

structure CandPkt where
  stream : Nat
  p : Nat
  extend : Bool
  first : Nat
  tag : Nat
  gram : Nat
  allow : Nat
  temperature : Nat
  topK : Nat
  round : Nat
  topP : Nat
  seed : Nat
  positions : List Position
  counts : List Nat
  valid : List Bool
  bad : Bool
  deriving DecidableEq, Repr

def candDesc (p : Bytes) (j : Nat) : Bytes := slice p (64 + 16 * j) 16

/-- Byte offset of the candidate entries of a position. -/
def candOffset (p : Bytes) (n : Nat) : Nat → Nat
  | 0 => 64 + 64 * ceilDiv n 4
  | j + 1 => candOffset p n j + 64 * ceilDiv (bits (field (candDesc p j) 0 16) 54 48) 8

def readCand (e : Bytes) : Nat × Fp16 := (field e 0 4 % 2 ^ 18, BitVec.ofNat 16 (field e 4 2))

def readPosition (p : Bytes) (n j : Nat) : Position :=
  let d := field (candDesc p j) 0 16
  let off := candOffset p n j
  ⟨if bit d 56 then some (d % 2 ^ 18) else none, BitVec.ofNat 16 (bits d 47 32),
    (List.range (min 64 (bits d 54 48))).map fun k => readCand (slice p (off + 8 * k) 8)⟩

/-- Reserved bits of a position's descriptor and entries. -/
def positionBad (p : Bytes) (n j : Nat) : Bool :=
  let d := field (candDesc p j) 0 16
  let off := candOffset p n j
  let c := bits d 54 48
  bits d 31 18 != 0 || bit d 55 || bits d 127 57 != 0 || !zeroRange p (off + 8 * c) (64 * ceilDiv c 8 - 8 * c) ||
    (List.range c).any fun k => bits (field p (off + 8 * k) 4) 31 18 != 0 || !zeroRange p (off + 8 * k + 6) 2

def CandPkt.of (p : Bytes) : CandPkt :=
  let n := field p 0x12 1
  let m := min n 17
  let flits := candOffset p n n / 64
  { stream := field p 0x10 2 % 16384, p := n, extend := bit (field p 0x13 1) 0, first := field p 0x14 4, tag := field p 0x18 2,
    gram := field p 0x1A 1 % 16, allow := field p 0x1B 1 % 32, temperature := field p 0x1C 2, topK := field p 0x1E 1, round := field p 0x1F 1,
    topP := field p 0x20 2, seed := field p 0x24 4, positions := (List.range m).map (readPosition p n),
    counts := (List.range n).map fun j => bits (field (candDesc p j) 0 16) 54 48
    valid := (List.range m).map fun j => bit (field (candDesc p j) 0 16) 56
    bad := decide (16384 ≤ field p 0x10 2) || bits (field p 0x13 1) 7 1 != 0 || bits (field p 0x1A 1) 7 4 != 0 ||
      bits (field p 0x1B 1) 7 5 != 0 || !zeroRange p 0x22 2 || !zeroRange p 0x28 24 || Hdr.flits p != flits || p.length != 64 * flits ||
      !zeroRange p (64 + 16 * n) (64 * ceilDiv n 4 - 16 * n) || (List.range n).any (positionBad p n) }

/-- R195: DRAFT_VALID on every position but the last; EXTEND has one position. -/
def CandPkt.patternBad (c : CandPkt) : Bool :=
  decide (1 ≤ c.p) && decide (c.p ≤ 17) &&
    ((c.extend && c.p != 1) || (indexed c.valid).any fun q => q.2 != decide (q.1 + 1 < c.p))

/-! ### The checks at the stamp (R196 to R198) -/

/-- Draft probability in (0, 1]. -/
def probOk (q : Fp16) : Bool := let x := ofFp16 q; flt (fZero false) x && fle x fOne

def rateStep (r : Nat) : Nat := 100000000 / max r 1

/-- The gate pipeline of a hot slot: the next working one when it has failed (R224, R225). -/
def State.pipeline (s : State) (hot : Nat) : Nat :=
  ((List.range 8).map fun k => (hot + k) % 8).find? (fun k => !s.failed.contains (.damper k)) |>.getD (hot % 8)

/-- A hot stream's pipeline has failed, and its items wait until they have been moved (R225, R358). -/
def State.pipeWaits (s : State) (hot : Nat) : Bool :=
  s.remapping.any fun u => match u with
    | .damper n => { s with failed := s.failed.filter (· != u) }.pipeline hot == n
    | _ => false

/-- Positions that a pipeline buffers, from stamp to release: of items not yet answered, and of answers that wait for a port or for
credit (R224, R280). -/
def State.buffered (s : State) (pipe : Nat) : Nat :=
  ((s.items.filter fun p => !p.2.answered).map fun p => if s.pipeline (s.hotOf p.2.stream) = pipe then p.2.room else 0).sum +
    (s.queuedTx.map fun q => if s.pipeline q.hot = pipe then q.room else 0).sum

def State.candCheck (s : State) (x : Stream) (c : CandPkt) : Nat :=
  let ctx := s.ctx x.e.ctx
  let g := ctx.gateImage x.e.imagePins
  let size := match tget s.vocabs x.e.vocab with | some v => v.entries.length | none => 0
  let allows := match gatePolicy g x.e.vocab with | some p => p.allowed.length | none => 0
  let lacks := decide (1024 < s.buffered (s.pipeline (x.e.hotSlot.getD c.stream)) + c.p)
  firstFail
    [(!(x.e.state == .generating || x.e.state == .held) || s.expired x.e, E.state),
     (c.bad || c.patternBad || (!c.extend && c.round != 0), E.field),
     (c.extend && x.extendPending != some c.round, E.state),
     (c.p == 0 || decide (setting ctx.settings Setting.maxPositions < c.p) || c.counts.any (fun n => decide (64 < n)) ||
        decide (16384 < c.temperature) || decide (64 < c.topK) || (c.gram != 0 && (gateGrammar g x.e.vocab c.gram).isNone) ||
        decide (allows < c.allow) ||
        c.positions.any (fun p => match p.draft with | some d => decide (size ≤ d) || !probOk p.prob | none => false), E.range),
     ((s.unanswered c.stream).any fun p => !p.2.isChunk, E.busy), (c.first != x.e.commitPtr, E.sequence),
     (decide (s.count + 64 * rateStep ctx.resv.streamRate < x.eligible) || lacks, E.capacity)]

def CandBody.new (c : CandPkt) : CandBody :=
  { begun := false, gram := ⟨0, 0, []⟩, first := c.first, extend := c.extend, round := c.round, gramSel := c.gram, allowSel := c.allow,
    temperature := c.temperature, topK := c.topK, topP := c.topP, positions := c.positions, looks := [], lookups := [], decided := 0,
    finished := false, accepted := 0, chosen := [], exhausted := none, endReason := 0, endBlock := none, stopHit := none, committed := false,
    evalTok := 0, tokVerdicts := [], holdPoint := 0, byteStart := 0, draft := none, cutoffDone := false, kept := false, prior := none,
    lost := false, seed := c.seed, genAt := (0, 0) }

/-- An accepted item (R197, R205, R209, R224). -/
def State.acceptCand (it : Item) (c : CandPkt) (s : State) : State :=
  let s1 := (s.firstHot c.stream).modStream c.stream fun x =>
    { x with
      e := { x.e with lastStamp := s.count }, lastActive := s.count, outPort := some it.port, extendPending := none
      eligible := max x.eligible s.count + c.p * rateStep (s.ctx x.e.ctx).resv.streamRate }
  let s2 := s1.ctxCountBy it.entry.ctx Cnt.positionsSent c.p
  let vs := match s.stream c.stream with | some x => x.trailValues ((s.ctx it.entry.ctx).fed it.pins false) | none => []
  (s2.modStream c.stream (Stream.giveTrail s2.nextItem)).addItem { it with values := vs, prior := vs }

/-- A CANDIDATES item at its stamp (R196, R198, R414). -/
def State.takeCandidates (dom port : Nat) (pkt : Bytes) (s : State) : State :=
  let c := CandPkt.of pkt
  let foreign := fun (code : Nat) (s : State) =>
    s.addItem { Item.new c.stream port dom s.count 200 c.tag [] (Entry.admitted (AdmitReq.ofPacket dom port []) 0 [] [] none false false)
      (.cand (CandBody.new c)) with owned := false, refused := some code }
  match s.stream c.stream with
  | none => foreign E.state s
  | some x =>
    if x.e.state = .free then foreign E.state s
    else if x.e.domain ≠ dom then foreign E.context s
    else
      let ss := (s.ctx x.e.ctx).settings
      let it := Item.new c.stream port dom s.count (setting ss Setting.dG) c.tag ss x.e (.cand (CandBody.new c))
      let bad := s.candCheck x c
      if bad = 0 then s.acceptCand it c
      else
        let n := s.nextItem
        let ends := (x.e.state == .generating || x.e.state == .held) && s.expired x.e
        let s1 := if ends then s.expire c.stream (s.count + setting ss Setting.dG) (some n) else s
        s1.addItem { it with refused := some bad }

/-! ### Dispatch (R83, R109, R199, R242) -/

def CandBody.drafts (b : CandBody) : List Nat := b.positions.filterMap (·.draft)

/-- The tokens that a position's stages are evaluated for: its candidates and its draft, inside the vocabulary, once
each. -/
def positionTokens (size : Nat) (p : Position) : List Nat :=
  ((p.cands.map (·.1) ++ p.draft.toList).filter fun t => decide (t < size)).eraseDups

/-- The tokens that have lookahead tasks: the candidates inside the vocabulary, once each (R82). -/
def candidateTokens (size : Nat) (p : Position) : List Nat := ((p.cands.map (·.1)).filter fun t => decide (t < size)).eraseDups

/-- The output lookups of every position: one per distinct token that forms an n-gram (R109). -/
def State.outLookups (s : State) (x : Stream) (e : Entry) (v : Vocab) (b : CandBody) : List Lookup :=
  let sel := (s.ctx e.ctx).fpSel e.imagePins
  let size := v.entries.length
  let all := (s.fpSets sel e.vocab true).flatMap fun q =>
    let r := b.positions.foldl (fun (a : FpWindow × Nat × List Lookup) p =>
      let here := (positionTokens size p).filterMap fun t =>
        let w := FpWindow.step q.2.n (b.first + a.2.1) (fpToken sel v e.vocab t) a.1
        if w.2 then some (⟨0, a.2.1, t, q.1.set, fpHash q.2 w.1, match w.1.ids with | i :: _ => i.2 | [] => 0, b.first + a.2.1, false, none⟩ : Lookup)
        else none
      let next := match p.draft with
        | some d => (FpWindow.step q.2.n (b.first + a.2.1) (fpToken sel v e.vocab d) a.1).1
        | none => a.1
      (next, a.2.1 + 1, a.2.2 ++ here)) (windowAt x.screen.outFp q.1.set, 0, [])
    r.2.2
  (indexed all).map fun p => { p.2 with idx := p.1 }

/-- The ring entries of an item's drafts, DRAFTED where they are the proposal's and HOST_DRAFT where they differ (R242). -/
def State.draftRing (s : State) (it : Item) (x : Stream) (v : Vocab) (b : CandBody) (k : GramCfg) : List RingEntry :=
  s.draftEntries it x v b.first k ((indexed b.drafts).map fun p =>
    (p.2, match x.proposal with | some d => d.first == b.first && (d.toks[p.1]?).any fun q => q.1 == p.2 | none => false))

/-- Every position goes to the mask stages, and the drafts to the ring; an item stamped at MAX_LENGTH decides nothing (R211, R242,
R244). -/
def State.beginCand (n : Nat) (s : State) : State :=
  match s.item n with
  | none => s
  | some it =>
    match it.body, s.stream it.stream, tget s.vocabs it.entry.vocab with
    | .cand b, some x, some v =>
      let full := decide (it.entry.maxLength ≤ x.screen.outputCount)
      let g := (s.itemCtx it).gateImage it.pins
      let k := startGram g it.entry.vocab b.gramSel x.screen.gram
      match ringWrite x.screen.ring (s.draftRing it x v b k) with
      | none => s.loseRewind it.stream
      | some ring =>
      let gen := if b.seed = 0 then (x.genKey, x.genIdx) else (Config.seedKey (BitVec.ofNat 32 b.seed), 0)
      (s.modStream it.stream fun x =>
        { x with genKey := gen.1, genIdx := gen.2, e := { x.e with lengthPtr := x.e.commitPtr + b.drafts.length }, screen := { x.screen with ring := ring } }).modCand n
        fun b =>
          { b with
            begun := true
            kept := (match x.proposal with | some d => d.first == b.first && (d.toks.map (·.1)).take b.drafts.length == b.drafts | none => b.drafts.isEmpty)
            gram := k, byteStart := x.screen.byteCount, genAt := gen
            lookups := if full then [] else s.outLookups x it.entry v b, finished := full, endReason := if full then 3 else 0 }
    | _, _, _ => s

/-! ### Lookahead (R81, R82) -/

/-- A lookahead task's result: masked for a BLOCK set, the stop string's end, depth and pattern id for a STOP set (R81, R82). -/
def lookTask (p : PatternSet) (v : Vocab) (pos token q0 : Nat) : Look :=
  let r := lookWalk p (tokenSyms v token) q0 0
  let st := setState p r.1
  let hit := (setEntries p st).find? fun e => !e.cont
  ⟨pos, token, p.index, r.2.2 && p.action == 2,
    if r.2.2 && p.action == 3 then some (r.2.1, match hit with | some e => (e.depth, e.pattern) | none => (0, 0)) else none, r.1, st.partialDepth⟩

/-- The position's start is BROKEN: a draft before it completed a BLOCK event (R83). -/
def State.broken (s : State) (it : Item) (x : Stream) (v : Vocab) (drafts : List Nat) : Bool :=
  (s.lookSets it).any fun p => (chainState p v (stateAt x.screen.outStates p.index) drafts).2

/-- A lookahead task of a candidate completes; at a BROKEN position it reports the candidate unmasked (R82, R83). -/
def State.lookahead (n pos token set : Nat) (s : State) : State :=
  match s.item n with
  | none => s
  | some it =>
    match it.body, s.stream it.stream, tget s.vocabs it.entry.vocab, (s.lookSets it).find? fun p => p.index == set with
    | .cand b, some x, some v, some p =>
      let known := match b.positions[pos]? with | some q => (candidateTokens v.entries.length q).contains token | none => false
      let dup := b.looks.any fun l => l.pos == pos && l.token == token && l.set == set
      if b.begun && known && !dup && !b.committed then
        let q := chainState p v (stateAt x.screen.outStates set) (b.drafts.take pos)
        let r := lookTask p v pos token q.1
        let l := if s.broken it x v (b.drafts.take pos) then { r with blocked := false, stop := none } else r
        s.modCand n fun b => { b with looks := b.looks ++ [l] }
      else s
    | _, _, _, _ => s

/-! ### Deciding a position (R200, R204, R207, R210) -/

/-- LAST_HIT of a set at a position: the committed bit, then the drafts' results in order. -/
def lastHitAt (sel : FpSelection) (v : Vocab) (vocab : Nat) (e : FpEntry) (b : CandBody) (start : Bool) (pos : Nat) : Bool :=
  (indexed (b.drafts.take pos)).foldl (fun (a : Bool) p =>
    if fpToken sel v vocab p.2 = .special then false
    else match b.lookups.find? fun l => l.pos == p.1 && l.token == p.2 && l.set == e.set with
      | some l => lastHitAfter e a (l.result.getD fpMiss)
      | none => a) start

/-- The fingerprint stage masks a token (R109). -/
def State.fpMasked (s : State) (it : Item) (x : Stream) (v : Vocab) (b : CandBody) (pos token : Nat) : Bool :=
  let sel := (s.itemCtx it).fpSel it.pins
  b.lookups.any fun l => l.pos == pos && l.token == token &&
    (sel.entries.any fun e => e.set == l.set && e.action == 2 && countsHit e (l.result.getD fpMiss) &&
      (!e.twoHit || lastHitAt sel v it.entry.vocab e b (windowAt x.screen.outFp e.set).lastHit pos))

/-- The first stage that masks a candidate, in table order; `none` for a survivor. -/
def State.maskStage (s : State) (it : Item) (x : Stream) (v : Vocab) (b : CandBody) (pos k : Nat) (cands : List (Nat × Fp16)) : Option Nat :=
  let c := cands.getD k (0, 0)
  let g := (s.itemCtx it).gateImage it.pins
  if v.entries.length ≤ c.1 ∨ (cands.take k).any (fun d => d.1 == c.1) ∨ decode16 c.2 = .nan then some 0
  else if (b.allowSel != 0 && !(match gatePolicy g it.entry.vocab with
      | some p => bit ((p.allowed.getD (b.allowSel - 1) []).getD (c.1 / 8) 0).toNat (c.1 % 8)
      | none => false)) then some 1
  else if (b.gram.sel != 0 && (match gateGrammar g it.entry.vocab b.gram.sel with
      | some q => (gramStep q c.1 b.gram).isNone
      | none => true)) then some 2
  else if b.looks.any (fun l => l.pos == pos && l.token == c.1 && l.blocked) then some 3
  else if s.fpMasked it x v b pos c.1 then some 4
  else none

/-- A score before its use: infinities become the largest finite values. -/
def usable16 (v : Fp16) : Fp32 :=
  match decode16 v with
  | .inf n => ofFp16 (if n then 0xFBFF#16 else 0x7BFF#16)
  | _ => ofFp16 v

/-- Survivors by score, largest first; equal scores keep their order. -/
def sortSurvivors (l : List (Nat × Fp32)) : List (Nat × Fp32) := sortBy (fun (a b : Nat × Fp32) => fle b.2 a.2) l

/-- The prefix sums and the cut of R208 over the survivors after the TOP_K cut. -/
def prefixSums (temperature topP : Nat) (l : List (Nat × Fp32)) : Calc (List Fp32 × List Fp32 × Nat) := do
  let r ← Calc.div (fOfNat 1024) (fOfNat temperature)
  let top := (l.headD (0, fZero false)).2
  let ws ← l.mapM fun e => do
    let d ← Calc.mul (← Calc.sub e.2 top) r
    Calc.note [d] (exp2ulp d)
  let cs ← ws.foldlM (fun (a : List Fp32) w => do return a ++ [← Calc.add (a.getLastD (fZero false)) w]) ([] : List Fp32)
  let lim ← Calc.mul (cs.getLastD (fZero false)) (← Calc.div (fOfNat topP) (fOfNat 65536))
  let m := if topP = 0 then l.length else ((List.range cs.length).find? fun i => fle lim (cs.getD i (fZero false))).elim l.length (· + 1)
  return (ws, cs, m)

/-- u / 2^24 of a draw. -/
def unitDraw (key idx : Nat) : Fp32 := fdiv (fOfNat (Config.draw key idx).toNat) (fOfNat 16777216)

def topCut (k : Nat) (l : List (Nat × Fp32)) : List (Nat × Fp32) := if k = 0 then l else l.take k

/-- sample(pos) of R208: the token and the draws taken. -/
def sampleToken (b : CandBody) (key idx : Nat) (surv : List (Nat × Fp32)) : Calc (Nat × Nat) := do
  let all := sortSurvivors surv
  if b.temperature = 0 then return ((all.headD (0, 0)).1, 0)
  else
    let l := topCut b.topK all
    let (_, cs, m) ← prefixSums b.temperature b.topP l
    let t ← Calc.mul (cs.getD (m - 1) (fZero false)) (unitDraw key idx)
    let i := ((List.range m).find? fun i => flt t (cs.getD i (fZero false))).getD (m - 1)
    return ((l.getD i (0, 0)).1, 1)

/-- accept(pos) of R240: whether the draft is accepted, the token otherwise chosen, and the draws taken. -/
def acceptDraft (b : CandBody) (key idx draft : Nat) (prob : Fp16) (surv : List (Nat × Fp32)) : Calc (Bool × Nat × Nat) := do
  let all := sortSurvivors surv
  if !(all.any fun e => e.1 == draft) then
    let r ← sampleToken b key idx surv
    return (false, r.1, r.2)
  else if b.temperature = 0 then
    let t := (all.headD (0, 0)).1
    return (t == draft, t, 0)
  else
    let l := topCut b.topK all
    let (ws, cs, m) ← prefixSums b.temperature b.topP l
    let i := ((List.range all.length).find? fun k => (all.getD k (0, 0)).1 == draft).getD 0
    let prev := if i = 0 then fZero false else cs.getD (i - 1) (fZero false)
    let wd ← if i < m then Calc.sub (cs.getD i (fZero false)) prev else pure (fZero false)
    let total := cs.getD (m - 1) (fZero false)
    let p ← Calc.div wd total
    let lhs ← Calc.mul (unitDraw key idx) (ofFp16 prob)
    if flt lhs p then return (true, draft, 1)
    else
      let t ← Calc.mul (← Calc.sub total wd) (unitDraw key (idx + 1))
      let js := (List.range m).filter (· != i)
      let r ← js.foldlM (fun (a : Fp32 × Option Nat) j => do
        let sum ← Calc.add a.1 (ws.getD j (fZero false))
        return (sum, if a.2.isNone && flt t sum then some j else a.2)) (fZero false, none)
      return (false, (l.getD (r.2.getD (js.getLastD 0)) (0, 0)).1, 2)

/-- The stop conditions that a chosen token meets, the lowest first (R210). -/
def State.stopReason (s : State) (it : Item) (x : Stream) (b : CandBody) (pos token : Nat) (k : GramCfg) : Nat :=
  let g := (s.itemCtx it).gateImage it.pins
  let stops := match gatePolicy g it.entry.vocab with | some p => p.stops | none => []
  let accepts := match gateGrammar g it.entry.vocab k.sel with | some q => q.stopOnAccept && gramAccepting q k | none => false
  if stops.contains token then 1
  else if b.looks.any fun l => l.pos == pos && l.token == token && l.stop.isSome then 2
  else if it.entry.maxLength ≤ x.screen.outputCount + b.chosen.length + 1 then 3
  else if accepts then 4 else 0

/-- The first stop string that a token completes: bytes into the token, and depth (R77, R81). -/
def firstStop (b : CandBody) (pos token : Nat) : Option (Nat × Nat) :=
  (((sortBy (fun (a c : Look) => keyLe [(a.stop.getD (0, 0, 0)).1, a.set] [(c.stop.getD (0, 0, 0)).1, c.set])
    (b.looks.filter fun l => l.pos == pos && l.token == token && l.stop.isSome)).head?).bind (·.stop)).map fun h => (h.1, h.2.1)

/-- Substitutes that would complete a BLOCK event or hit are not committed (R206). -/
def State.substBlocked (s : State) (it : Item) (x : Stream) (v : Vocab) (b : CandBody) (toks : List Nat) : Bool :=
  let sel := (s.itemCtx it).fpSel it.pins
  let view := s.store.newView it.stamp
  let sets := ((s.itemCtx it).patternSets it.pins).filter fun p => p.output && p.action == 2
  sets.any (fun p =>
    let q0 := (chainState p v (stateAt x.screen.outStates p.index) b.chosen).1
    (chainState p v q0 toks).2) ||
  (s.fpSets sel it.entry.vocab true).any fun q => q.1.action == 2 &&
    let w0 := (indexed b.chosen).foldl (fun (w : FpWindow) k => (FpWindow.step q.2.n (b.first + k.1) (fpToken sel v it.entry.vocab k.2) w).1)
      (windowAt x.screen.outFp q.1.set)
    let last := lastHitAt sel v it.entry.vocab q.1 b (windowAt x.screen.outFp q.1.set).lastHit b.chosen.length
    ((indexed toks).foldl (fun (a : FpWindow × Bool × Bool) k =>
      let t := fpToken sel v it.entry.vocab k.2
      let r := FpWindow.step q.2.n (b.first + b.chosen.length + k.1) t a.1
      let res := if r.2 then s.fpRead view q.1.set (fpHash q.2 r.1) else fpMiss
      let hit := r.2 && countsHit q.1 res
      let lh := if t = .special then false else if r.2 then lastHitAfter q.1 a.2.1 res else a.2.1
      (r.1, lh, a.2.2 || (hit && (!q.1.twoHit || a.2.1)))) (w0, last, false)).2.2

/-- The fingerprints that the test of substitutes looks up. -/
def State.substFps (s : State) (it : Item) (x : Stream) (v : Vocab) (b : CandBody) (toks : List Nat) : List Nat :=
  let sel := (s.itemCtx it).fpSel it.pins
  ((s.fpSets sel it.entry.vocab true).filter fun q => q.1.action == 2).flatMap fun q =>
    ((indexed (b.chosen ++ toks)).foldl (fun (a : FpWindow × List Nat) k =>
      let r := FpWindow.step q.2.n (b.first + k.1) (fpToken sel v it.entry.vocab k.2) a.1
      (r.1, if r.2 && decide (b.chosen.length ≤ k.1) then a.2 ++ [fpHash q.2 r.1] else a.2)) (windowAt x.screen.outFp q.1.set, [])).2

/-- Where the context substitutes, the test of the substitutes reads the store. -/
def State.meetSubst (it : Item) (x : Stream) (v : Vocab) (b : CandBody) (s : State) : State :=
  match gatePolicy ((s.itemCtx it).gateImage it.pins) it.entry.vocab with
  | some p => if it.setting Setting.exhaust = 2 then s.meetFps (s.substFps it x v b p.subst) else s
  | none => s

/-- An exhausted position (R204 to R206). -/
def State.exhaust (it : Item) (x : Stream) (v : Vocab) (b : CandBody) (s : State) : CandBody × Option Nat :=
  let g := (s.itemCtx it).gateImage it.pins
  let subst := match gatePolicy g it.entry.vocab with | some p => p.subst | none => []
  let stop := ({ b with finished := true, endReason := 5 }, none)
  match it.setting Setting.exhaust with
  | 0 => if it.setting Setting.extendLimit ≤ b.round then stop
         else ({ b with finished := true, exhausted := some (b.round + 1) }, some (b.round + 1))
  | 2 => if subst.isEmpty || s.substBlocked it x v b subst then stop
         else ({ b with finished := true, chosen := b.chosen ++ subst, endReason := 6 }, none)
  | _ => stop

/-- A chosen token: the grammar steps, stops are checked, and the next position is reached only after an accepted draft
that stops nothing (R199, R207, R210). -/
def State.choose (it : Item) (x : Stream) (b : CandBody) (pos token : Nat) (accepted : Bool) (s : State) : CandBody :=
  let g := (s.itemCtx it).gateImage it.pins
  let k := match gateGrammar g it.entry.vocab b.gram.sel with
    | some q => match gramStep q token b.gram with | some r => r.1 | none => b.gram
    | none => b.gram
  let stop := s.stopReason it x b pos token k
  { b with
    gram := k, chosen := b.chosen ++ [token], accepted := b.accepted + b2n accepted, endReason := stop, stopHit := firstStop b pos token
    finished := !accepted || stop != 0 }

/-- Every mask bit of the next position has come. -/
def State.masksReady (s : State) (it : Item) (x : Stream) (v : Vocab) (b : CandBody) : Bool :=
  match b.positions[b.decided]? with
  | none => false
  | some p =>
    let toks := candidateTokens v.entries.length p
    (s.broken it x v (b.drafts.take b.decided) ||
      (s.lookSets it).all fun q => toks.all fun t => b.looks.any fun l => l.pos == b.decided && l.token == t && l.set == q.index) &&
    b.lookups.all fun l => decide (b.decided < l.pos) || l.result.isSome

/-- The EXTEND item of an item's exhausted position is there already: the item is run again (R225, R352). -/
def State.extended (s : State) (n sid : Nat) : Bool := (s.itemsOf sid).any fun p => decide (n < p.1) && p.2.live && p.2.cand?.any (·.extend)

/-- The decide stage of the next position of an item (R219). -/
def State.decidePos (n : Nat) (s : State) : State :=
  match s.item n with
  | none => s
  | some it =>
    match it.body, s.stream it.stream, tget s.vocabs it.entry.vocab with
    | .cand b, some x, some v =>
      match b.positions[b.decided]? with
      | none => s
      | some p =>
        if !(b.begun && !b.finished && !b.lost && s.masksReady it x v b) then s
        else
          let pos := b.decided
          let stages := (List.range p.cands.length).map fun k => (k, s.maskStage it x v b pos k p.cands)
          let surv := stages.filterMap fun q => match q.2 with
            | none => some ((p.cands.getD q.1 (0, 0)).1, usable16 (p.cands.getD q.1 (0, 0)).2)
            | some _ => none
          let s1 := stages.foldl (fun (s : State) q => match q.2 with | some m => s.ctxCount it.entry.ctx (Cnt.maskInvalid + m) | none => s) s
          let b1 := { b with decided := pos + 1 }
          if surv.isEmpty then
            let r := s1.exhaust it x v b1
            ((s1.meetSubst it x v b1).modCand n fun _ => r.1).modStream it.stream fun x =>
              { x with extendPending := if x.runEnd.isNone && !s.extended n it.stream then r.2 else none, extendPos := b.first + b.chosen.length }
          else
            match p.draft with
            | some d =>
              let r := s1.calc it.entry.ctx (acceptDraft b x.genKey x.genIdx d p.prob surv)
              (r.2.modStream it.stream fun x => { x with genIdx := x.genIdx + r.1.2.2 }).modCand n fun _ =>
                s1.choose it x b1 pos (if r.1.1 then d else r.1.2.1) r.1.1
            | none =>
              let r := s1.calc it.entry.ctx (sampleToken b x.genKey x.genIdx surv)
              (r.2.modStream it.stream fun x => { x with genIdx := x.genIdx + r.1.2 }).modCand n fun _ => s1.choose it x b1 pos r.1.1 false
    | _, _, _ => s

end Sys2Proof.Machine
end

