-- ==== Sys2Proof/Machine/Passes.lean ====
section
/-! DEFINITION. Token passes on gate engines and Flues, the scores they give, staged taps and the probes they feed (R133,
R139, R141, R151, R152, R159 to R163). -/

namespace Sys2Proof.Machine

/-! ### Positions and their models -/

/-- The home Flue of a hot stream, until it fails (R141). -/
def State.homeFlue (s : State) (x : Stream) : Option Nat := x.home.filter fun k => !s.failed.contains (.flue k)

def State.passInstall (s : State) (p : PassPos) : Option Install := (s.ctx p.ctx).resident p.kind p.install

def State.passModel (s : State) (p : PassPos) : Option Model :=
  (s.passInstall p).bind fun i => (imageModels i.body).find? fun m => m.modelId == p.model

/-- The place of a position's model in the turns that models take: install order, then the image's order (R133, R139). -/
def State.passKey (s : State) (p : PassPos) : Nat :=
  match s.passInstall p with
  | none => 0
  | some i =>
    let k := match (indexed (imageModels i.body)).find? fun q => q.2.modelId == p.model with | some q => q.1 | none => 0
    ((i.available * 4096 + p.ctx) * 8 + p.kind) * 1024 + k

/-- The next turn after `last` among the keys that wait. -/
def nextTurn (last : Nat) (keys : List Nat) : Option Nat :=
  let least := fun (l : List Nat) => l.foldl (fun (b : Option Nat) k => match b with | none => some k | some m => some (min m k)) none
  (least (keys.filter fun k => decide (last < k))).orElse fun _ => least keys

/-- What a pass runs with for a position: the pins of its item, or of the stream when the item has gone. -/
def State.passEntry (s : State) (p : PassPos) : Option Entry :=
  match s.item p.item with
  | some it => some it.entry
  | none => (s.stream p.stream).map (·.e)

/-! ### Scores (R151, R152) -/

/-- A position's scores: INLINE ones are the token's, TRAILING ones the stream's. -/
def State.deliver (p : PassPos) (m : Model) (start scores : List Fp32) (s : State) : State :=
  if m.inlineGov then
    s.modItem p.item fun it =>
      if it.stream = p.stream then
        { it with
          values := addScores ((s.itemCtx it).fed it.pins false) p.tok m.modelId scores it.values
          inputs := it.inputs ++ [⟨m.modelId, p.tok, p.toks, p.tap, p.summary, start⟩] }
      else it
  else s.trailScore p.stream m.modelId scores

/-- A draft pass ends: the next follows while the item's proposal is open (R133, R236). The passes take the engines' time and turns; the
tokens themselves are worked out at the cutoff, since they depend on no completion (R232; log 104). -/
def State.draftPassed (p : PassPos) (s : State) : State :=
  match p.draft, s.item p.item with
  | some (k + 1), some it =>
    if it.stream = p.stream ∧ it.live ∧ (it.cand?.any fun b => !b.cutoffDone) then
      { s with passes := s.passes ++ [{ p with tok := p.tok + 1, running := false, finish := 0, draft := some k }] }
    else s
  | _, _ => s

/-- One position of a pass: the model's scores and its state of the stream. -/
def State.runPosition (batch : Nat) (p : PassPos) (s : State) : State :=
  match s.stream p.stream, s.passModel p, s.passEntry p with
  | some x, some m, some e =>
    if p.draft.isSome then s.draftPassed p else
    let env := s.passEnv e (laneWidth batch) (if m.flue then none else some (Config.partialOrder s.freshCtr))
    let st := x.words m
    let r := s.fresh.calc p.ctx (evalToken env m ⟨p.toks, none, p.tap, p.summary⟩ st)
    let s1 := r.2.modStream p.stream fun x =>
      { x with screen := { x.screen with models := tset x.screen.models m.modelId { x.modelState m.modelId with words := r.1.2 } } }
    s1.deliver p m st r.1.1
  | _, _, _ => s

/-- The positions that a predicate selects complete, in order, and leave. -/
def State.completePasses (sel : PassPos → Bool) (s : State) : State :=
  let ps := s.passes.filter sel
  ps.foldl (fun s p => s.runPosition ps.length p) { s with passes := s.passes.filter fun p => !sel p }

/-! ### Flue passes (R139) -/

/-- An idle Flue starts a pass of every position pending for the model whose turn it is. -/
def State.startFlue (f turn : Nat) (s : State) : State :=
  if s.failed.contains (.flue f) ∨ (s.passes.any fun p => p.flue == some f && p.running) then s
  else
    let may := fun (p : PassPos) => p.flue == some f && !s.barred (.flue f) p.ctx
    match nextTurn turn ((s.passes.filter may).map s.passKey) with
    | none => s
    | some k => { s with passes := s.passes.map fun (p : PassPos) => if may p && s.passKey p == k then { p with running := true } else p }

/-- A position becomes pending (R139, R151, R163). -/
def State.enqueue (p : PassPos) (s : State) : State := { s with passes := s.passes ++ [p] }

/-- Idle Flues start passes: each carries every position that one step has made pending (R139). -/
def State.startFlues (s : State) : State := (List.range 16).foldl (fun (s : State) f => s.startFlue f 0) s

/-- The running pass of a model of a context on a Flue ends, and the next begins. -/
def State.endFluePass (f c model : Nat) (s : State) : State :=
  match s.passes.find? fun p => p.flue == some f && p.running && p.ctx == c && p.model == model with
  | none => s
  | some q =>
    let k := s.passKey q
    (s.completePasses fun p => p.flue == some f && p.running).startFlue f k

/-! ### Gate passes (R133) -/

/-- A tick boundary: passes that have ended give their results, and the next pass starts. -/
def State.gateTick (c : Nat) (s : State) : State :=
  if (s.ctx c).gateEngines.any (fun e => s.barred (.hearth e) c) || s.frozenOut c then s
  else
  let mine := fun (p : PassPos) => p.ctx == c && p.flue.isNone
  let s1 := s.completePasses fun p => mine p && p.running && decide (p.finish ≤ s.count)
  if s1.passes.any fun p => mine p && p.running then s1
  else
    let may := fun (p : PassPos) => mine p && decide (p.finish ≤ s1.count)
    match nextTurn (s1.ctx c).gateTurn ((s1.passes.filter may).map s1.passKey) with
    | none => s1
    | some k =>
      let now := fun (p : PassPos) => may p && s1.passKey p == k
      let n := min 256 (s1.passes.filter now).length
      match (s1.passes.find? now).bind s1.passModel with
      | none => s1
      | some m =>
        let finish := s1.count + 50 * passTicks m (s1.ctx c).gateEngines.length n
        let r := s1.passes.foldl (fun (a : List PassPos × Nat) p =>
          if now p && decide (a.2 < 256) then (a.1 ++ [{ p with running := true, finish := finish }], a.2 + 1) else (a.1 ++ [p], a.2)) ([], 0)
        ({ s1 with passes := r.1 }).modCtx c fun x => { x with gateTurn := k }

/-! ### Token guards (R151) -/

/-- The prompt summary, zero before any (R150). -/
def State.summaryOf (s : State) (x : Stream) (c : Nat) (pins : List Nat) : List Fp32 :=
  let w := summaryWidth ((s.ctx c).guardModels pins)
  if x.screen.summary.length = w then x.screen.summary else List.replicate w (fZero false)

def State.flueFor (s : State) (x : Stream) (m : Model) : Option Nat := if m.flue then s.homeFlue x else none

/-- A position of a token guard. -/
def State.tokenPos (s : State) (x : Stream) (sid c : Nat) (pins : List Nat) (item tok : Nat) (m : Model) (toks : List (Option Nat)) : PassPos :=
  ⟨sid, c, 2, pins.getD 2 0, m.modelId, toks, item, tok, none, [], s.summaryOf x c pins, s.flueFor x m, false, 0, none⟩

/-- A committed token reaches the token guards: a position at every STRIDE-th. -/
def State.takeToken (sid item tok id : Nat) (pins : List Nat) (s : State) : State :=
  match s.stream sid with
  | none => s
  | some x =>
    ((s.ctx x.e.ctx).tokenGuards pins).foldl (fun (s : State) m =>
      match s.stream sid with
      | none => s
      | some x =>
        let st := x.modelState m.modelId
        let toks := st.toks ++ [id]
        let full := decide (m.stride ≤ toks.length)
        let s1 := s.modStream sid fun x =>
          { x with screen := { x.screen with models := tset x.screen.models m.modelId { st with toks := if full then [] else toks, count := st.count + 1 } } }
        if full then s1.enqueue (s.tokenPos x sid x.e.ctx pins item tok m (toks.map some)) else s1) s

/-- The run's end: the final position of each token guard, and counts restart. -/
def State.endTokens (sid item tok : Nat) (pins : List Nat) (s : State) : State :=
  match s.stream sid with
  | none => s
  | some x =>
    ((s.ctx x.e.ctx).tokenGuards pins).foldl (fun (s : State) m =>
      match s.stream sid with
      | none => s
      | some x =>
        let st := x.modelState m.modelId
        let s1 := s.modStream sid fun x =>
          { x with screen := { x.screen with models := tset x.screen.models m.modelId { st with toks := [], count := 0 } } }
        if st.toks.isEmpty then s1
        else s1.enqueue (s.tokenPos x sid x.e.ctx pins item tok m (st.toks.map some ++ List.replicate (m.stride - st.toks.length) none))) s

/-! ### Staged taps and probes (R158 to R163) -/

/-- The TAPIN record of a probe. -/
def tapIn (m : Model) : Option Layer := m.layers.find? fun l => l.op == 9

/-- Slots that some probe reads, with their lengths. -/
def tapLengths (ms : List Model) : List (Nat × Nat) :=
  (ms.flatMap fun m => match tapIn m with | some l => (tapSlots l).map fun k => (k, tapLength l) | none => []).eraseDups

/-- The vector of a slot that counts for an input position. -/
def Stream.tapAt (x : Stream) (pos slot deadline : Nat) : Option StagedTap :=
  x.taps.find? fun v => v.pos == pos && v.slot == slot && decide (v.stamp ≤ deadline)

def Stream.slotView (x : Stream) (pos deadline : Nat) (q : Nat × Nat) : SlotView :=
  let v := x.tapAt pos q.1 deadline
  let old := (tget x.screen.settle q.1).getD 0
  let run := match v.bind (·.change) with | some n => max old n | none => old
  let gone := decide (0 < run) || (match v with | some t => t.absent | none => true)
  if gone then ⟨q.1, List.replicate q.2 (fZero false), q.2, run - 1⟩
  else
    match v with
    | some t => ⟨q.1, t.values, (t.valid.filter fun b => !b).length, run - 1⟩
    | none => ⟨q.1, List.replicate q.2 (fZero false), q.2, run - 1⟩

/-- The pins of a served position: its item's, or the stream's when the item has gone. -/
def State.waitPins (s : State) (x : Stream) (w : ProbeWait) : List Nat := match s.item w.item with | some it => it.pins | none => x.scrPins

def State.waitProbes (s : State) (x : Stream) (w : ProbeWait) : List Model := (s.ctx x.e.ctx).probesRun (s.waitPins x w)

/-- Input position `pos` has a serving item from here: one that is served already passes to the new item what is left of it (R158). -/
def Stream.serve (pos item tok deadline : Nat) (x : Stream) : Stream :=
  if x.probeNext ≤ pos then
    { x with probeWait := x.probeWait ++ [⟨pos, item, tok, deadline, [], [], [], false⟩], probeNext := pos + 1 }
  else
    { x with probeWait := x.probeWait.map fun (w : ProbeWait) =>
        if w.pos = pos ∧ !w.closed then { w with item := item, tok := tok, deadline := deadline } else w }

/-- A probe is evaluated at a served position: each slot that no probe has evaluated there is evaluated with it (R159), and its output is
absent or its position becomes pending. -/
def State.runProbe (sid : Nat) (w : ProbeWait) (m : Model) (s : State) : State :=
  match s.stream sid, tapIn m with
  | some x, some l =>
    let fresh := ((tapSlots l).filter fun k => !(w.views.any fun v => v.slot == k)).map fun k => x.slotView w.pos w.deadline (k, tapLength l)
    let views := w.views ++ fresh
    let mine := views.filter fun v => (tapSlots l).contains v.slot
    let s1 := s.modStream sid fun x =>
      { x with
        probeWait := x.probeWait.map fun (q : ProbeWait) => if q.pos = w.pos then { q with views := views, done := q.done ++ [m.modelId] } else q
        screen := { x.screen with settle := fresh.foldl (fun (t : Tbl Nat) v => tset t v.slot v.settle) x.screen.settle } }
    if m.missLimit * l.outWidth < (mine.map (·.missing)).sum * 256 then s1.ctxCount x.e.ctx Cnt.probeAbsent
    else s1.enqueue ⟨sid, x.e.ctx, 3, (s.waitPins x w).getD 3 0, m.modelId, [], w.item, w.tok, some w.pos, mine.flatMap (·.values), [],
      s.flueFor x m, false, 0, none⟩
  | _, _ => s

/-- The next probe that is runnable (R162): its earlier positions evaluated, and its slots come or the deadline passed; `upTo`: the
position whose deadline is being acted on. -/
def State.nextProbe (s : State) (x : Stream) (upTo : Option Nat) : Option (ProbeWait × Model) :=
  (x.probeWait.filter fun w => !w.closed).findSome? fun w =>
    let forced := decide (w.deadline < s.count) || upTo.any fun p => decide (w.pos ≤ p ∧ w.deadline ≤ s.count)
    ((s.waitProbes x w).find? fun m => !w.done.contains m.modelId &&
      (x.probeWait.all fun q => q.closed || decide (w.pos ≤ q.pos) || q.done.contains m.modelId) &&
      (forced || match tapIn m with | some l => (tapSlots l).all fun k => (x.tapAt w.pos k w.deadline).isSome | none => true)).map fun m => (w, m)

/-- A position whose probes have all been evaluated is closed: vectors stamped after its deadline count in TAP_LATE, and what is staged
for it goes. Positions that COMMIT_PTR has passed are forgotten. -/
def State.closeWaits (sid : Nat) (s : State) : State :=
  match s.stream sid with
  | none => s
  | some x =>
    let shut := x.probeWait.filter fun w => !w.closed && (s.waitProbes x w).all fun m => w.done.contains m.modelId
    let late := shut.flatMap fun w => ((x.taps.filter fun v => v.pos == w.pos && decide (w.deadline < v.stamp)).map (·.stamp)).eraseDups
    let s1 := s.modStream sid fun x =>
      { x with
        probeWait := (x.probeWait.map fun (w : ProbeWait) => if shut.contains w then
          { w with closed := true, seen := (x.taps.filter fun v => v.pos == w.pos && decide (v.stamp ≤ w.deadline)).map (·.slot) } else w).filter
            fun w => !w.closed || decide (x.e.commitPtr ≤ w.pos + 1)
        taps := x.taps.filter fun v => !(shut.any fun w => w.pos == v.pos) }
    if late.isEmpty then s1 else s1.ctxCountBy x.e.ctx Cnt.tapLate late.length

/-- Evaluate what is runnable, one probe at one position after another. -/
def State.settleProbes (sid : Nat) (upTo : Option Nat) : Nat → State → State
  | 0, s => s.closeWaits sid
  | fuel + 1, s =>
    match (s.stream sid).bind fun x => s.nextProbe x upTo with
    | none => s.closeWaits sid
    | some q => (s.runProbe sid q.1 q.2).settleProbes sid upTo fuel

/-- Every probe of every position waiting. -/
def State.probeFuel (s : State) (x : Stream) : Nat := (x.probeWait.map fun w => (s.waitProbes x w).length).sum + 1

/-- Some probe that `p` picks is still to be evaluated at a position that `q` picks. -/
def State.probesOpen (s : State) (x : Stream) (q : ProbeWait → Bool) (p : Model → Bool) : Bool :=
  x.probeWait.any fun w => !w.closed && q w && (s.waitProbes x w).any fun m => p m && !w.done.contains m.modelId

/-! ### The TAP packet (R157, R158) -/

structure TapSlot where
  slot : Nat
  len : Nat
  epoch : Nat
  change : Option Nat
  calFail : Bool
  values : Bytes
  valid : List Bool
  deriving DecidableEq, Repr

structure TapPkt where
  stream : Nat
  pos : Nat
  slots : List TapSlot
  bad : Bool
  deriving DecidableEq, Repr

def tapFlits (len : Nat) : Nat := ceilDiv len 64 + ceilDiv len 512

def tapDesc (p : Bytes) (k : Nat) : Nat := field p (0x18 + 8 * k) 8

/-- Offset of each present slot's data. -/
def tapOffsets (p : Bytes) : List Nat → Nat → List (Nat × Nat)
  | [], _ => []
  | k :: r, off => (k, off) :: tapOffsets p r (off + 64 * tapFlits (bits (tapDesc p k) 11 0))

def tapSlot (p : Bytes) (k off : Nat) : TapSlot :=
  let d := tapDesc p k
  let len := bits d 11 0
  let map := (p.drop (off + 64 * ceilDiv len 64)).take (64 * ceilDiv len 512)
  { slot := k, len := len, epoch := bits d 23 16, change := if bit d 24 then some (bits d 39 32) else none, calFail := bit d 25,
    values := slice p off len, valid := (List.range len).map fun i => bit (map.getD (i / 8) 0).toNat (i % 8) }

def tapSlotBad (p : Bytes) (k off : Nat) : Bool :=
  let d := tapDesc p k
  let len := bits d 11 0
  len % 64 != 0 || decide (len < 64) || decide (2048 < len) || bits d 15 12 != 0 || bits d 31 26 != 0 || bits d 63 40 != 0 ||
    !zeroRange p (off + 64 * ceilDiv len 64 + len / 8) (64 * ceilDiv len 512 - len / 8)

def TapPkt.of (p : Bytes) : TapPkt :=
  let mask := field p 0x12 1
  let present := (List.range 4).filter fun k => bit mask k
  let offs := tapOffsets p present 64
  let flits := 1 + (present.map fun k => tapFlits (bits (tapDesc p k) 11 0)).sum
  { stream := field p 0x10 2 % 16384, pos := field p 0x14 4, slots := offs.map fun q => tapSlot p q.1 q.2
    bad := decide (16384 ≤ field p 0x10 2) || mask == 0 || decide (16 ≤ mask) || !zeroRange p 0x13 1 || !zeroRange p 0x38 8 ||
      Hdr.flits p != flits || p.length != 64 * flits || (offs.any fun q => tapSlotBad p q.1 q.2) ||
      (List.range 4).any fun k => !bit mask k && tapDesc p k != 0 }

/-- Bytes of tap data that a Flue stages. -/
def State.stagedOn (s : State) (f : Nat) : Nat :=
  (s.streams.map fun p => if s.homeFlue p.2 = some f then (p.2.taps.map fun v => 64 * tapFlits v.valid.length).sum else 0).sum

def normKey (dom slot : Nat) : Nat := 4 * dom + slot

def State.norm (s : State) (dom slot : Nat) : NormSlot := (tget s.norms (normKey dom slot)).getD ⟨none, none, none, none⟩

def NormSlot.bank (n : NormSlot) (epoch : Nat) : Option NormBank :=
  ([n.bank0, n.bank1].filterMap id).find? fun b => b.epoch == epoch

/-- CAL_FAIL (R161): the state after a vector, and whether it is absent on this account. -/
def NormSlot.cal (n : NormSlot) (v : TapSlot) : NormSlot × Bool :=
  let m := { n with latest := some v.epoch }
  if v.calFail then ({ m with calFail := some v.epoch }, true)
  else match n.calFail with
    | none => (m, false)
    | some e => if v.epoch = e then (m, true) else ({ m with calFail := none }, false)

/-- The vectors of a TAP at its stamp: CAL_FAIL and the latest epoch of the port's domain and slots move, whatever becomes of the
packet afterwards (R160, R161). The answer tells which are absent on that account. -/
def State.calTap (dom : Nat) (c : TapPkt) (s : State) : State × List (TapSlot × Bool) :=
  c.slots.foldl (fun (a : State × List (TapSlot × Bool)) v =>
    let k := (a.1.norm dom v.slot).cal v
    ({ a.1 with norms := tset a.1.norms (normKey dom v.slot) k.1 }, a.2 ++ [(v, k.2)])) (s, [])

/-- Stage one slot of an accepted TAP: normalised by the bank of its epoch; without one it is absent and counted (R160). -/
def State.stageSlot (sid dom pos : Nat) (q : TapSlot × Bool) (s : State) : State :=
  match s.stream sid with
  | none => s
  | some x =>
    let v := q.1
    let bank := (s.norm dom v.slot).bank v.epoch
    let s2 := if bank.isNone then s.ctxCount x.e.ctx Cnt.tapNormMissing else s
    let r := s2.calc x.e.ctx (normalise ((bank.map (·.pairs)).getD []) v.values v.valid)
    r.2.modStream sid fun x =>
      { x with taps := x.taps ++ [⟨pos, v.slot, s.count, r.1, v.valid, v.epoch, v.change, q.2 || bank.isNone⟩] }

/-- A TAP of the port's own domain and a good layout, for a stream that takes taps (R158). -/
def State.takeTap (dom : Nat) (c : TapPkt) (vs : List (TapSlot × Bool)) (s : State) : State :=
  match s.stream c.stream with
  | none => s
  | some x =>
    let ctx := x.e.ctx
    let taken := !(x.e.state == .intake || x.e.state == .generating || x.e.state == .held)
    let w := x.probeWait.find? fun w => w.pos == c.pos
    if taken ∨ c.pos + 1 < x.e.commitPtr ∨ x.e.commitPtr + 16 < c.pos then s.ctxCount ctx Cnt.tapDiscarded
    else if w.any fun w => decide (w.deadline < s.count) then s.ctxCount ctx Cnt.tapLate
    else
      let came := fun (k : Nat) => (x.taps.any fun t => t.pos == c.pos && t.slot == k) || w.any fun w => w.seen.contains k || w.views.any fun q => q.slot == k
      let fresh := vs.filter fun q => !came q.1.slot
      let s1 := if fresh.length = vs.length then s else s.ctxCount ctx Cnt.tapDiscarded
      let need := (fresh.map fun q => 64 * tapFlits q.1.len).sum
      if fresh.isEmpty then s1
      else if (s.homeFlue x).any fun f => decide (1048576 < s.stagedOn f + need) then s1.ctxCount ctx Cnt.tapOverflow
      else
        let s2 := fresh.foldl (fun (s : State) q => s.stageSlot c.stream dom c.pos q) s1
        (s2.settleProbes c.stream none (s2.probeFuel x)).startFlues

/-- A TAP at its stamp. -/
def State.receiveTap (dom : Nat) (pkt : Bytes) (s : State) : State :=
  let c := TapPkt.of pkt
  match s.stream c.stream with
  | none => if c.bad then s else (s.calTap dom c).1
  | some x =>
    if x.e.state ≠ .free ∧ x.e.domain ≠ dom then s.domCount dom Cnt.tapForeign
    else
      let lens := tapLengths (((s.ctx x.e.ctx).probeModels x.e.imagePins))
      if c.bad || c.slots.any fun v => lens.any fun q => q.1 == v.slot && q.2 != v.len then
        (if x.e.state = .free then s else s.ctxCount x.e.ctx Cnt.tapFormat)
      else
        let r := s.calTap dom c
        if x.e.state = .free then r.1 else r.1.takeTap dom c r.2

end Sys2Proof.Machine
end

