-- ==== Sys2Proof/Machine/Commit.lean ====
section
/-! DEFINITION. The commit step of a CANDIDATES item, the end of a generated run, copy sources and the draft length
(R74, R84, R85, R109, R151, R162, R203, R210 to R212, R215, R235, R241 to R248). -/

namespace Sys2Proof.Machine

/-! ### Stepping a committed token (R73, R84) -/

/-- Step symbols up to the first NEW_MATCH state. -/
def stepUntil (p : PatternSet) (pos : Nat) : List Sym → Walk → Walk
  | [], w => w
  | y :: r, w =>
    let n := stepSym p pos w y
    if (setState p n.state).newMatch then n else stepUntil p pos r n

/-- A committed token on one OUTPUT set: a lookahead set takes the end state of its lookahead, the others every symbol. -/
def outputStep (p : PatternSet) (v : Vocab) (w : Walk) (k : Nat × Nat) : Walk :=
  if setLookahead p then stepUntil p k.1 (tokenSyms v k.2) w else stepTokens p v w [k]

/-- What a set's events do to an item, and the set's window to its stream (R80). -/
def State.applyEffect (n sid tok : Nat) (p : PatternSet) (state : Nat) (evs : List Event) (s : State) : State :=
  match s.item n, s.stream sid with
  | some it, some x =>
    let eff := setEffect p x.e.admitStamp it.stamp (tget x.screen.windows p.index) evs
    let es := (s.itemCtx it).fed it.pins false
    let s1 := s.modStream sid fun x =>
      let wins := fun (t : Tbl WinCount) => match eff.window with | some k => tset t p.index k | none => t
      { x with screen := { x.screen with outStates := tset x.screen.outStates p.index state, windows := wins x.screen.windows }
               rel := { x.rel with windows := wins x.rel.windows } }
    let s2 := (s1.recordEvents sid p true it.stamp evs).modItem n fun it =>
      { it with
        contribs := it.contribs ++ eff.blocks, flagged := it.flagged || eff.flag, abort := it.abort || eff.abort
        counts := if eff.ctxCount = 0 then it.counts else bump it.counts p.index eff.ctxCount
        tallies := addCounts es tok (grateCount p.index true evs) it.tallies }
    match eff.report with | some k => s2.windowEvent it.entry.ctx sid p.index 0 it.stamp k | none => s2
  | _, _ => s

/-- A committed token on one fingerprint set: a hit of a FLAG set flags its position, under TWO_HIT only as the second of two (R98,
R109, Table 5.2). -/
def State.commitFp (n sid tok id : Nat) (v : Vocab) (q : FpEntry × FpSetDef) (s : State) : State :=
  match s.item n, s.stream sid with
  | some it, some x =>
    match it.cand? with
    | none => s
    | some b =>
      let sel := (s.itemCtx it).fpSel it.pins
      let w := windowAt x.screen.outFp q.1.set
      let r := FpWindow.step q.2.n (b.first + tok) (fpToken sel v it.entry.vocab id) w
      let had := (b.lookups.find? fun l => l.pos == tok && l.token == id && l.set == q.1.set).bind (·.result)
      let res : Option Nat := if !r.2 then none
        else match had with
          | some k => some k
          | none => some (s.fpRead (s.store.newView it.stamp) q.1.set (fpHash q.2 r.1))
      let hit : Bool := match res with | some k => countsHit q.1 k | none => false
      let last := match res with | some k => lastHitAfter q.1 r.1.lastHit k | none => r.1.lastHit
      let es := (s.itemCtx it).fed it.pins false
      let s1 := if r.2 && had.isNone then s.meetFps [fpHash q.2 r.1] else s
      (s1.modStream sid fun x => { x with screen := { x.screen with outFp := tset x.screen.outFp q.1.set { r.1 with lastHit := last } } }).modItem n
        fun it =>
          { it with
            flagged := it.flagged || (hit && q.1.action == 1 && (!q.1.twoHit || r.1.lastHit))
            tallies := if hit then addCounts es tok (fun f => if f.kind = 1 ∧ f.argA = q.1.set then 1 else 0) it.tallies else it.tallies }
  | _, _ => s

/-! ### The rollback ring (R241, R244) -/

/-- The entry of a committed token (Table 10.5). -/
def Stream.ringEntry (x : Stream) (sel : FpSelection) (pos tok : Nat) (popped : Option Nat) : RingEntry :=
  let old := (tget x.screen.ring (pos % 64)).filter fun r => r.position == pos && r.token == tok
  let k := x.screen.gram
  { position := pos, token := tok, committed := true, held := false, drafted := match old with | some r => r.drafted | none => false,
    hostDraft := match old with | some r => r.hostDraft | none => false, popped := popped, gram := (k.sel, k.state, k.stack.length),
    lastHits := (sel.entries.filter (·.output)).map fun e => (windowAt x.screen.outFp e.set).lastHit, outStates := x.screen.outStates,
    byteEnd := x.screen.byteCount, outputCount := x.screen.outputCount }

/-! ### One committed token -/

/-- The canonical ids that a Flue keeps, newest last (R109). -/
def pushNorm (t : FpTok) (l : List Nat) : List Nat :=
  match t with
  | .canon c => let r := l ++ [c]; r.drop (r.length - 128)
  | _ => l

/-- Token `i` of an item: sets, windows, counts, grammar, ring, guards, probes (R84, R109, R151, R162). -/
def State.commitToken (n : Nat) (v : Vocab) (i id : Nat) (s : State) : State :=
  match s.item n with
  | none => s
  | some it =>
    match it.cand?, s.stream it.stream with
    | some b, some x =>
      let sid := it.stream
      let c := s.itemCtx it
      let pos := b.first + i
      let sets := c.patternSets it.pins
      let sel := c.fpSel it.pins
      let es := c.fed it.pins false
      let s1 := (sets.filter (·.output)).foldl (fun (s : State) p =>
        let w := outputStep p v ⟨stateAt x.screen.outStates p.index, x.screen.byteCount, x.screen.outTok, []⟩ (pos, id)
        s.applyEffect n sid i p w.state w.events) s
      let s2 := (s1.fpSets sel it.entry.vocab true).foldl (fun (s : State) q => s.commitFp n sid i id v q) s1
      let m := walkMap v x.screen.byteCount x.screen.outTok [(pos, id)]
      let g := match gateGrammar (c.gateImage it.pins) it.entry.vocab x.screen.gram.sel with
        | some q => gramStep q id x.screen.gram
        | none => none
      let s3 := s2.modStream sid fun x =>
        let scr := { x.screen with
          byteCount := m.1, outTok := m.2, outputCount := x.screen.outputCount + 1
          gram := match g with | some r => r.1 | none => x.screen.gram
          normIds := pushNorm (fpToken sel v it.entry.vocab id) x.screen.normIds }
        let y := { x with screen := scr, rel := { x.rel with byteCount := m.1 } }
        { y with screen := { y.screen with ring := tset y.screen.ring (pos % 64) (y.ringEntry sel pos id (g.bind (·.2))) } }
      let s4 := match s3.stream sid with
        | none => s3
        | some x => s3.modItem n fun it =>
            { it with tallies := sets.foldl (fun (l : List (Nat × Nat)) (p : PatternSet) =>
                setCounts es i (fun (f : EnsFeature) => f.kind == 3 && f.argA == p.index) (x.windowCount c it.stamp p) l) it.tallies }
      let s5 := s4.takeToken sid n i id it.pins
      let s6 := if i = 0 ∨ (c.probesRun it.pins).isEmpty then s5
        else s5.modStream sid (Stream.serve (pos - 1) n i (it.stamp + it.setting Setting.tapSkew))
      match if 2 ≤ it.setting Setting.draftMode then c.draftModel it.pins else none with
      | none => s6
      | some m => s6.modStream sid fun x =>
          let st := x.modelState m.modelId
          { x with screen := { x.screen with models := tset x.screen.models m.modelId { st with toks := st.toks ++ [id] } } }
    | _, _ => s

/-! ### The hold point (R85) -/

/-- The earliest output position that a live partial match holds. -/
def Stream.earliestPartial (x : Stream) (sets : List PatternSet) : Option Nat :=
  ((sets.filter fun p => p.output && (p.action == 1 || p.action == 2 || (p.action == 3 && p.holdPartial))).filterMap fun p =>
    partialFrom p ⟨stateAt x.screen.outStates p.index, x.screen.byteCount, x.screen.outTok, []⟩).foldl
      (fun (b : Option Nat) k => match b with | none => some k | some m => some (min m k)) none

/-! ### The end of a run (R74, R215) -/

/-- What END completes. -/
structure EndEffect where
  blocks : List Contrib
  flag : Bool
  abort : Bool
  counts : List (Nat × Nat)
  events : List (Nat × List Event)
  deriving DecidableEq, Repr

/-- END is presented to every OUTPUT set: the states return to START, the grammar and the guards' counts end. -/
def State.presentEnd (sid item tok stamp : Nat) (pins : List Nat) (s : State) : EndEffect × State :=
  match s.stream sid with
  | none => (⟨[], false, false, [], []⟩, s)
  | some x =>
    let c := s.ctx x.e.ctx
    let r := ((c.patternSets pins).filter (·.output)).foldl (fun (a : EndEffect × State) (p : PatternSet) =>
      let w := stepEnd p (match x.screen.outTok with | t :: _ => t.2 | [] => x.e.commitPtr - 1) ⟨stateAt x.screen.outStates p.index, x.screen.byteCount, x.screen.outTok, []⟩
      let eff := setEffect p x.e.admitStamp stamp (tget x.screen.windows p.index) w.events
      let wins := fun (t : Tbl WinCount) => match eff.window with | some k => tset t p.index k | none => t
      let s1 := (a.2.recordEvents sid p true stamp w.events).modStream sid fun x =>
        { x with screen := { x.screen with windows := wins x.screen.windows }, rel := { x.rel with windows := wins x.rel.windows } }
      let s2 := match eff.report with | some k => s1.windowEvent x.e.ctx sid p.index 0 stamp k | none => s1
      (⟨a.1.blocks ++ eff.blocks, a.1.flag || eff.flag, a.1.abort || eff.abort,
        if eff.ctxCount = 0 then a.1.counts else bump a.1.counts p.index eff.ctxCount, a.1.events ++ [(p.index, w.events)]⟩, s2))
      (⟨[], false, false, [], []⟩, s)
    (r.1, (r.2.modStream sid fun x => { x with screen := { x.screen with outStates := [], gram := ⟨0, 0, []⟩ } }).endTokens sid item tok pins)

/-- Vectors staged for positions from `pos` on, which a rejected draft removes or which nothing will serve, go (R158). -/
def Stream.unserved (pos : Nat) (x : Stream) : Stream := { x with taps := x.taps.filter fun v => decide (v.pos < pos) }

/-- The end of a run without an item of its own: END after the last committed token (R215). -/
def State.presentRunEnd (sid : Nat) (s : State) : State :=
  match s.stream sid with
  | none => s
  | some x =>
    match x.runEnd with
    | none => s
    | some r =>
      let e := s.presentEnd sid 0 0 r.stamp x.scrPins
      let first := firstContrib e.1.blocks
      let s1 := e.2.modStream sid fun x =>
        { x with runEnd := some { r with
            shown := true, verdict := if first.isSome then vBlock else if e.1.flag then vFlag else vPass
            source := if first.isSome then 1 else 0, rule := match first with | some k => k.rule | none => 0, withhold := first.isSome
            counts := e.1.counts, pins := x.scrPins }
                 extendPending := none }
      let s2 := (s1.modStream sid (Stream.unserved (x.e.commitPtr - 1))).startFlues
      if e.1.abort then s2.drain sid 8 else s2

/-! ### Copy sources (R233 to R235) -/

/-- The token in a slot of the prompt log. -/
def Stream.logSlot (x : Stream) (k : Nat) : Option Nat :=
  if x.logCount = 0 then none
  else
    let back := (x.logCount - 1 + logSize - k % logSize) % logSize
    if back < x.log.length then x.log[x.log.length - 1 - back]? else none

/-- The log position whose token a slot holds. -/
def Stream.slotPosition (x : Stream) (k : Nat) : Nat := x.logCount - 1 - (x.logCount - 1 + logSize - k % logSize) % logSize

/-- The log position at which a key's lookup finds an entry. -/
def Stream.findKey (x : Stream) (key : List Nat) : Option Nat :=
  let k := copyKey key
  match tget x.index k.1 with
  | none => none
  | some e =>
    let slot := e % 2 ^ 17
    let held := (List.range key.length).map fun i => x.logSlot (slot + logSize - (key.length - 1 - i))
    if e / 2 ^ 17 = k.2 ∧ held = key.map some then some (x.slotPosition slot) else none

/-- The copy source after an item that committed tokens (R235). -/
def Stream.copySource (x : Stream) (first keyLen : Nat) (skip : Bool) (accepted : Nat) (chosen : List Nat) : Option Nat :=
  match chosen.getLast? with
  | none => x.screen.source
  | some last =>
    let before := (x.record.filter fun r => decide (r.1 < first)).map fun r => r.2 % 2 ^ 18
    let toks := before ++ chosen.take accepted
    let key := toks.drop (toks.length - keyLen)
    let exact := if key.length = keyLen then (x.findKey key).filter fun e => decide (e + 1 < x.logCount) && x.logSlot (e + 1) == some last else none
    match exact with
    | some e => some (e + 2)
    | none => if skip then x.screen.source.map (· + chosen.length) else none

/-! ### Draft length (R247, R248) -/

/-- The draft length, miss count and rounds since it became 0, after a round. -/
def Stream.round (x : Stream) (kMax positions accepted : Nat) : Stream :=
  let k := min x.screen.draftLen kMax
  let z := x.screen.missCount
  let r : Nat × Nat :=
    if positions < 2 then (k, z)
    else if accepted = 0 then (if 8 ≤ z + 1 then k - 1 else k, z + 1)
    else (if accepted + 1 = positions then min kMax (k + 1) else k, 0)
  { x with
    screen := { x.screen with draftLen := r.1, missCount := r.2 }
    roundsSinceZero := if r.1 ≠ 0 then 0 else if k ≠ 0 then 0 else x.roundsSinceZero + 1 }

/-! ### CLIENT_END_BYTE (R212) -/

/-- Where the client's text ends: `hit` is the bytes taken into the last token and the match's depth. -/
def clientEnd (trim : Bool) (lastByte : Nat) (firstUnreleased : Option Nat) (hit : Nat × Nat) : Nat :=
  let stop := lastByte + hit.1
  if trim then max (stop - hit.2) (firstUnreleased.getD 0) else stop

/-! ### The commit step -/

/-- After the tokens: the hold point, END when the item ends the run, the copy source, the draft length, the pointers.
HOLDBACK_OVERFLOW does not count for an item whose END ends the run without a BLOCK, since it holds no token: DESIGN CHOICE, R85
does not say (log 104). -/
def State.commitTail (n : Nat) (lastByte : Nat) (s : State) : State :=
  match s.item n with
  | none => s
  | some it =>
    match it.cand?, s.stream it.stream with
    | some b, some x =>
      let sid := it.stream
      let c := s.itemCtx it
      let sets := c.patternSets it.pins
      let stop := b.first + b.chosen.length
      let part := x.earliestPartial sets
      let hold := min stop (part.getD stop)
      let far := decide (hold + 32 < stop)
      let hold := if far then stop - 32 else hold
      let ends := b.endReason != 0
      let unreleased := b.first - x.heldOut.length
      let firstByte := ((x.screen.outTok.filter fun t => decide (unreleased ≤ t.2)).map (·.1)).getLast?
      let e := if ends then s.presentEnd sid n (b.chosen.length - 1) it.stamp it.pins else (⟨[], false, false, [], []⟩, s)
      let blocked := !e.1.blocks.isEmpty && !e.1.abort
      let point := if ends && !blocked then stop else hold
      let es := c.fed it.pins false
      let s1 := e.2.modItem n fun it =>
        { it with
          contribs := if e.1.abort then it.contribs ++ e.1.blocks else it.contribs
          flagged := it.flagged || e.1.flag, abort := it.abort || e.1.abort
          counts := e.1.counts.foldl (fun (l : List (Nat × Nat)) k => bump l k.1 k.2) it.counts
          tallies :=
            let t0 := match e.2.stream sid with
              | some y => if ends then sets.foldl (fun (l : List (Nat × Nat)) (p : PatternSet) =>
                  setCounts es (b.chosen.length - 1) (fun (f : EnsFeature) => f.kind == 3 && f.argA == p.index) (y.windowCount c it.stamp p) l) it.tallies
                else it.tallies
              | none => it.tallies
            let t1 := e.1.events.foldl (fun (l : List (Nat × Nat)) k => addCounts es (b.chosen.length - 1) (grateCount k.1 true k.2) l) t0
            (List.range b.chosen.length).foldl (fun (l : List (Nat × Nat)) i =>
              setCounts es i (fun f => f.kind == 7) (if ends then 0 else stop - max unreleased point) l) t1
          body := .cand { b with
            committed := true, holdPoint := point, endBlock := if blocked then firstContrib e.1.blocks else none
            stopHit := b.stopHit.map fun h => (clientEnd (it.setting Setting.stopTrim == 1) lastByte firstByte h, h.2) } }
      let s2 := if far && (blocked || !ends) then s1.ctxCount it.entry.ctx Cnt.holdbackOverflow else s1
      let s3 := s2.modStream sid fun x =>
        let y := { x with
          runEnd := if ends then none else x.runEnd
          proposal := none, extendPending := if ends then none else x.extendPending, e := { x.e with lengthPtr := stop, rewindMark := stop }
          screen := { x.screen with
            ring := x.screen.ring.filter fun r => decide (r.2.position < stop)
            source := x.copySource b.first (it.setting Setting.copyKey) (it.setting Setting.copySkip == 1) b.accepted b.chosen } }
        if b.extend then y else y.round (it.setting Setting.draftKMax) b.positions.length b.accepted
      let s4 := if b.accepted = 0 then s3 else s3.ctxCountBy it.entry.ctx Cnt.accepted b.accepted
      let s5 := s4.modStream sid (Stream.unserved (if ends then stop - 1 else if b.accepted < b.drafts.length then b.first + b.accepted else stop + 16))
      (s5.settleProbes sid none (match s5.stream sid with | some y => s5.probeFuel y | none => 0)).startFlues
    | _, _ => s

/-- The commit step of a decided item (R84, R242, R244). -/
def State.commitStep (n : Nat) (ringErr : Bool) (s : State) : State :=
  match s.item n with
  | none => s
  | some it =>
    match it.cand?, s.stream it.stream, tget s.vocabs it.entry.vocab with
    | some b, some x, some v =>
      if !(it.live && b.finished && !b.committed) then s
      else if ringErr || ((List.range b.chosen.length).any fun i => !ringFree x.screen.ring (b.first + i)) ||
          ((List.range b.accepted).any fun i => !ringHolds x.screen.ring (b.first + i)) then s.loseRewind it.stream
      else
        let g := startGram ((s.itemCtx it).gateImage it.pins) it.entry.vocab b.gramSel x.screen.gram
        let starts := if b.chosen.isEmpty ∨ b.gramSel = x.screen.gram.sel then [] else [(b.first, b.gramSel)]
        let s1 := (s.modStream it.stream fun x =>
          { x with
            screen := { x.screen with gram := g }
            gramStarts := (x.gramStarts.filter fun k => decide (x.e.ckptPos ≤ k.1) && decide (k.1 < b.first)) ++ starts }).modCand n fun b => { b with prior := some x.screen }
        let s2 := (indexed b.chosen).foldl (fun (s : State) k => s.commitToken n v k.1 k.2) s1
        let last := match b.chosen.getLast? with | some t => tokenLen v t | none => 0
        match s2.stream it.stream with
        | some y => s2.commitTail n (y.screen.byteCount - last)
        | none => s2
    | _, _, _ => s

end Sys2Proof.Machine
end

