-- ==== Sys2Proof/Machine/Drafting.lean ====
section
/-! DEFINITION. The Prospector: copy and neural proposals, their pre-screen and the bounds that let their tokens pass (R231
to R237, R248, Tables 9.8 and 10.3). Times here are in fabric cycles from the item's stamp: 14 a device count. -/

namespace Sys2Proof.Machine

/-! ### Bounds (R220, R232) -/

/-- The largest LOOKAHEAD_CYCLES of an item's lookahead sets. -/
def State.lookCycles (s : State) (it : Item) : Nat := maxOf ((s.lookSets it).map (·.lookaheadCycles))

/-- DECIDE_BOUND: the bound of the commit record of the last position decided. -/
def State.decideBound (s : State) (it : Item) (b : CandBody) : Nat :=
  let lc := s.lookCycles it
  let p := b.positions.length
  let dispatch := 70 + if p ≤ 1 ∨ b.kept then 0 else (p - 1) * lc
  let fps := s.fpSets ((s.itemCtx it).fpSel it.pins) it.entry.vocab true
  dispatch + max (max 42 (lc + 4)) (if fps.isEmpty then 0 else 1540) + 70 * b.decided

/-- The copy results' bound, 1.23 µs. -/
def copyBound : Nat := 1722

/-- The cutoff, 0.05 µs before the release. -/
def Item.cutoff (it : Item) : Nat := 14 * (it.due - it.stamp) - 70

/-! ### Neural drafts (R236) -/

/-- The shortlist of a DRAFT model: its last record's output j scores token j of it. -/
def shortlist (m : Model) (j : Nat) : Nat :=
  match m.layers.getLast? with
  | none => 0
  | some l => field m.params (l.param + (if l.bias then 4 * l.outWidth else 0) + (if l.dynScale ∨ 3 < m.format then 0 else 4) + 4 * j) 4 % 2 ^ 18

/-- The largest output's place, the lower of equals. -/
def argMax (ys : List Fp32) : Nat :=
  ((indexed ys).foldl (fun (a : Nat × Fp32) q => if flt a.2 q.2 then q else a) (0, ys.headD (fZero false))).1

/-- A drafted token and its probability: the softmax of the largest output. -/
def draftToken (width : Nat) (m : Model) (ys : List Fp32) : Calc (Nat × Fp16) := do
  let j := argMax ys
  let top := ys.getD j (fZero false)
  let es ← ys.mapM fun y => do
    let d ← Calc.sub y top
    Calc.note [d] (exp2ulp d)
  let p ← Calc.div (es.getD j (fZero false)) (← reduceVec width es)
  let q := (toFp16 p).1
  return (shortlist m j, if q.toNat % 2 ^ 15 = 0 then 1 else q)

/-- Step the DRAFT model over tokens: its last output and its state. -/
def draftSteps (env : PassEnv) (m : Model) (summary : List Fp32) (toks : List Nat) (y st : List Fp32) : Calc (List Fp32 × List Fp32) :=
  toks.foldlM (fun (a : List Fp32 × List Fp32) t => evalToken env m ⟨[some t], none, [], summary⟩ a.2) (y, st)

/-- Drafted tokens in order, each from the state after the one before. -/
def draftRun (env : PassEnv) (m : Model) (summary : List Fp32) : Nat → List Fp32 → List Fp32 → Calc (List (Nat × Fp16))
  | 0, _, _ => pure []
  | k + 1, y, st => do
    let t ← draftToken env.width m y
    if k = 0 then return [t]
    else
      let r ← evalToken env m ⟨[some t.1], none, [], summary⟩ st
      return t :: (← draftRun env m summary k r.1 r.2)

/-- The model's state after the pending committed tokens, at most 32 of which its first pass carries, and up to `k` drafted tokens
(R236). -/
def State.neural (it : Item) (m : Model) (k : Nat) (s : State) : List (Nat × Fp16) × State :=
  match s.stream it.stream with
  | none => ([], s)
  | some x =>
    let st := x.modelState m.modelId
    if st.toks.isEmpty then ([], s)
    else
      let env := s.passEnv it.entry (laneWidth 256) (some (Config.partialOrder s.freshCtr))
      let sum := s.summaryOf x it.entry.ctx it.pins
      let r := s.fresh.calc it.entry.ctx (do
        let a ← draftSteps env m sum (st.toks.take 32) [] (x.words m)
        let d ← draftRun env m sum k a.1 a.2
        return (a.2, d))
      (r.1.2, r.2.modStream it.stream fun x =>
        { x with screen := { x.screen with models := tset x.screen.models m.modelId { st with words := r.1.1, toks := st.toks.drop 32 } } })

/-! ### The pre-screen (R237) -/

/-- Where the pre-screen stands: the lookahead states and the grammar. -/
structure DraftChain where
  states : List (Nat × Nat)
  gram : GramCfg
  deriving DecidableEq, Repr

/-- One token: `none` when a stage masks it, else the chain after it and whether the proposal ends with it. -/
def State.screenDraft (s : State) (it : Item) (b : CandBody) (v : Vocab) (a : DraftChain) (t : Nat) : Option (DraftChain × Bool) :=
  let g := (s.itemCtx it).gateImage it.pins
  let policy := gatePolicy g it.entry.vocab
  let allowed := b.allowSel == 0 || (match policy with
    | some p => bit ((p.allowed.getD (b.allowSel - 1) []).getD (t / 8) 0).toNat (t % 8)
    | none => false)
  let gram := if a.gram.sel = 0 then some a.gram else (gateGrammar g it.entry.vocab a.gram.sel).bind fun q => (gramStep q t a.gram).map (·.1)
  let looks := (s.lookSets it).map fun p => (p, lookWalk p (tokenSyms v t) (stateAt a.states p.index) 0)
  if v.entries.length ≤ t ∨ vocabSpecial v t ∨ !allowed ∨ looks.any (fun q => q.1.action == 2 && q.2.2.2) then none
  else gram.map fun k =>
    let stops := match policy with | some p => p.stops.contains t | none => false
    let accepts := match gateGrammar g it.entry.vocab k.sel with | some q => q.stopOnAccept && gramAccepting q k | none => false
    (⟨looks.map fun q => (q.1.index, q.2.1), k⟩, stops || accepts || looks.any fun q => q.1.action == 3 && q.2.2.2)

/-- The admitted prefix of a proposal, with whether it was shortened by a mask: `src` gives a token's source bound and
`at` the step bound of the token before. -/
def State.screenProposal (s : State) (it : Item) (b : CandBody) (v : Vocab) (src : Nat → Nat) (lc : Nat) :
    List (Nat × Fp16) → Nat → Nat → DraftChain → List (Nat × Fp16) × Bool
  | [], _, _, _ => ([], false)
  | t :: r, i, prev, a =>
    let step := max (src i) prev + lc
    if it.cutoff < step + 4 then ([], false)
    else
      match s.screenDraft it b v a t.1 with
      | none => ([], true)
      | some (a2, last) =>
        if last then ([t], false)
        else let n := s.screenProposal it b v src lc r (i + 1) step a2; (t :: n.1, n.2)

/-! ### The proposal (R231, R236, R248) -/

/-- Copied tokens from the source onwards, the newest log position the last. -/
def Stream.copied (x : Stream) (k : Nat) : List (Nat × Fp16) :=
  match x.screen.source with
  | none => []
  | some src => ((List.range k).filterMap fun i => if src + i < x.logCount then x.logSlot (src + i) else none).map fun t => (t, 0x3C00#16)

/-- A proposal's length and whether it is a probe. -/
def Stream.draftSize (x : Stream) (kMax : Nat) : Nat × Bool :=
  let k := min x.screen.draftLen kMax
  if k = 0 ∧ x.roundsSinceZero ≠ 0 ∧ x.roundsSinceZero % 64 = 0 then (1, true) else (k, false)

/-- After a commit step the DRAFT model's first pass becomes pending, from DECIDE_BOUND on; under a neural proposal one more follows for
each further token (R133, R236). -/
def State.startDraft (n : Nat) (s : State) : State :=
  match s.item n with
  | none => s
  | some it =>
    match it.cand?, s.stream it.stream with
    | some b, some x =>
      let mode := it.setting Setting.draftMode
      match if 2 ≤ mode ∧ b.committed ∧ !b.cutoffDone ∧ !(s.itemCtx it).gateEngines.isEmpty then (s.itemCtx it).draftModel it.pins else none with
      | none => s
      | some m =>
        let k := (x.draftSize (it.setting Setting.draftKMax)).1
        let more := if mode = 2 ∨ (x.copied k).isEmpty then k - 1 else 0
        s.enqueue ⟨it.stream, it.entry.ctx, 2, it.pins.getD 2 0, m.modelId, [], n, 1, none, [], [], none, false,
          it.stamp + ceilDiv (s.decideBound it b) 14, some more⟩
    | _, _ => s

/-- The cutoff of an item: its proposal is formed; `completed` of its tokens are complete (R232). DRAFT_EN is read at the
item's stamp (R17); a failed Prospector leaves every proposal empty (Table 15.4). -/
def State.propose (n completed : Nat) (s : State) : State :=
  match s.item n with
  | none => s
  | some it =>
    match it.cand?, s.stream it.stream, tget s.vocabs it.entry.vocab with
    | some b, some x, some v =>
      if !(it.live && b.committed && !b.cutoffDone && decide (14 * it.stamp + it.cutoff ≤ 14 * s.count)) then s
      else
        let mode := it.setting Setting.draftMode
        let c := s.itemCtx it
        let size := x.draftSize (it.setting Setting.draftKMax)
        let held := b.first + b.chosen.length - max (b.first - x.heldOut.length) b.holdPoint
        let wanted := it.entry.draftEn && !s.failed.contains .prospector && mode != 0 && size.1 != 0 && b.endReason == 0 &&
          b.exhausted.isNone && it.final != some vBlock && decide (held + size.1 + 1 ≤ 64)
        let copies := if wanted ∧ mode ≠ 2 then x.copied size.1 else []
        let useNeural := wanted && (mode == 2 || (mode == 3 && copies.isEmpty))
        let engines := c.gateEngines.length
        let nr : List (Nat × Fp16) × State := match if 2 ≤ mode then c.draftModel it.pins else none with
          | none => ([], s)
          | some m => s.neural it m (if useNeural && engines != 0 then size.1 else 0)
        let decide_ := s.decideBound it b
        let tick := ceilDiv (14 * it.stamp + decide_) 700 * 700 - 14 * it.stamp
        let pass := match c.draftModel it.pins with | some m => 700 * passTicks m engines 256 | none => 0
        let src := fun (i : Nat) => if useNeural then tick + (i + 1) * pass else max decide_ copyBound
        let r := nr.2.screenProposal it b v src (s.lookCycles it) (if useNeural then nr.1 else copies) 0 0 ⟨x.screen.outStates, x.screen.gram⟩
        let toks := r.1.take completed
        let lost := r.1.length - toks.length
        nr.2.modCand n fun b =>
          { b with cutoffDone := true, draft := if wanted then some ⟨b.first + b.chosen.length, toks, toks.map fun _ => useNeural, size.2, r.2, lost⟩ else none }
    | _, _, _ => s

end Sys2Proof.Machine
end

