-- ==== Sys2Proof/Machine/Progress.lean ====
section
/-! DEFINITION. What follows of itself from a step of the data plane: screening of the next item begins, END is
presented, verdicts become final, late items and late reports leave, a draining stream goes on (R61, R62, R67, R68, R184, R187,
R198, R213, R215, R223, Tables 3.7 and 9.9). Engine work takes no time of its own here (log 8). -/

namespace Sys2Proof.Machine

/-! ### How far an item has come -/

/-- The items after it may begin: its own screening has begun, or its tokens are committed. -/
def Item.opened (it : Item) : Bool :=
  !it.live || (match it.body with | .chunk b => b.pfx || b.begun | .cand b => b.committed)

/-- Every Grate and fingerprint feature of a chunk has come. -/
def ChunkBody.screened (b : ChunkBody) : Bool := b.begun && b.tasks.isEmpty && b.lookups.all (·.committed)

/-- Every guard score of a chunk has come; a slice run for state only gives none. -/
def ChunkBody.scored (b : ChunkBody) : Bool := b.slices.all fun l => l.scores.isSome

def Item.screened (it : Item) : Bool :=
  !it.live || (match it.body with | .chunk b => b.pfx || b.screened | .cand b => b.committed)

/-- Its values have entered the accumulators. -/
def Item.settled (it : Item) : Bool :=
  !it.live || (match it.body with | .chunk b => b.pfx || b.evaluated | .cand b => b.committed && decide (b.chosen.length ≤ b.evalTok))

/-- Items of a stream before an item. -/
def State.before (s : State) (sid n : Nat) : List (Nat × Item) := (s.itemsOf sid).filter fun p => decide (p.1 < n)

/-- No accepted item before it is still unanswered. -/
def State.atHead (s : State) (sid n : Nat) : Bool := (s.before sid n).all fun p => !p.2.live || p.2.answered

/-- Every packet of the same kind of an earlier item of the stream has left: the packets of a stream leave in stamp order (R67,
R222). -/
def State.inOrder (s : State) (n : Nat) (it : Item) : Bool :=
  !it.owned || (s.before it.stream n).all fun p => p.2.isChunk != it.isChunk || p.2.answered

/-! ### Beginning (R61, R69, R198) -/

def State.mayBegin (s : State) (x : Stream) (n : Nat) (it : Item) : Bool :=
  let earlier := s.before it.stream n
  !s.stalled x it.stamp && x.e.hotSlot.any (fun h => it.isChunk || !s.pipeWaits h) && x.restore.isNone && !x.e.restoring && earlier.all (fun p => p.2.opened) &&
    (it.isChunk || earlier.all fun p => p.2.screened) &&
    (x.runEnd.all fun r => r.shown || (!it.isChunk && decide (n < r.before))) &&
    (it.isChunk || it.entry.phase == .generating || x.e.phase == .generating) &&
    (x.scrPins == it.pins || (earlier.all (fun p => p.2.settled) && !(s.probesOpen x (fun _ => true) fun _ => true) && !(s.passes.any fun p => p.stream == it.stream && p.draft.isNone)))

/-- A CANDIDATES item that has begun serves the input position before its first (R158). -/
def State.serveInput (n : Nat) (it : Item) (s : State) : State :=
  match it.cand?, s.stream it.stream with
  | some b, some x =>
    if b.first = 0 ∨ ((s.itemCtx it).probesRun it.pins).isEmpty ∨ !((s.item n).any fun i => i.cand?.any (·.begun)) then s
    else
      let y := x.serve (b.first - 1) n 0 (it.stamp + it.setting Setting.tapSkew)
      let s1 := s.modStream it.stream fun _ => y
      (s1.settleProbes it.stream none (s1.probeFuel y)).startFlues
  | _, _ => s

def State.beginItem (n : Nat) (it : Item) (s : State) : State :=
  if it.isChunk then ((s.beginChunk n).settleLookups it.stream).wakeWaiting else (s.beginCand n).serveInput n it


def State.tryBegin (sid : Nat) (x : Stream) (s : State) : Option State :=
  match (s.liveOf sid).find? fun p => !(match p.2.body with | .chunk b => b.pfx || b.begun | .cand b => b.begun) with
  | none => none
  | some p => if s.mayBegin x p.1 p.2 then some (s.beginItem p.1 p.2) else none

/-- An item stamped in a HELD stream that has returned to INTAKE is refused (R198). -/
def State.tryRefuse (sid : Nat) (x : Stream) (s : State) : Option State :=
  if x.e.state = .intake then
    ((s.liveOf sid).find? fun p => p.2.entry.phase == .intake && (p.2.cand?.any fun b => !b.begun)).map fun p =>
      s.modItem p.1 fun it => { it with refused := some E.state }
  else none

/-- END without an item: every CANDIDATES item stamped before the ending has been committed (R215). -/
def State.tryEnd (sid : Nat) (x : Stream) (s : State) : Option State :=
  match x.runEnd with
  | none => none
  | some r =>
    if !r.shown ∧ (s.before sid r.before).all (fun p => p.2.isChunk || p.2.opened) then some (s.presentRunEnd sid) else none

/-! ### Verdicts (R62, R182, R213) -/

/-- A chunk whose features are complete and that no ensemble judges. -/
def State.chunkReady (s : State) (sid n : Nat) (it : Item) : Bool :=
  it.live && it.final.isNone && (s.before sid n).all (fun p => p.2.settled) &&
    (match it.body with | .chunk b => !b.pfx && b.screened && b.scored | .cand _ => false)

def State.tryFinalChunk (sid : Nat) (s : State) : Option State :=
  ((s.liveOf sid).find? fun p => s.chunkReady sid p.1 p.2 && ((s.itemCtx p.2).ensemble p.2.pins 0).isNone).map fun p =>
    s.modItem p.1 fun it => { it with final := some it.verdict }

/-- A final chunk's values are accumulated once they are complete. -/
def State.tryAccumulate (sid : Nat) (s : State) : Option State :=
  ((s.liveOf sid).find? fun p => p.2.final.isSome && (s.before sid p.1).all (fun q => q.2.settled) &&
    (match p.2.body with | .chunk b => !b.evaluated && !b.pfx && b.screened && b.scored | .cand _ => false)).map fun p => s.accumulate p.1 0

/-- Nothing INLINE of a committed token is outstanding (R152, R163). -/
def State.tokenReady (s : State) (x : Stream) (n : Nat) (tok : Nat) : Bool :=
  !(s.passes.any fun p => p.item == n && p.tok == tok && p.draft.isNone && (match s.passModel p with | some m => m.inlineGov | none => false)) &&
    !(s.probesOpen x (fun w => w.item == n && w.tok == tok) (·.inlineGov))

/-- The next token of a committed item may be evaluated. -/
def State.tokenTurn (s : State) (x : Stream) (sid n : Nat) (it : Item) : Option Nat :=
  match it.cand? with
  | none => none
  | some b =>
    if it.live && b.committed && it.final.isNone && decide (b.evalTok < b.chosen.length) && (s.before sid n).all (fun p => p.2.settled) &&
        s.tokenReady x n b.evalTok then some b.evalTok
    else none

/-- A token's verdict is final: its values are accumulated. -/
def State.tokenFinal (n tok : Nat) (s : State) : State :=
  (s.accumulate n tok).modItem n fun it => it.onCand fun b => { b with evalTok := b.evalTok + 1, tokVerdicts := b.tokVerdicts ++ [it.verdict] }

def State.tryToken (sid : Nat) (x : Stream) (s : State) : Option State :=
  ((s.liveOf sid).find? fun p => (s.tokenTurn x sid p.1 p.2).isSome && ((s.itemCtx p.2).ensemble p.2.pins 1).isNone).bind fun p =>
    (s.tokenTurn x sid p.1 p.2).map fun k => s.tokenFinal p.1 k

def State.tryFinalCand (sid : Nat) (s : State) : Option State :=
  ((s.liveOf sid).find? fun p => p.2.final.isNone && (match p.2.cand? with
    | some b => b.committed && decide (b.chosen.length ≤ b.evalTok)
    | none => false)).map fun p => s.modItem p.1 fun it => { it with final := some it.verdict }

/-! ### Answers after their time (R68, R223, R346, R415) -/

/-- The plain answer of an item: refused, cut, or a verified prefix. -/
def State.plainAnswer (n : Nat) (it : Item) (s : State) : State :=
  match it.body with
  | .chunk b => s.plainIn n it b
  | .cand b => s.plainOut n it b

def State.finalAnswer (n : Nat) (it : Item) (late : Bool) (s : State) : State :=
  if it.isChunk then s.answerChunk n late else s.answerCand n late

/-- The answer of an item that releases, once the accesses of its release have met no poisoned page. -/
def State.answerOr (n : Nat) (it : Item) (f : State → State) (s : State) : State :=
  match s.meetPages it.stream recordPages with
  | none => f s
  | some s1 => match s1.item n with | some it1 => s1.plainAnswer n it1 | none => s1

/-- The cause LATE goes with the last late item (Tables 3.7 and 9.9). -/
def State.clearLate (sid : Nat) (s : State) : State :=
  if (s.itemsOf sid).any fun p => p.2.overdue && !p.2.answered then s else s.modEntry sid (·.unhold true false false)

def Item.plain (it : Item) : Bool := it.refused.isSome || it.cut.isSome

/-- The late policy of an item not ready at its release time (R68, R223). -/
def State.latePolicy (n : Nat) (it : Item) (s : State) : State := if it.isChunk then s.lateChunk n else s.lateCand n

/-- An item past its time may leave: a plain one in its turn, another once it is ready, or was found late behind others, and no
accepted one before it is unanswered. -/
def State.mayAnswer (s : State) (x : Stream) (sid n : Nat) (it : Item) : Bool :=
  let carries := x.runEnd.any fun r => r.carrier == some n && !r.shown
  (it.overdue || it.waits.isSome) && !it.answered &&
    (if it.plain then !carries && s.inOrder n it
      else if (it.chunk?.any (·.pfx)) then s.inOrder n it
      else s.atHead sid n && !s.awaits x.e.ctx && (it.final.isSome || (it.waits.isSome && !it.overdue)))

/-- An item past its time leaves. -/
def State.tryAnswer (sid : Nat) (x : Stream) (s : State) : Option State :=
  ((s.itemsOf sid).find? fun p => s.mayAnswer x sid p.1 p.2).map fun p =>
    let it := p.2
    let s1 := if it.plain || it.chunk?.any (·.pfx) then s.plainAnswer p.1 it
      else s.answerOr p.1 it fun s =>
        if it.overdue then s.finalAnswer p.1 it true
        else if it.waits = some true then s.finalAnswer p.1 it false
        else s.latePolicy p.1 it
    s1.clearLate sid

/-- An answered item whose verdict and values are settled: it was released under PASS_MARKED and is reported, or was
withheld before its screening ended. -/
def State.tryReport (sid : Nat) (s : State) : Option State :=
  ((s.itemsOf sid).find? fun p => p.2.answered && (p.2.cut.isSome || (p.2.final.isSome && p.2.settled))).map fun p =>
    if p.2.live && p.2.late && !p.2.overdue then (if p.2.isChunk then s.reportChunk p.1 else s.reportCand p.1)
    else
      match p.2.chunk? with
      | some b => (s.modStream sid fun x => { x with rel := inputOf b.after x.rel }).dropItem p.1
      | none => s.dropItem p.1

/-- A RUN_END past its time leaves directly after the items before it (R215). -/
def State.tryRunEnd (sid : Nat) (x : Stream) (s : State) : Option State :=
  match x.runEnd with
  | none => none
  | some r =>
    if r.shown ∧ !s.awaits x.e.ctx ∧ r.carrier.isNone ∧ r.due ≤ s.count ∧ (s.before sid r.before).all (fun p => p.2.isChunk || p.2.answered) then some (s.sendRunEnd sid x r)
    else none

/-! ### Until nothing more follows -/

def State.progressStep (sid : Nat) (s : State) : Option State :=
  match s.stream sid with
  | none => none
  | some x =>
    if s.frozenOut x.e.ctx then s.tryAnswer sid x
    else
    (s.tryRefuse sid x).orElse fun _ => (s.tryBegin sid x).orElse fun _ => (s.tryEnd sid x).orElse fun _ =>
      (s.tryFinalChunk sid).orElse fun _ => (s.tryAccumulate sid).orElse fun _ => (s.tryToken sid x).orElse fun _ =>
        (s.tryFinalCand sid).orElse fun _ => (s.tryAnswer sid x).orElse fun _ => (s.tryReport sid).orElse fun _ => s.tryRunEnd sid x

def State.progressLoop (sid : Nat) : Nat → State → State
  | 0, s => s
  | fuel + 1, s =>
    match s.progressStep sid with
    | none => s
    | some s' => s'.progressLoop sid fuel

/-- A DRAINING stream with every item answered and every TRAILING score complete starts its close evaluation and its
final write-back, once (R187, Table 2.5). -/
def State.drainProgress (sid : Nat) (s : State) : State :=
  match s.stream sid with
  | none => s
  | some x =>
    if x.e.state = .draining ∧ s.quiet sid ∧ !s.awaits x.e.ctx ∧ !(s.passes.any fun p => p.stream == sid && p.draft.isNone) ∧
        !(s.probesOpen x (fun _ => true) fun m => !m.inlineGov) ∧ !x.ended then
      let s1 := s.modStream sid fun x => { x with ended := true }
      let s2 := if x.e.ckptPos = x.e.commitPtr ∧ x.e.ckptValid then s1 else s1.capture sid
      (s2.closeTrail sid).reqTrigger sid 2
    else s

/-- Every item takes a few steps, and every token of it one. -/
def State.progressFuel (s : State) (sid : Nat) : Nat := 64 * ((s.itemsOf sid).length + 1)

/-- What follows of itself for a stream; nothing does once a device fault has been declared (R360). -/
def State.progress (sid : Nat) (s : State) : State :=
  if s.mode = .normal then (s.progressLoop sid (s.progressFuel sid)).drainProgress sid else s

/-- Progress of several streams in ascending order. -/
def State.progressAll (sids : List Nat) (s : State) : State := sids.foldl (fun (s : State) k => s.progress k) s

def State.progressCtx (c : Nat) (s : State) : State := s.progressAll ((s.ctxStreams c).map (·.1))

def State.progressEvery (s : State) : State := s.progressAll (s.streams.map (·.1))

end Sys2Proof.Machine
end

