-- ==== Sys2Proof/Machine/DataRows.lean ====
section
/-! DEFINITION. The data plane's rows: packets, release times, and the completions of engine work (R14, R52 to R70, R102,
R133, R134, R139, R157 to R163, R184, R191, R194, R219, R223, R231, R242). -/

namespace Sys2Proof.Machine

/-! ### Packets -/

def execChunk (t port : Nat) (pkt : Bytes) (s : State) : Host.Outcome State Fault Refusal :=
  done (s.packet t 2 port pkt fun dom s => (s.takeChunk dom port pkt).progress (ChunkPkt.of pkt).stream)

def execCandidates (t port : Nat) (pkt : Bytes) (s : State) : Host.Outcome State Fault Refusal :=
  done (s.packet t 5 port pkt fun dom s => (s.takeCandidates dom port pkt).progress (CandPkt.of pkt).stream)

def execTap (t port : Nat) (pkt : Bytes) (s : State) : Host.Outcome State Fault Refusal :=
  done (s.packet t 4 port pkt fun dom s => (s.receiveTap dom pkt).progress (TapPkt.of pkt).stream)

/-! ### Release times (R63, R223) -/

/-- An item behind a late one is late itself, and waits for it (R67, Table 3.7). Behind one that is not late, whose delay was set
longer (R17), an item waits its turn, late only if it is not ready at its own time: DEDUCED (log 103). -/
def State.waitBehind (n : Nat) (it : Item) (s : State) : State :=
  if (s.before it.stream n).any fun p => p.2.overdue && !p.2.answered then
    ((s.countLate n).modItem n fun it => { it with overdue := true }).modEntry it.stream (·.hold true false false)
  else
    let ready := it.final.isSome && !s.awaits it.entry.ctx
    (if ready then s else s.countLate n).modItem n fun it => { it with waits := some ready }

/-- The release time of an item has come. -/
def State.releaseTime (n : Nat) (it : Item) (s : State) : State :=
  if it.answered ∨ it.overdue ∨ it.waits.isSome ∨ s.count < it.due then s
  else
    let carries := (s.stream it.stream).any fun x => x.runEnd.any fun r => r.carrier == some n && !r.shown
    let prefixed := match it.body with | .chunk b => b.pfx | .cand _ => false
    if it.plain || prefixed then
      if it.owned && carries then s.modItem n fun it => { it with overdue := true }
      else if !s.inOrder n it then s.modItem n fun it => { it with waits := some true }
      else s.plainAnswer n it
    else if !s.atHead it.stream n then s.waitBehind n it
    else s.answerOr n it fun s =>
      if it.final.isSome ∧ !s.awaits it.entry.ctx then s.finalAnswer n it false
      else s.latePolicy n it

/-- The row of a release time: what it does, and what follows of itself. -/
def State.releaseRow (chunk : Bool) (n : Nat) (s : State) : State :=
  match s.item n with
  | none => s
  | some it =>
    if it.isChunk != chunk then s
    else
      let s1 := s.releaseTime n it
      if it.owned then s1.progress it.stream else s1

def execChunkReleaseTime (t item : Nat) (s : State) : Host.Outcome State Fault Refusal := done (s.run t (·.releaseRow true item))

/-- The time of a run end has come. -/
def State.runEndRow (stream : Nat) (s : State) : State :=
  match s.stream stream with
  | none => s
  | some x => match s.tryRunEnd stream x with | some s' => s'.progress stream | none => s

/-- RELEASE_OUTs due on a port in one quantum, ahead of the one with key `key`, in order of stamp, then stream: whether each is a run end,
and its item or stream (R222). -/
def State.dueBefore (s : State) (port due : Nat) (key : List Nat) : List (Bool × Nat) :=
  let items := (s.items.filter fun p => !p.2.isChunk && !p.2.answered && p.2.port == port && p.2.due == due).map fun p =>
    ([p.2.stamp, p.2.stream], false, p.1)
  let ends := s.streams.filterMap fun p => p.2.runEnd.bind fun r =>
    if r.carrier.isNone ∧ r.due = due ∧ s.releasePort p.2 = port then some ([r.stamp, p.1], true, p.1) else none
  ((sortBy (fun a b => keyLe a.1 b.1) (items ++ ends)).filter fun k => keyLe k.1 key && k.1 != key).map (·.2)

/-- Hand off what comes before a packet on its port in its quantum (R222). -/
def State.handFirst (port due : Nat) (key : List Nat) (s : State) : State :=
  (s.dueBefore port due key).foldl (fun (s : State) k => if k.1 then s.runEndRow k.2 else s.releaseRow false k.2) s

def execCandidatesReleaseTime (t item : Nat) (s : State) : Host.Outcome State Fault Refusal :=
  done (s.run t fun s =>
    (match s.item item with
      | some it => if it.isChunk ∨ s.count < it.due then s else s.handFirst it.port it.due [it.stamp, it.stream]
      | none => s).releaseRow false item)

def execRunEnd (t stream : Nat) (s : State) : Host.Outcome State Fault Refusal :=
  done (s.run t fun s =>
    (match s.stream stream with
      | some x => match x.runEnd with
        | some r => if s.count < r.due then s else s.handFirst (s.releasePort x) r.due [r.stamp, stream]
        | none => s
      | none => s).runEndRow stream)

/-! ### Work of an item -/

/-- Work of a live item completes, and its stream goes on; a frozen suspect's does not (R350). -/
def State.itemWork (n : Nat) (s : State) (f : Item → State → State) : State :=
  match s.item n with
  | none => s
  | some it => if it.live && !s.suspended it.entry.ctx it.stamp then (f it s).progress it.stream else s

/-- An uncorrectable error in an image of an item's context (R94, R143, R193). -/
def State.imageError (c : Nat) (s : State) : State := (s.faultReset c 0).progressCtx c

/-- Work of an item that reads its context's images of some kinds, and adapters when it reads guard models (Table 11.3). -/
def State.itemRead (it : Item) (kinds : List Nat) (e : Ecc) (f : State → State) (s : State) : State :=
  s.access (s.imagePages it.entry.ctx it.pins kinds ++ if kinds.contains 2 then s.adapterPagesOf it.entry.adapterPins else []) e
    (State.imageError it.entry.ctx) f

/-- The sets of a stream's chunks are stepped in stamp order. -/
def State.setTurn (s : State) (sid n set : Nat) : Bool :=
  (s.before sid n).all fun p => !p.2.live || !(p.2.chunk?.any fun b => b.tasks.contains set)

def execIntakeTaskComplete (t item set : Nat) (fetches : List Nat) (err : Ecc) (s : State) : Host.Outcome State Fault Refusal :=
  done (s.run t fun s => s.itemWork item fun it s =>
    let waits := it.chunk?.any fun b => b.begun && b.tasks.contains set
    if waits && s.setTurn it.stream item set then s.itemRead it [0] err fun s => s.intakeTask item set fetches else s)

/-- A lookup returns from its buckets; an unreadable one is lost to every lookup (R102, R111). -/
def State.lookupReturn (n idx : Nat) (err1 err2 : Ecc) (it : Item) (s : State) : State :=
  let l? : Option Lookup := match it.body with | .chunk b => b.lookups.find? (fun (l : Lookup) => l.idx == idx) | .cand b => b.lookups.find? (fun (l : Lookup) => l.idx == idx)
  match l? with
  | none => s
  | some l =>
    if l.result.isSome then s
    else
      let b1 := fpFirst s.store.nb l.fp
      let b2 := fpOther s.store.nb (fpTag l.fp) b1
      let e1 := err1 == .stack (b1 / 1024) || s.poisoned.contains (b1 / 1024)
      let e2 := err2 == .stack (b2 / 1024) || s.poisoned.contains (b2 / 1024)
      let r := s.store.lookup (s.store.newView it.stamp) l.set l.fp e1 e2
      let put := fun (ls : List Lookup) => ls.map fun (k : Lookup) => if k.idx = idx then { k with result := some r } else k
      let s1 := ((s.meet [] err1).meet [] err2).modItem n fun it =>
        (it.onChunk fun b => { b with lookups := put b.lookups }).onCand fun b => { b with lookups := put b.lookups }
      let s2 := if e1 then s1.losePage (b1 / 1024) else s1
      let s3 := if e2 then s2.losePage (b2 / 1024) else s2
      if eccFatal err1 || eccFatal err2 then s3.deviceFault FaultCause.sharedSeam
      else if it.isChunk then s3.settleLookups it.stream else s3

def execLookupReturn (t item idx : Nat) (err1 err2 : Ecc) (s : State) : Host.Outcome State Fault Refusal :=
  done (s.run t fun s => s.itemWork item fun it s => s.lookupReturn item idx err1 err2 it)

def execLookaheadTaskComplete (t item pos token set : Nat) (err : Ecc) (s : State) : Host.Outcome State Fault Refusal :=
  done (s.run t fun s => s.itemWork item fun it s =>
    if it.cand?.any fun b => b.begun && !b.committed then s.itemRead it [0] err fun s => s.lookahead item pos token set else s)

/-- An uncorrectable error in the item's candidate buffer leaves the item undecided (R225). -/
def execDecideStage (t : Nat) (item : Access) (s : State) : Host.Outcome State Fault Refusal :=
  done (s.run t fun s => s.itemWork item.num fun it s =>
    if it.cand?.any fun b => b.begun && !b.finished then
      s.itemRead it [5] item.err fun s =>
        if eccInPart 3 item.err then s.modCand item.num fun b => { b with lost := true } else s.decidePos item.num
    else s)

/-- An uncorrectable error in the rollback ring is a lost rewind mark, and no device fault (R244, R245). -/
def execCommitStep (t item : Nat) (errs : CommitErrs) (s : State) : Host.Outcome State Fault Refusal :=
  done (s.run t fun s => s.itemWork item fun it s =>
    if it.cand?.any fun b => b.finished && !b.committed then
      s.itemRead it [0] errs.err fun s => ((s.meet [] errs.ring).commitStep item (eccInPart 1 errs.ring)).startDraft item
    else s)

/-! ### Evaluations (R184, R191) -/

/-- A final evaluation of a chunk or of a token of a CANDIDATES item. -/
def State.evaluated (n tok : Nat) (it : Item) (s : State) : State :=
  if it.isChunk then s.modItem n fun it => { it with final := some it.verdict } else s.tokenFinal n tok

/-- The token whose evaluation may complete now; 0 for a chunk. -/
def State.evalTurn (s : State) (n : Nat) (it : Item) : Option Nat :=
  match s.stream it.stream with
  | none => none
  | some x =>
    if ((s.itemCtx it).ensemble it.pins (if it.isChunk then 0 else 1)).isNone ∨ it.resolving then none
    else if it.isChunk then (if s.chunkReady it.stream n it then some 0 else none)
    else s.tokenTurn x it.stream n it

def execGateEvaluation (t item : Nat) (err : Ecc) (s : State) : Host.Outcome State Fault Refusal :=
  done (s.run t fun s => s.itemWork item fun it s =>
    match s.evalTurn item it with
    | none => s
    | some tok => s.itemRead it [4] err fun s =>
        let r := s.evaluate item tok
        if r.1 then r.2.evaluated item tok it else r.2)

/-- A resolver over a source's inputs in order, from the state at the item's start: its scores of the last one (R185). -/
def resolverRun (env : PassEnv) (m : Model) (origin : Nat) : List RunInput → List Fp32 → List Fp32 → Calc (List Fp32)
  | [], y, _ => pure y
  | i :: r, _, st => do
    let a ← if m.token || m.role == 1 then evalToken env m ⟨i.toks, none, i.tap, i.summary⟩ st
      else do
        let e ← evalSlice env m (i.toks.filterMap id) origin st
        pure (e.1, e.2.2)
    resolverRun env m origin r a.1 a.2

/-- A resolver score of an item: the last outstanding one lets the ensemble evaluate again. -/
def State.resolverScore (n model idx : Nat) (it : Item) (s : State) : State :=
  let c := s.itemCtx it
  let e := c.ensemble it.pins (if it.isChunk then 0 else 1)
  match e.bind fun e => (e.resolvers.find? fun r => r.1 == model).bind fun r => c.modelById it.pins r.2 with
  | none => s
  | some m =>
    if !(it.resolving && it.band.any fun r => r.1 == model && r.2.1 == idx && r.2.2.isNone) then s
    else
      let ins := it.inputs.filter fun i => i.model == model
      let upTo := (ins.filter fun i => decide (i.idx ≤ idx))
      let origin := match it.body with | .chunk b => b.origin | .cand _ => 0
      let start := match ins with | i :: _ => i.start | [] => []
      let env := { s.passEnv it.entry 8 (if m.flue then none else some (Config.partialOrder s.freshCtr)) with source := c.modelById it.pins model }
      let r := s.fresh.calc it.entry.ctx (resolverRun env m origin upTo [] start)
      let s1 := r.2.modItem n fun it =>
        { it with band := it.band.map fun k => if k.1 = model ∧ k.2.1 = idx then (k.1, k.2.1, some r.1) else k }
      if (s1.item n).any Item.resolved then
        let tok := match it.body with | .chunk _ => 0 | .cand b => b.evalTok
        let v := s1.evaluate n tok
        v.2.evaluated n tok it
      else s1

def execResolverScore (t item model : Nat) (idx : Access) (s : State) : Host.Outcome State Fault Refusal :=
  done (s.run t fun s => s.itemWork item fun it s =>
    if it.resolving && it.band.any fun r => r.1 == model && r.2.1 == idx.num && r.2.2.isNone then
      s.itemRead it [2] idx.err fun s => s.resolverScore item model idx.num it
    else s)

/-! ### Firings and passes (R133, R134, R139) -/

/-- What the chain that an error names reads meets: its place among the running chains, and the error (R143). -/
def State.chainRead (s : State) (q : Nat × Option Nat × List Nat × Ecc) : State :=
  match q.2.1 with
  | none => s
  | some c => s.access q.2.2.1 q.2.2.2 (State.imageError c) id

/-- The context and the image pages of each running chain, with what its reads meet. -/
def State.chainReads (s : State) (errs : List (Nat × Ecc)) : List (Nat × Option Nat × List Nat × Ecc) :=
  (indexed s.chains).map fun c =>
    let it := s.item c.2.item
    (c.1, it.map (·.entry.ctx),
      (it.map fun it => s.imagePages it.entry.ctx it.pins [2] ++ s.adapterPagesOf it.entry.adapterPins).getD [],
      ((errs.find? fun e => e.1 == c.1).map (·.2)).getD .clean)

/-- A firing boundary; `errs` are the errors that running chains have met, by their places. -/
def execFiring (t : Nat) (errs : List (Nat × Ecc)) (s : State) : Host.Outcome State Fault Refusal :=
  done (s.run t fun s =>
    if s.count % 500 ≠ 0 then s
    else
      let s1 := (s.chainReads errs).foldl State.chainRead s
      if s1.mode = .normal then s1.fireHearths.progressEvery else s1)

/-- Pages of the images that running passes of a context read, on its gate engines or on a Flue. -/
def State.passPages (s : State) (p : PassPos → Bool) : List Nat :=
  ((s.passes.filter fun q => q.running && p q).flatMap fun q =>
    (((s.ctx q.ctx).resident q.kind q.install).map (·.pages)).getD [] ++
      (if q.kind = 2 then ((s.stream q.stream).map fun x => s.adapterPagesOf x.e.adapterPins).getD [] else [])).eraseDups

def execGatePassTick (t : Nat) (ctx : Access) (s : State) : Host.Outcome State Fault Refusal :=
  done (s.run t fun s =>
    let tick := fun (s : State) => (s.gateTick ctx.num).progressCtx ctx.num
    if s.count % 50 ≠ 0 then s
    else if s.passes.any fun p => p.flue.isNone && p.running && p.ctx == ctx.num then
      s.access (s.passPages fun p => p.flue.isNone && p.ctx == ctx.num) ctx.err (State.imageError ctx.num) tick
    else tick s)

def execFluePassEnd (t flue ctx model : Nat) (err : Ecc) (s : State) : Host.Outcome State Fault Refusal :=
  done (s.run t fun s =>
    if (s.passes.any fun p => p.flue == some flue && p.running && p.ctx == ctx && p.model == model) ∧ !s.barred (.flue flue) ctx then
      s.access (s.passPages fun p => p.flue == some flue && p.ctx == ctx && p.model == model) err (fun s => (s.imageError ctx).startFlue flue 0)
        fun s => (s.endFluePass flue ctx model).progressCtx ctx
    else s)

/-! ### Taps and proposals (R162, R232) -/

def execTapSkewDeadline (t item pos : Nat) (s : State) : Host.Outcome State Fault Refusal :=
  done (s.run t fun s =>
    match s.streams.find? fun p => p.2.probeWait.any fun w => w.pos == pos && w.item == item && !w.closed && decide (w.deadline ≤ s.count) with
    | none => s
    | some (sid, x) =>
      if s.frozenOut x.e.ctx then s
      else ((s.settleProbes sid (some pos) (s.probeFuel x)).startFlues).progress sid)

def execProposalCutoff (t item : Nat) (completed : Access) (s : State) : Host.Outcome State Fault Refusal :=
  done (s.run t fun s => s.itemWork item fun it s =>
    if it.cand?.any fun b => !b.cutoffDone then s.itemRead it [2] completed.err fun s => s.propose item completed.num else s)

end Sys2Proof.Machine
end

