-- ==== Sys2Proof/Machine/Device.lean ====
section
/-! DEFINITION. Device and context commands (R27, R28, R250, R327 to R330, Tables 14.2 to 14.5). -/

namespace Sys2Proof.Machine

/-! ### Device -/

def verBytes (v : List Nat) : Bytes := (List.range 3).flatMap fun k => leBytes 2 (v.getD k 0)

/-- DEVICE_QUERY (R327); the code of STEPPING is not stated (log 4). -/
def State.deviceRecord (s : State) : Bytes :=
  verBytes s.boot.activeFw ++ verBytes s.boot.activeStoker ++ leBytes 2 (Config.steppingCode s.fuses.b0).toNat ++
    leBytes 1 s.routing.device ++ leBytes 1 s.mode.code ++ leBytes 4 s.replicaEpoch ++ leBytes 4 s.storeEpoch

def execDeviceQuery (t : Nat) (inst : Inst) (s : State) : Host.Outcome State Fault Refusal :=
  s.opcode t 0x0001 inst (fun _ _ => 0) (fun _ s => (s, s.deviceRecord, none)) false false

/-- REGION_PAGES of a LAYOUT_SET. -/
def layoutOf (c : ExecCmd) : List Nat := (List.range 7).map fun k => c.arg (0x18 + 4 * k) 4

/-- A record keeps the minima and fits the stacks (R250, R327). -/
def layoutOk (l : List Nat) : Bool :=
  (l.zip Config.minRegions).all (fun p => decide (p.2 ≤ p.1)) && decide (l.sum ≤ Config.stackPages)

def execLayoutSet (t : Nat) (inst : Inst) (s : State) : Host.Outcome State Fault Refusal :=
  s.opcode t 0x0002 inst (fun c s => firstFail [(!s.noContexts, E.busy), (!layoutOk (layoutOf c), E.range)])
    (fun c s => ({ s with layoutRec := layoutOf c }, leBytes 4 (hostPages (layoutOf c)), none)) true true

/-! ### Contexts -/

def ExecCmd.ctxId (c : ExecCmd) : Nat := c.arg 0x18 2

/-- The CONTEXT_ID rule of R324. -/
def State.ctxBad (s : State) (c : ExecCmd) (id : Nat) : Bool :=
  id == 0 || (s.ctx id).state == .free || (s.ctx id).domain != c.inst.domain

/-- Not OPEN, or unreachable. -/
def State.ctxNotOpen (s : State) (c : ExecCmd) (id : Nat) : Bool := s.ctxBad c id || (s.ctx id).state != .opened

def resvOf (c : ExecCmd) : Reservation := ⟨c.arg 0x1B 1, c.arg 0x1C 2, c.arg 0x1E 2, c.arg 0x20 4, c.arg 0x24 4, c.arg 0x28 4⟩

/-- Ranges of Table 2.2. -/
def resvRangeOk (r : Reservation) : Bool :=
  decide (r.warmRows ≤ 8) && decide (r.hearthShare ≤ 320) && decide (r.hotSlots ≤ 2048) && decide (1 ≤ r.streamRate) &&
    decide (r.streamRate ≤ 50000) && decide (r.gateRate ≤ 160000000) && decide (r.flueRate ≤ 160000000)

/-- The context that CONTEXT_CREATE opens (Table 14.3). -/
def State.newCtx (s : State) (c : ExecCmd) : Ctx :=
  { Ctx.free with
    state := .opened, domain := c.inst.domain, gen := ((s.ctx c.ctxId).gen + 1) % 65536, failOpen := bit (c.arg 0x1A 1) 0
    evInst := c.inst, resv := resvOf c, settings := Config.defaultSettings, counters := List.replicate 25 0
    nextInstall := List.replicate 6 1 }

/-- Place the gate engines of a context and keep the rows powered that must be (R132, R136). -/
def State.placeGates (id : Nat) (s : State) : State :=
  let e := s.chooseGates id ((s.ctx id).resv.hearthShare / 5)
  ((s.fresh.modCtx id fun x => { x with gateEngines := e }).keepRows)

def execContextCreate (t : Nat) (inst : Inst) (s : State) : Host.Outcome State Fault Refusal :=
  s.opcode t 0x0100 inst (fun c s =>
      firstFail
        [(c.ctxId == 0 || !(s.domains.ports.contains (c.inst.domain, true)) ||
            ((s.ctx c.ctxId).state != .free && (s.ctx c.ctxId).domain != c.inst.domain), E.context),
         ((s.ctx c.ctxId).state != .free, E.busy), (!resvRangeOk (resvOf c), E.range),
         (!(s.setCtx c.ctxId (s.newCtx c)).createFits c.ctxId, E.capacity)])
    (fun c s =>
      let s1 := (s.setCtx c.ctxId (s.newCtx c)).placeGates c.ctxId
      (s1, leBytes 2 (s1.ctx c.ctxId).gen, none)) true true

def execContextClose (t : Nat) (inst : Inst) (s : State) : Host.Outcome State Fault Refusal :=
  s.opcode t 0x0101 inst (fun c s => firstFail [(s.ctxNotOpen c c.ctxId, E.context)])
    (fun c s => ((s.modCtx c.ctxId fun x => { x with state := .closing }).tryQuarantine c.ctxId, [], none)) true true

/-- CONTEXT_RESET: its effect, then the command waits for CONTEXT_RESET_COMPLETE (R326, R346). An id that a fault reset
has reached completes OK and changes nothing further (R345). -/
def State.startReset (c : ExecCmd) (s : State) : State :=
  let id := c.ctxId
  if (s.ctx id).faulted then s.bumpConfig.complete c ⟨E.ok, s.count, [], none⟩
  else
    let s1 := ((s.resetContext id 11).progressCtx id).bumpConfig
    let s2 := s1.modInst c.inst fun x => { x with working := some ⟨c, .reset id (s.ctx id).gen, s.count⟩ }
    ({ s2 with foreman := { s2.foreman with exec := none } }).pump pumpFuel

def execContextReset (t : Nat) (inst : Inst) (s : State) : Host.Outcome State Fault Refusal :=
  done (s.live t fun s => s.command 0x0102 inst fun c s =>
    let x := s.ctx c.ctxId
    if s.ctxBad c c.ctxId ∨ (x.state ≠ .opened ∧ x.state ≠ .closing) then s.complete c (Answer.fail E.context) else s.startReset c)

/-! ### Settings (R329, Table 14.4) -/

/-- The range and further checks of a setting on a context. -/
def State.settingCheck (s : State) (id k v : Nat) : Nat :=
  let x := s.ctx id
  let ss := x.settings.set k v
  let sp := Setting.spec.getD k (0, 0, 0)
  let isc := ctxInstalls s.holds id
  let short := delayShort ss isc
  firstFail
    [(decide (v < sp.2.1) || decide (sp.2.2 < v), E.range),
     (k == 2 && v == 2 && !x.failOpen, E.field), (k == 4 && decide (0 < s.liveStreams id), E.busy),
     (k == 13 && decide (v < setting ss Setting.draftKMax + 1), E.range),
     (k == 18 && decide (setting ss Setting.maxPositions < v + 1), E.range),
     (k == 21 && bit v s.routing.device, E.range),
     (k == 17 && decide (2 ≤ v) && !((bodyModels (x.bodyOf 2)).any fun m => m.role == 2), E.state),
     ([0, 1, 3, 4, 9, 10, 13].contains k && short, E.delayShort),
     (k == 17 && !(s.modCtx id fun y => { y with settings := ss }).gatePassOk s.holds, E.capacity)]

def execContextSet (t : Nat) (inst : Inst) (s : State) : Host.Outcome State Fault Refusal :=
  s.opcode t 0x0103 inst (fun c s =>
      let k := c.arg 0x1A 2
      let v := c.arg 0x20 8
      firstFail [(s.ctxNotOpen c c.ctxId, E.context), (decide (23 ≤ k) || decide (2 ^ (Setting.spec.getD k (0, 0, 0)).1 ≤ v), E.field),
        (true, s.settingCheck c.ctxId k v)])
    (fun c s =>
      let k := c.arg 0x1A 2
      let v := c.arg 0x20 8
      let s1 := s.modCtx c.ctxId fun x => { x with settings := x.settings.set k v }
      ((if k = Setting.draftKMax then
          { s1 with streams := s1.streams.map fun (p : Nat × Stream) =>
              if p.2.e.ctx = c.ctxId then (p.1, { p.2 with screen := { p.2.screen with draftLen := min p.2.screen.draftLen v } }) else p }
        else s1), [], none)) true true

/-! ### CONTEXT_QUERY (Table 14.5) and CAPACITY_SET -/

def resvBytes (r : Reservation) : Bytes :=
  leBytes 1 r.warmRows ++ leBytes 2 r.hearthShare ++ leBytes 2 r.hotSlots ++ leBytes 4 r.streamRate ++ leBytes 4 r.gateRate ++
    leBytes 4 r.flueRate

def State.ctxRecord (s : State) (id : Nat) : Bytes :=
  let x := s.ctx id
  if x.state = .free then List.replicate 256 0
  else
    leBytes 1 x.state.code ++ leBytes 1 (x.domain + 4 * b2n x.failOpen) ++ leBytes 2 x.gen ++ leBytes 4 (s.ctxStreams id).length ++
      leBytes 4 (s.hotUsed id) ++ leBytes 4 x.orphans ++ resvBytes x.resv ++ List.replicate 7 0 ++ x.pinsNow.flatMap (leBytes 4) ++
      (List.range 23).flatMap (fun k => leBytes 8 (setting x.settings k)) ++ List.replicate 8 0

def execContextQuery (t : Nat) (inst : Inst) (s : State) : Host.Outcome State Fault Refusal :=
  s.opcode t 0x0104 inst (fun c s =>
      let x := s.ctx c.ctxId
      firstFail [(c.ctxId == 0 || (x.state != .free && x.domain != c.inst.domain), E.context)])
    (fun c s => (s, [], some (s.ctxRecord c.ctxId))) false false

/-- What the context's live streams already use (R30). -/
def State.usesMore (s : State) (id : Nat) (r : Reservation) : Bool :=
  let live := s.liveStreams id
  decide (r.hotSlots < s.hotUsed id) || (setting (s.ctx id).settings Setting.hotPolicy == 1 && decide (0 < live) && r.hotSlots == 0) ||
    decide (min r.gateRate r.flueRate < live * r.streamRate)

def execCapacitySet (t : Nat) (inst : Inst) (s : State) : Host.Outcome State Fault Refusal :=
  s.opcode t 0x0105 inst (fun c s =>
      let r := resvOf c
      firstFail [(s.ctxNotOpen c c.ctxId, E.context), (!resvRangeOk r, E.range), (s.usesMore c.ctxId r, E.capacity),
        (!(s.modCtx c.ctxId fun x => { x with resv := r }).capacityFits c.ctxId, E.capacity)])
    (fun c s => (((s.modCtx c.ctxId fun x => { x with resv := resvOf c }).placeGates c.ctxId).rehomeFlues, [], none)) true true

end Sys2Proof.Machine
end

