-- ==== Sys2Proof/Machine/Drift.lean ====
section
/-! DEFINITION. Drift links: training, HELLO, credits and replay, DARK, replication and migration (R294 to R303, R404). -/

namespace Sys2Proof.Machine

def State.modDrift (q : Nat) (f : DriftPort → DriftPort) (s : State) : State := { s with drift := lmod s.drift q f }

def State.driftPort (s : State) (q : Nat) : DriftPort := s.drift.getD q DriftPort.init

/-- The number of a Drift port in messages and reports (Table 17.2). -/
def driftNumber (q : Nat) : Nat := 16 + q

/-! ### Acknowledgement (R297) -/

/-- A SEQ lies before another, modulo 2^32. -/
def seqBefore (a b : Nat) : Bool := let d := (b + 2 ^ 32 - a) % 2 ^ 32; d != 0 && decide (d < 2 ^ 31)

/-- End the transfers of messages that the link has acknowledged or lost (Table 11.8). -/
def State.endDrift (ms : List DriftMsg) (s : State) : State :=
  ms.foldl (fun s m => match m.xfer with | some x => s.endXfer x | none => s) s

/-! ### Checkpoint replication (R300) -/

/-- The measurements of pinned images and adapters that a SEAL carries. -/
def State.pinDigests (s : State) (c : Nat) (pins : List Nat) (apins : List (Nat × Nat)) : List Bytes :=
  let x := s.ctx c
  ((List.range 6).filterMap fun k => (x.install k (pins.getD k 0)).map (·.digest)) ++
    apins.filterMap fun p => (tget s.adapters p.1).bind fun a => (a.versions.find? fun v => v.version == p.2).map (·.digest)

/-- Messages of a CHECKPOINT transfer of 128 KiB, then its SEAL with the measurements (R299, Table 12.14). -/
def ckptMsgs (ctx gen sid pos xfer now : Nat) (digests : List Bytes) : List DriftMsg :=
  ((List.range 33).map fun k => ⟨9, 3, 64, 0, ctx, gen, [sid, xfer, 4032 * k], [], now, none⟩) ++
    [⟨10, 3, ceilDiv (44 + 48 * digests.length) 64, 0, ctx, gen, [sid, xfer, pos], digests.flatten, now, none⟩]

/-- A CHECKPOINT transfer of the stream is in flight on a port. -/
def DriftPort.replicating (d : DriftPort) (sid : Nat) : Bool :=
  (d.unacked ++ d.waiting).any fun m => (m.mtype == 9 || m.mtype == 10) && m.args.head? == some sid

/-- Send a stream's valid checkpoint to a peer. -/
def State.startReplica (dev sid : Nat) (s : State) : State :=
  match s.portTo dev, s.stream sid with
  | some q, some x =>
    let s1 := { s with nextXfer := s.nextXfer + 1 }
    s1.driftSend q (ckptMsgs x.e.ctx (s.ctx x.e.ctx).gen sid x.e.ckptPos s.nextXfer s.count (s.pinDigests x.e.ctx x.e.imagePins x.e.adapterPins))
  | _, _ => s

/-- One transfer in flight per peer and one pending: a newer capture replaces the pending one (R300). -/
def State.replicate (dev sid : Nat) (s : State) : State :=
  match s.portTo dev, s.stream sid with
  | some q, some x =>
    if (s.driftPort q).replicating sid then
      if x.replPend.contains dev then s.ctxCount x.e.ctx Cnt.ckptSkipped
      else s.modStream sid fun x => { x with replPend := x.replPend ++ [dev] }
    else s.startReplica dev sid
  | _, _ => s

/-- Pending transfers to a peer start when the ones in flight have been acknowledged. -/
def State.startPending (dev : Nat) (s : State) : State :=
  match s.portTo dev with
  | none => s
  | some q =>
    (s.streams.filter fun p => p.2.replPend.contains dev && !(s.driftPort q).replicating p.1).foldl (fun s p =>
      (s.modStream p.1 fun x => { x with replPend := x.replPend.filter (· != dev) }).startReplica dev p.1) s

/-- Every REPLICA_EVERY-th completed capture of a stream goes to each peer of REPLICA_PEERS (R300). -/
def State.replicateCapture (sid : Nat) (s : State) : State :=
  match s.stream sid with
  | none => s
  | some x =>
    let ss := (s.ctx x.e.ctx).settings
    let mask := setting ss Setting.replicaPeers
    if mask = 0 then s
    else if x.replCount + 1 < setting ss Setting.replicaEvery then s.modStream sid fun x => { x with replCount := x.replCount + 1 }
    else
      ((List.range 4).filter fun d => bit mask d).foldl (fun s d => s.replicate d sid)
        (s.modStream sid fun x => { x with replCount := 0 })

/-- A cumulative acknowledgement frees replay space; what waited may go. -/
def State.driftAck (q ack : Nat) (s : State) : State :=
  let d := s.driftPort q
  let got := d.unacked.filter fun m => seqBefore m.seq ack
  if got.isEmpty then s
  else
    let s1 := s.modDrift q fun d =>
      { d with unacked := d.unacked.filter fun m => !seqBefore m.seq ack, ackProgress := s.count }
    (((s1.endDrift got).driftFlush q).startPending d.peer)

/-! ### Receipt (R296, R297, R299) -/

/-- Draw a NAK that names the SEQ expected. -/
def State.nakBack (q : Nat) (s : State) : State := s.emit (.driftLink q 3 [(s.driftPort q).rxSeq])

/-- A message of a class reaches an ACTIVE port: its ACK counts; out of order it draws a NAK; in order its content is
applied by `f`, unless its epoch is below the last one seen from the peer, and its credit is due back. -/
def State.driftIn (t q cls : Nat) (h : DriftHdr) (s : State) (f : State → State) : State :=
  s.run t fun s =>
    let d := s.driftPort q
    if d.link ≠ .active ∨ 3 ≤ q then s
    else
      let s1 := s.active.driftAck q h.ack
      if h.seq ≠ d.rxSeq then s1.nakBack q
      else
        let s2 := s1.modDrift q fun d =>
          { d with rxSeq := (d.rxSeq + 1) % 2 ^ 32, toReturn := d.toReturn.modify (cls - 1) (· + 1) }
        if h.epoch < d.lastEpoch then s2
        else f (s2.modDrift q fun d =>
          { d with lastEpoch := h.epoch, rxXfers := d.rxXfers.filter fun x => decide (h.epoch ≤ x.epoch) })

def execDriftError (t q _seq : Nat) (s : State) : Host.Outcome State Fault Refusal :=
  done (s.run t fun s =>
    if (s.driftPort q).link = .active ∧ q < 3 then (s.active.devCount Cnt.driftError 1).nakBack q else s)

/-- Credits return, up to the 64 of a class; the message acknowledges (R297). That a CKPT_SEAL which found no room
at the peer (R300) comes back with the credits is a DESIGN CHOICE (log 108). -/
def execDriftCredit (t q ack : Nat) (returned : DriftReturn) (s : State) : Host.Outcome State Fault Refusal :=
  done (s.run t fun s =>
    if (s.driftPort q).link ≠ .active ∨ 3 ≤ q then s
    else
      (((returned.refused.foldl (fun (s : State) c => s.ctxCount c Cnt.ckptRefused) s.active).modDrift q fun d =>
        { d with credits := (d.credits.zip (returned.units ++ [0, 0, 0])).map fun c => min 64 (c.1 + c.2) }).driftAck q ack).driftFlush q)

/-- The messages of a replay, from a SEQ on. -/
def State.replayFrom (q : Nat) (keep : DriftMsg → Bool) (s : State) : State :=
  { s with out := s.out ++ ((s.driftPort q).unacked.filter keep).map fun m => .drift q m }

def execNak (t q seq : Nat) (s : State) : Host.Outcome State Fault Refusal :=
  done (s.run t fun s =>
    if (s.driftPort q).link = .active ∧ q < 3 then s.active.replayFrom q fun m => !seqBefore m.seq seq else s)

/-- No ACK progress for 10.00 µs: replay from the oldest unacknowledged message (R297). -/
def execAckTimeout (t q : Nat) (s : State) : Host.Outcome State Fault Refusal :=
  done (s.run t fun s =>
    let d := s.driftPort q
    if d.link = .active ∧ q < 3 ∧ !d.unacked.isEmpty ∧ d.ackProgress + 1000 ≤ s.count then
      (s.replayFrom q fun _ => true).modDrift q fun d => { d with ackProgress := s.count }
    else s)

/-- An acknowledging CREDIT with the messages to return per class (R297). -/
def execIdleGapCredit (t q : Nat) (s : State) : Host.Outcome State Fault Refusal :=
  done (s.run t fun s =>
    let d := s.driftPort q
    if d.link ≠ .active ∨ 3 ≤ q then s
    else (s.modDrift q fun d => { d with toReturn := [0, 0, 0], lastAckSent := s.count }).emit (.driftLink q 2 (d.rxSeq :: d.toReturn)))

/-! ### Training, HELLO, DARK (R294, R295, R298, R404) -/

/-- Training begins from DOWN or DARK; from DOWN the routing table takes effect (Table 17.2). -/
def execDriftTrainingStart (t q : Nat) (s : State) : Host.Outcome State Fault Refusal :=
  done (s.live t fun s =>
    let d := s.driftPort q
    if 3 ≤ q ∨ !s.pins.driftRef ∨ (d.link ≠ .down ∧ d.link ≠ .dark) then s
    else
      s.modDrift q fun d =>
        { d with link := .training, trained := false, helloOk := false, event := true,
                 route := (if d.link = .down then s.routing else d.route) })

/-- The port is ACTIVE once it is trained and the peer's HELLO has matched; what waited may go. -/
def State.driftActivate (q : Nat) (s : State) : State :=
  let d := s.driftPort q
  if d.trained ∧ d.helloOk then
    (s.modDrift q fun d => { d with link := .active, event := true, ackProgress := s.count, lastAckSent := s.count }).driftFlush q
  else s

/-- A failed training leaves the port DOWN, reported (R291). -/
def State.driftDown (q : Nat) (s : State) : State :=
  (s.modDrift q fun d => { d with link := .down, trained := false, helloOk := false, event := true }).report Rep.portDown
    [driftNumber q, 0]

/-- Training or a retrain ends: 64 credits per class, HELLO to the peer; SEQ begins at 0 after a training (log 26). -/
def execDriftTrainingComplete (t q : Nat) (out : LinkOutcome) (s : State) : Host.Outcome State Fault Refusal :=
  done (s.live t fun s =>
    let d := s.driftPort q
    if 3 ≤ q ∨ (d.link ≠ .training ∧ d.link ≠ .retrain) ∨ (d.link = .training ∧ d.trained) then s
    else if !out.up then (s.modDrift q fun d => { d with calPass := false }).driftDown q
    else
      let again := d.link == .retrain
      let s1 := s.modDrift q fun d =>
        { d with lanes2 := out.degraded1, calPass := out.calPass, repair := false, saved := true, trained := true,
                 helloOk := d.helloOk || again, credits := [64, 64, 64], toReturn := [0, 0, 0],
                 txSeq := (if again then d.txSeq else 0), rxSeq := (if again then d.rxSeq else 0) }
      (s1.emit (.driftLink q 1 [d.route.device, d.route.board, s.replicaEpoch])).driftActivate q)

/-- RETRAIN pauses traffic, applies corrections and restores the initial credits (R291, R294, R297). -/
def execDriftRetrain (t q : Nat) (s : State) : Host.Outcome State Fault Refusal :=
  done (s.live t fun s =>
    if (s.driftPort q).link = .active ∧ q < 3 then
      s.modDrift q fun d =>
        { d with link := .retrain, repair := false, retrains := (d.retrains + 1) % 256, event := true, credits := [64, 64, 64] }
    else s)

/-- HELLO: another BOARD_ID or an unexpected peer holds the port down (R295). -/
def execHello (t q dev board epoch : Nat) (s : State) : Host.Outcome State Fault Refusal :=
  done (s.live t fun s =>
    let d := s.driftPort q
    if 3 ≤ q ∨ (d.link ≠ .training ∧ d.link ≠ .active) then s
    else if d.route.board ≠ board ∨ d.route.peers.getD q (0, false) ≠ (dev, true) then
      (s.active.modDrift q fun d => { d with link := .heldDown, trained := false, helloOk := false, event := true }).report Rep.portHeld
        [driftNumber q, 0]
    else
      let s1 := s.active.modDrift q fun d =>
        { d with helloOk := true, peer := dev, lastEpoch := epoch, rxXfers := d.rxXfers.filter fun x => decide (epoch ≤ x.epoch) }
      if d.link = .training then s1.driftActivate q else s1)

/-! ### Forwarded epochs (R113) -/

/-- The epoch that is open is a peer's, staged as this device's own. -/
def Store.foreign (st : Store) : Bool := st.epoch == .opened && st.fromPeer

/-- The store commits here: STORE_EPOCH rises, and what is stamped from now on sees the new view (R106). -/
def State.fpCommit (s : State) : State :=
  { s with storeEpoch := (s.storeEpoch + 1) % 2 ^ 32
           store := { s.store with epoch := .sweeping, effect := s.count, peers := [], fromPeer := false } }

/-- The forwarded epoch that waits is staged once the store is idle, and commits at once if its commit has come. -/
def State.startForwarded (s : State) : State :=
  match s.store.forwarded with
  | f :: rest =>
    if s.store.epoch = .idle then
      let s1 := (({ s with store := { s.store with epoch := .opened, fromPeer := true, records := 0 } }).storeRecords f.recs).1
      if f.commit.isSome then { s1 with store := { s1.store with forwarded := rest } }.fpCommit else s1
    else s
  | [] => s

/-- A forwarded epoch is discarded: what it staged goes. -/
def State.dropForwarded (f : Forwarded) (s : State) : State :=
  let active := s.store.foreign && s.store.forwarded.head? == some f
  let s1 := if active then s.storeSettle false else s
  { s1 with store := { s1.store with forwarded := s1.store.forwarded.erase f } }.startForwarded

/-- A forwarded epoch that cannot be complete is aborted and reported. -/
def State.failForwarded (f : Forwarded) (s : State) : State := (s.dropForwarded f).report Rep.fpReplica [0, 0, f.epoch]

/-- A link lost before the commit came aborts the peer's epoch. -/
def State.cutForwarded (dev : Nat) (s : State) : State :=
  (s.store.forwarded.filter fun f => f.dev == dev && f.commit.isNone).foldl (fun s f => s.failForwarded f) s

/-- What a link that is lost leaves behind (R113, R298, R299, Table 14.16): replay buffer and waiting messages go, their
transfers end, initial credits, unsealed transfers and forwarded epochs of the peer are discarded, and a migration to it
ends with E_TRANSFER. -/
def State.driftCut (q : Nat) (s : State) : State :=
  let d := s.driftPort q
  let s0 := if d.unacked.isEmpty && d.waiting.isEmpty && d.rxXfers.isEmpty then s else s.active
  let s1 := s0.modDrift q fun d => { d with unacked := [], waiting := [], credits := [64, 64, 64], rxXfers := [] }
  let s2 := s1.endDrift d.unacked
  let s3 := s2.cutForwarded d.peer
  (List.range 8).foldl (fun s k =>
    let i := rrInst k
    match (s.inst i).working with
    | some ⟨_, .migrate p _ _, _⟩ => if p = d.peer then s.endWork i (Answer.fail E.transfer) else s
    | _ => s) s3

/-- Loss of alignment, or 1.00 µs without a valid codeword (R298). -/
def execDriftDark (t q : Nat) (s : State) : Host.Outcome State Fault Refusal :=
  done (s.live t fun s =>
    let d := s.driftPort q
    if 3 ≤ q ∨ (d.link ≠ .active ∧ d.link ≠ .retrain ∧ d.link ≠ .training) then s
    else
      ((s.driftCut q).modDrift q fun d => { d with link := .dark, trained := false, helloOk := false, event := true }).report
        Rep.peerDark [driftNumber q, 0])

/-- Loss of DRIFT_REFCLK takes every Drift port DOWN, reported PORT_DOWN (R404). -/
def execDriftRefclkLoss (t : Nat) (s : State) : Host.Outcome State Fault Refusal :=
  done (s.live t fun s =>
    (List.range 3).foldl (fun s q =>
      if (s.driftPort q).link = .heldDown ∨ (s.driftPort q).link = .down then s else (s.driftCut q).driftDown q)
      { s with pins := { s.pins with driftRef := false } })

def execDriftRefclkReturn (t : Nat) (s : State) : Host.Outcome State Fault Refusal :=
  done (s.live t fun s => { s with pins := { s.pins with driftRef := true } })

/-! ### ROUTING_SET and PORT_HOLD (R295, Table 17.2) -/

def routingOf (p : Bytes) : Routing :=
  ⟨field p 0 1 % 4, (List.range 3).map fun k => (field p (1 + k) 1 % 4, bit (field p (1 + k) 1) 7), field p 4 4⟩

def routingForm (p : Bytes) : Bool :=
  p.length == 8 && bits (field p 0 1) 7 2 == 0 && (List.range 3).all fun k => bits (field p (1 + k) 1) 6 2 == 0

/-- A present peer equals DEVICE, or two ports name one peer. -/
def Routing.bad (r : Routing) : Bool :=
  let ps := (r.peers.filter (·.2)).map (·.1)
  ps.contains r.device || !(ps.eraseDups.length == ps.length)

def execRoutingSet (t : Nat) (msg : Bytes) (s : State) : Host.Outcome State Fault Refusal :=
  done (s.managed t fun s =>
    s.request 0x11 msg routingForm (fun p s =>
      let r := routingOf p
      if r.bad then s.respond 0x11 E.range (Msg.mseq msg) []
      else ({ s with routing := r }).respond 0x11 0 (Msg.mseq msg) []))

def State.holdDrift (q : Nat) (hold : Bool) (s : State) : State :=
  if hold then (s.driftCut q).modDrift q fun d => { d with link := .heldDown, trained := false, helloOk := false, event := true }
  else if (s.driftPort q).link = .heldDown then s.modDrift q fun d => { d with link := .down, event := true }
  else s

def execPortHold (t : Nat) (msg : HoldMsg) (s : State) : Host.Outcome State Fault Refusal :=
  done (s.managed t fun s =>
    s.request 0x12 msg.bytes (fun p => p.length == 2) (fun p s =>
      let port := field p 0 1
      let hold := field p 1 1
      if 18 < port ∨ 1 < hold then s.respond 0x12 E.range (Msg.mseq msg.bytes) []
      else (if port < 16 then s.holdShaft port (hold == 1) msg.part.flits msg.part.vc else s.holdDrift (port - 16) (hold == 1)).respond
        0x12 0 (Msg.mseq msg.bytes) []))

/-! ### SNAPSHOT and CHECKPOINT transfers (R299 to R301) -/

/-- Bytes of a transfer arrive; a gap leaves it short for good. -/
def State.addData (q cls xfer epoch stream off len : Nat) (s : State) : State :=
  s.modDrift q fun d =>
    match d.rxXfers.find? fun x => x.cls == cls && x.xfer == xfer with
    | none => { d with rxXfers := d.rxXfers ++ [⟨cls, xfer, epoch, stream, if off = 0 then len else 0⟩] }
    | some _ =>
      { d with rxXfers := d.rxXfers.map fun (x : RxXfer) =>
          if x.cls = cls ∧ x.xfer = xfer ∧ x.bytes = off then { x with bytes := x.bytes + len } else x }

/-- Take a transfer off the port: whether every byte of `len` had come. -/
def State.takeXfer (q cls xfer len : Nat) (s : State) : State × Bool :=
  let ok := match (s.driftPort q).rxXfers.find? fun x => x.cls == cls && x.xfer == xfer with
    | none => len == 0
    | some x => x.bytes == len
  (s.modDrift q fun d => { d with rxXfers := d.rxXfers.filter fun x => !(x.cls == cls && x.xfer == xfer) }, ok)

def execSnapData (t q : Nat) (hdr : DriftHdr) (xfer off len : Nat) (s : State) : Host.Outcome State Fault Refusal :=
  done (s.driftIn t q 2 hdr fun s => s.addData q 2 xfer hdr.epoch 0 off len)

def execCkptData (t q : Nat) (hdr : DriftHdr) (xfer stream off len : Nat) (s : State) : Host.Outcome State Fault Refusal :=
  done (s.driftIn t q 3 hdr fun s => s.addData q 3 xfer hdr.epoch stream off len)

/-- The install of a context whose measurement is a digest, with its kind. -/
def Ctx.byDigest (x : Ctx) (d : Bytes) : Option (Nat × Nat) :=
  (x.installs.find? fun r => r.install.digest == d).map fun r => (r.kind, r.install.num)

/-- The adapter version of a context whose measurement is a digest. -/
def State.adapterByDigest (s : State) (c : Nat) (d : Bytes) : Option (Nat × Nat) :=
  (s.adapters.filter fun a => a.2.ctx == c).findSome? fun a =>
    (a.2.versions.find? fun v => v.digest == d).map fun v => (a.1, v.version)

/-- Translate the pins of a migrated snapshot to the install numbers and adapter versions of a local context (R301). -/
def State.translatePins (s : State) (c : Nat) (digests : List Bytes) : Option (List Nat × List (Nat × Nat)) :=
  let x := s.ctx c
  if digests.all fun d => (x.byDigest d).isSome || (s.adapterByDigest c d).isSome then
    let ims := digests.filterMap x.byDigest
    some ((List.range 6).map fun k => ((ims.find? fun p => p.1 == k).map (·.2)).getD 0,
      (digests.filter fun d => (x.byDigest d).isNone).filterMap (s.adapterByDigest c))
  else none

/-- A migrated snapshot is stored under the destination context, or discarded; the outcome returns (R301). -/
def State.acceptSnapshot (snap : Snapshot) (destDom destCtx : Nat) (digests : List Bytes) (s : State) : State × Nat :=
  let x := s.ctx destCtx
  if destCtx = 0 ∨ x.state ≠ .opened ∨ x.domain ≠ destDom then (s, E.context)
  else
    match s.translatePins destCtx digests with
    | none => (s, E.handle)
    | some pins =>
      let room := s.fitSnapshot snap.bytes
      if !room.1 then (room.2, E.capacity)
      else
        (room.2.putSnapshot { snap with
          ctx := destCtx, gen := x.gen, imagePins := pins.1, adapterPins := pins.2, lastRestore := 0, readers := 0
          pages := room.2.allocRegion 1 (pagesOf snap.bytes) }, E.ok)

def execSnapSeal (t q : Nat) (hdr : DriftHdr) (xfer : Nat) (snap : Snapshot) (destDom destCtx : Nat) (digests : List Bytes)
    (s : State) : Host.Outcome State Fault Refusal :=
  done (s.driftIn t q 2 hdr fun s =>
    let r := s.takeXfer q 2 xfer snap.bytes
    let a := if r.2 then r.1.acceptSnapshot snap destDom destCtx digests else (r.1, E.transfer)
    a.1.emit (.driftLink q 8 [xfer, a.2]))

/-- Replicas are deleted, and their pages enter zeroing (R258). -/
def State.dropReplicas (p : Replica → Bool) (s : State) : State :=
  ({ s with replicas := s.replicas.filter fun r => !p r }).releasePages ((s.replicas.filter p).flatMap fun (r : Replica) => r.pages)

/-- One sealed replica per source stream, two spare pages each, 4,096 pages left for retirement (R300); whether it found room. -/
def State.storeReplica (rep : Replica) (s : State) : State × Bool :=
  let same := fun (r : Replica) => r.dev == rep.dev && r.stream == rep.stream
  let s1 := s.dropReplicas same
  if s.spareUsed.length + 2 * (s1.replicas.length + 1) + 4096 ≤ s.spareSpan.2 ∧ 2 ≤ s.spareFree then
    ({ s1 with replicas := s1.replicas ++ [{ rep with pages := s.allocate s.spareSpan 2 }] }, true)
  else (s, false)

def execCkptSeal (t q : Nat) (hdr : DriftHdr) (xfer len : Nat) (rep : Replica) (s : State) : Host.Outcome State Fault Refusal :=
  done (s.driftIn t q 3 hdr fun s =>
    let r := s.takeXfer q 3 xfer len
    if r.2 then
      let u := r.1.storeReplica { rep with dev := (s.driftPort q).peer }
      if u.2 then u.1 else u.1.emit (.driftLink q 10 [hdr.ctx])
    else r.1)

def execCkptDrop (t q : Nat) (hdr : DriftHdr) (stream : Nat) (s : State) : Host.Outcome State Fault Refusal :=
  done (s.driftIn t q 3 hdr fun s =>
    let dev := (s.driftPort q).peer
    { s.dropReplicas (fun r => r.dev == dev && r.stream == stream) with
      drift := lmod s.drift q fun (d : DriftPort) => { d with rxXfers := d.rxXfers.filter fun x => !(x.cls == 3 && x.stream == stream) } })

end Sys2Proof.Machine
end

