-- ==== Sys2Proof/Machine/FaultCmds.lean ====
section
/-! DEFINITION. Tally, fault and telemetry commands (R264, R337 to R340, Tables 14.12 to 14.15). -/

namespace Sys2Proof.Machine

/-! ### Tallies (R337) -/

def ExecCmd.tally (c : ExecCmd) : Nat := c.arg 0x1A 2

/-- The Tally that a command names, when its context owns it. -/
def State.cmdTally (s : State) (c : ExecCmd) : Option Tally :=
  if s.ctxBad c c.ctxId ∨ !(s.ownTallies c.ctxId).contains c.tally then none else tget s.tallies c.tally

def tallyRange (c : ExecCmd) : Bool := decide (c.tally < 64) || decide (4095 < c.tally)

/-- The lowest run of `n` free Tallies. -/
def State.freeRun (s : State) (n : Nat) : Option Nat :=
  (List.range (4097 - n)).find? fun k => decide (64 ≤ k) && !(s.tallies.any fun p => decide (k ≤ p.1) && decide (p.1 < k + n))

def execTallyAlloc (t : Nat) (inst : Inst) (s : State) : Host.Outcome State Fault Refusal :=
  s.opcode t 0x0500 inst (fun c s =>
      let n := c.arg 0x1C 2
      firstFail [(s.ctxNotOpen c c.ctxId, E.context), (n == 0 || decide (256 < n) || c.tally != 0, E.range), ((s.freeRun n).isNone, E.capacity)])
    (fun c s =>
      let k := (s.freeRun (c.arg 0x1C 2)).getD 0
      ((List.range (c.arg 0x1C 2)).foldl (fun (s : State) j => s.setTally (k + j) ⟨true, c.ctxId, (s.ctx c.ctxId).gen, 0, false, 0, []⟩) s,
       leBytes 2 k, none)) true true

def execTallyFree (t : Nat) (inst : Inst) (s : State) : Host.Outcome State Fault Refusal :=
  s.opcode t 0x0501 inst (fun c s =>
      firstFail
        [(tallyRange c, E.range), ((s.cmdTally c).isNone, E.context),
         ((s.cmdTally c).any (fun x => !x.waiters.isEmpty) || (s.namedTallies c.ctxId).contains c.tally, E.busy)])
    (fun c s => ({ s with tallies := tdel s.tallies c.tally }, [], none)) true true

def execTallySet (t : Nat) (inst : Inst) (s : State) : Host.Outcome State Fault Refusal :=
  s.opcode t 0x0502 inst (fun c s =>
      firstFail
        [(tallyRange c, E.range), ((s.cmdTally c).isNone, E.context), ((s.cmdTally c).any (fun x => !x.waiters.isEmpty), E.busy)])
    (fun c s =>
      ({ s with tallies := tmod s.tallies c.tally fun x => { x with count := c.arg 0x20 4, overflow := false } }, [], none)) true true

def tallyBytes : Option Tally → Bytes
  | none => []
  | some x => leBytes 4 x.count ++ leBytes 4 (x.waiters.length % 512 + 65536 * b2n x.overflow)

def execTallyRead (t : Nat) (inst : Inst) (s : State) : Host.Outcome State Fault Refusal :=
  s.opcode t 0x0503 inst (fun c s => firstFail [(tallyRange c, E.range), ((s.cmdTally c).isNone, E.context)])
    (fun c s => (s, tallyBytes (s.cmdTally c), none)) false false

/-! ### CANARY_SET and FAULT_QUERY (R338) -/

def execCanarySet (t : Nat) (inst : Inst) (s : State) : Host.Outcome State Fault Refusal :=
  s.opcode t 0x0600 inst (fun c _ => firstFail [(decide (c.arg 0x18 4 < 100) || decide (1000000 < c.arg 0x18 4), E.range)])
    (fun c s => ({ s with threshold := c.arg 0x18 4 }, [], none)) true true

/-- The bitmap of failed units among `n`. -/
def State.failedMap (s : State) (n : Nat) (mk : Nat → UnitId) : Nat := ((List.range n).map fun k => if s.failed.contains (mk k) then 2 ^ k else 0).sum

/-- R33 holds for some context, or a page could not be retired (R256). -/
def State.isDegraded (s : State) : Bool := s.degraded || s.reserving.any fun p => s.degradedShort p.1

/-- The hottest site reads above 105 °C (R382). -/
def State.tooHot (s : State) : Bool := decide (1680 < s.hottest)

def State.faultBytes (s : State) : Bytes :=
  leBytes 8 (s.failedMap 64 .hearth) ++ leBytes 4 (s.failedMap 32 .grate) ++ leBytes 2 (s.failedMap 16 .flue) ++
    leBytes 1 (s.failedMap 4 .assay + 16 * s.failedMap 4 .fpUnit) ++ leBytes 1 (s.failedMap 8 .damper) ++
    leBytes 4 (b2n s.ledgerFault + 2 * b2n s.isDegraded + 4 * b2n s.tooHot) ++ leBytes 4 (s.ashpitNext - 1)

def execFaultQuery (t : Nat) (inst : Inst) (s : State) : Host.Outcome State Fault Refusal :=
  s.opcode t 0x0601 inst (fun _ _ => 0) (fun _ s => (s, s.faultBytes, none)) false false

/-! ### ASHPIT_READ (R339) -/

def State.ashpitOf (s : State) (n : Nat) : Option AshpitRec := s.ashpit.find? fun r => r.num == n

/-- Table 14.14, with the suspects of one domain. -/
def ashpitHeader (dom : Nat) (r : AshpitRec) : Bytes :=
  let mine := sortBy (fun a b => decide (a ≤ b)) ((r.suspects.filter fun p => p.2 == dom).map (·.1))
  leBytes 4 r.num ++ leBytes 1 r.cause ++ leBytes 1 (b2n r.damaged + 2 * b2n r.truncated) ++ leBytes 2 mine.length ++ leBytes 8 r.stamp ++
    leBytes 4 r.bytes ++ List.replicate 12 0 ++ mine.flatMap (leBytes 2)

def execAshpitRead (t : Nat) (inst : Inst) (s : State) : Host.Outcome State Fault Refusal :=
  s.opcode t 0x0602 inst (fun c s => firstFail [((s.ashpitOf (c.arg 0x18 4)).isNone, E.range)])
    (fun c s =>
      let s1 := s.meetAshpit (c.arg 0x18 4)
      (s1, [], (s1.ashpitOf (c.arg 0x18 4)).map (ashpitHeader c.inst.domain))) false false

/-! ### COUNTER_READ and TELEMETRY_READ (R340) -/

/-- The second set of Table 14.15 as a domain sees it. -/
def State.zeroCounters (s : State) (dom : Nat) : List Nat :=
  let d := s.domCounters.getD dom []
  [d.getD Cnt.creditError 0, d.getD Cnt.headerError 0, d.getD Cnt.memError 0, s.devCounters.getD Cnt.driftError 0,
   s.devCounters.getD Cnt.eccCorrected 0, d.getD Cnt.tapForeign 0]

def State.counterList (s : State) (c : ExecCmd) : List Nat :=
  if c.ctxId = 0 then s.zeroCounters c.inst.domain else (s.ctx c.ctxId).counters

def execCounterRead (t : Nat) (inst : Inst) (s : State) : Host.Outcome State Fault Refusal :=
  s.opcode t 0x0700 inst (fun c s =>
      let n := c.arg 0x1C 2
      firstFail
        [(c.ctxId != 0 && s.ctxBad c c.ctxId, E.context),
         (n == 0 || decide (64 < n) || decide ((s.counterList c).length < c.arg 0x1A 2 + n), E.range)])
    (fun c s =>
      (s, [], some ((((s.counterList c).drop (c.arg 0x1A 2)).take (c.arg 0x1C 2)).flatMap (leBytes 8)))) false false

/-- A signed 16-bit value. -/
def leInt (i : Int) : Bytes := leBytes 2 (i % 65536).toNat

/-- The power estimate is free (log 4). -/
def State.telemetry (s : State) : Bytes :=
  let rows := ((List.range 8).map fun k => if (s.rows.map (·.power)).getD k .off == .active then 2 ^ k else 0).sum
  leInt s.hottest ++ leInt s.coolest ++ leBytes 4 (Config.powerEstimate s.count) ++ leBytes 2 (700 - 5 * s.pins.vid) ++ leBytes 1 rows ++
    leBytes 1 (b2n s.tooHot) ++ leBytes 4 0 ++ leBytes 8 s.pins.sampledAt

def execTelemetryRead (t : Nat) (inst : Inst) (s : State) : Host.Outcome State Fault Refusal :=
  s.opcode t 0x0701 inst (fun _ _ => 0) (fun _ s => (s, s.telemetry, none)) false false

end Sys2Proof.Machine
end

