-- ==== Sys2Proof/Machine/FpCmds.lean ====
section
/-! DEFINITION. Fingerprint-store commands, forwarded epochs and the end of a sweep (R95, R103 to R106, R111, R113, R336,
Table 14.11). -/

namespace Sys2Proof.Machine

/-! ### FP_SET_DEFINE (R95) -/

def setDefOf (c : ExecCmd) : FpSetDef := ⟨c.arg 0x19 1, c.arg 0x1A 1, c.arg 0x20 8, c.arg 0x28 8⟩

def fpSetRange (set : Nat) (d : FpSetDef) : Bool :=
  decide (set < 64) && decide (8 ≤ d.n) && decide (d.n ≤ 64) && decide (d.vocab < 8) && decide (2 ≤ d.base) && decide (d.base ≤ 2 ^ 61 - 2)

def Store.holdsSet (st : Store) (set : Nat) : Bool := st.buckets.any fun p => p.2.any fun x => x.st != 0 && x.set == set

def execFpSetDefine (t : Nat) (inst : Inst) (s : State) : Host.Outcome State Fault Refusal :=
  s.opcode t 0x0400 inst (fun c s =>
      firstFail [(!fpSetRange (c.arg 0x18 1) (setDefOf c), E.range), (s.store.holdsSet (c.arg 0x18 1), E.busy)])
    (fun c s => ({ s with store := { s.store with sets := tset s.store.sets (c.arg 0x18 1) (setDefOf c) } }, [], none)) true true

/-! ### FP_EPOCH_OPEN (R104, R111, R113) -/

/-- The Drift ports that a mask names. -/
def maskPorts (m : Nat) : List Nat := (List.range 3).filter fun q => bit m q

/-- A zeroed spare page takes the place of a lost one, whose buckets are empty from here; without a spare it stays lost. -/
def State.emptyLost (p : Nat) (s : State) : State :=
  if s.poisoned.contains p then s
  else
    { s with store := { s.store with
        lost := s.store.lost.filter (· != p), buckets := s.store.buckets.filter fun b => b.1 / 1024 != p } }

def State.replaceLost (p : Nat) (s : State) : State := (s.retirePage p).emptyLost p

def execFpEpochOpen (t : Nat) (inst : Inst) (s : State) : Host.Outcome State Fault Refusal :=
  s.opcode t 0x0401 inst (fun c s =>
      firstFail
        [(s.store.epoch != .idle || !s.store.forwarded.isEmpty, E.busy),
         ((maskPorts (c.arg 0x18 1)).any fun q => (s.driftPort q).link != .active, E.state)])
    (fun c s =>
      let bad := s.poisoned.filter fun p => decide (p < s.layout.getD 0 0) && !s.store.lost.contains p
      let s0 := s.meetStore bad
      let s1 := s0.store.lost.foldl (fun s p => s.replaceLost p) s0
      ({ s1 with store := { s1.store with epoch := .opened, fromPeer := false, records := 0, touched := [], peers := maskPorts (c.arg 0x18 1) } },
       leBytes 4 ((s.storeEpoch + 1) % 2 ^ 32), none)) true true

/-! ### FP_UPDATE -/

/-- An epoch of this device's own is open. -/
def Store.ownOpen (st : Store) : Bool := st.epoch == .opened && !st.fromPeer

def fpRecords (b : Bytes) : List Bytes := (List.range (b.length / 16)).map fun k => slice b (16 * k) 16

def State.recordBad (s : State) (r : Bytes) : Bool :=
  decide (1 < field r 9 1) || decide (63 < field r 8 1) || !zeroRange r 10 6 || (tget s.store.sets (field r 8 1)).isNone

/-- Records cut into messages of at most 253. -/
def recordGroups : Nat → List Bytes → List (List Bytes)
  | 0, _ => []
  | fuel + 1, rs => if rs.isEmpty then [] else rs.take 253 :: recordGroups fuel (rs.drop 253)

/-- Send messages of the FINGERPRINT class to the peers of the open epoch. -/
def State.toPeers (ms : List DriftMsg) (s : State) : State := s.store.peers.foldl (fun s q => s.driftSend q ms) s

def fpRecordMsg (epoch now : Nat) (rs : List Bytes) : DriftMsg := ⟨4, 1, ceilDiv (48 + 16 * rs.length) 64, 0, 0, 0, [epoch], rs.flatten, now, none⟩

def countOf (o : FpOutcome) (l : List FpOutcome) : Bytes := leBytes 4 (l.filter fun x => decide (x = o)).length

def execFpUpdate (t : Nat) (inst : Inst) (s : State) : Host.Outcome State Fault Refusal :=
  s.opcode t 0x0402 inst (fun c s =>
      let rs := fpRecords c.payload
      firstFail
        [(!s.store.ownOpen || decide (16777216 < s.store.records + rs.length), E.state), (rs.any s.recordBad, E.field)])
    (fun c s =>
      let rs := fpRecords c.payload
      let r := s.storeRecords rs
      let epoch := (s.storeEpoch + 1) % 2 ^ 32
      (r.1.toPeers ((recordGroups (rs.length + 1) rs).map (fpRecordMsg epoch s.count)),
       countOf .applied r.2 ++ countOf .duplicate r.2 ++ countOf .absent r.2 ++ countOf .full r.2 ++ leBytes 4 r.1.store.records, none)) true true

/-! ### FP_EPOCH_COMMIT, FP_EPOCH_ABORT, FP_QUERY -/

def execFpEpochCommit (t : Nat) (inst : Inst) (s : State) : Host.Outcome State Fault Refusal :=
  s.opcode t 0x0403 inst (fun _ s => firstFail [(!s.store.ownOpen, E.state)])
    (fun _ s =>
      let epoch := (s.storeEpoch + 1) % 2 ^ 32
      ((s.toPeers [⟨5, 1, 1, 0, 0, 0, [epoch, s.store.records], [], s.count, none⟩]).fpCommit, leBytes 4 epoch, none)) true true

def execFpEpochAbort (t : Nat) (inst : Inst) (s : State) : Host.Outcome State Fault Refusal :=
  s.opcode t 0x0404 inst (fun _ s => firstFail [(!s.store.ownOpen, E.state)])
    (fun _ s =>
      let s1 := s.toPeers [⟨6, 1, 1, 0, 0, 0, [(s.storeEpoch + 1) % 2 ^ 32], [], s.count, none⟩]
      ((s1.storeSettle false).startForwarded, [], none)) true true

/-- 0 IDLE, 1 OPEN, 2 SWEEPING, 3 FORWARDED_WAITING: a peer's epoch waits behind another. -/
def Store.code (st : Store) : Nat :=
  let waits := if st.foreign then decide (1 < st.forwarded.length) else !st.forwarded.isEmpty
  if waits then 3 else match st.epoch with | .idle => 0 | .opened => 1 | .sweeping => 2

def lostBuckets (st : Store) : Nat := (st.lost.map fun p => min 1024 (st.nb - 1024 * p)).sum

def State.fpRecordBytes (s : State) : Bytes :=
  leBytes 4 s.storeEpoch ++ leBytes 4 s.store.code ++ leBytes 8 (s.store.visible true) ++ leBytes 4 (lostBuckets s.store) ++
    leBytes 4 (if s.store.epoch = .opened then s.store.records else 0)

def execFpQuery (t : Nat) (inst : Inst) (s : State) : Host.Outcome State Fault Refusal :=
  s.opcode t 0x0405 inst (fun _ _ => 0) (fun _ s => (s, s.fpRecordBytes, none)) false false

/-! ### The sweep (R106) -/

/-- Every touched bucket has been swept: FP_EPOCH goes to every instance. -/
def State.sweepDone (s : State) : State :=
  (s.storeSettle true).eventAll Ev.fpEpoch s.count (leBytes 4 s.storeEpoch ++ leBytes 4 s.store.touched.length)

/-- The sweep ends once every item stamped before the commit has been answered; a waiting forwarded epoch follows. -/
def execFpSweepComplete (t : Nat) (s : State) : Host.Outcome State Fault Refusal :=
  done (s.run t fun s =>
    if s.store.epoch = .sweeping ∧ !(s.items.any fun p => decide (p.2.stamp < s.store.effect) && !p.2.answered) then
      s.sweepDone.startForwarded
    else s)

/-! ### Forwarded messages (R113) -/

/-- The epoch of a peer that is staged or waits. -/
def Store.forwardedOf (st : Store) (dev epoch : Nat) : Option Forwarded := st.forwarded.find? fun f => f.dev == dev && f.epoch == epoch

/-- Take in an epoch not seen before: staged at once when the store is idle, waiting otherwise; at most one waits. -/
def State.takeForwarded (dev epoch : Nat) (s : State) : State :=
  if (s.store.forwardedOf dev epoch).isSome then s
  else if 1 + b2n s.store.foreign ≤ s.store.forwarded.length then s
  else ({ s with store := { s.store with forwarded := s.store.forwarded ++ ([⟨dev, epoch, [], none⟩] : List Forwarded) } }).startForwarded

/-- Records are staged: applied to the open epoch when it is this one, kept otherwise. -/
def State.stageRecords (dev epoch : Nat) (rs : List Bytes) (s0 : State) : State :=
  let s := s0.takeForwarded dev epoch
  match s.store.forwardedOf dev epoch with
  | none => s
  | some f =>
    let s1 := if s.store.foreign && s.store.forwarded.head? == some f then (s.storeRecords rs).1 else s
    { s1 with
      store := { s1.store with forwarded := s1.store.forwarded.map fun (g : Forwarded) => if g = f then { g with recs := g.recs ++ rs } else g } }

def execFpRecord (t q : Nat) (hdr : DriftHdr) (epoch : Nat) (recs : List Bytes) (s : State) : Host.Outcome State Fault Refusal :=
  done (s.driftIn t q 1 hdr fun s => s.stageRecords (s.driftPort q).peer epoch recs)

/-- The forwarded commit: with every record here the staged epoch commits at this device's own count, or will once its turn
comes; with one missing it is aborted and reported. -/
def State.forwardedCommit (dev epoch count : Nat) (s0 : State) : State :=
  let s := s0.takeForwarded dev epoch
  match s.store.forwardedOf dev epoch with
  | none => s.report Rep.fpReplica [0, 0, epoch]
  | some f =>
    if f.recs.length ≠ count then s.failForwarded f
    else if s.store.foreign && s.store.forwarded.head? == some f then
      ({ s with store := { s.store with forwarded := s.store.forwarded.erase f } }).fpCommit
    else { s with store := { s.store with forwarded := s.store.forwarded.map fun (g : Forwarded) => if g = f then { g with commit := some count } else g } }

def execFpCommit (t q : Nat) (hdr : DriftHdr) (epoch count : Nat) (s : State) : Host.Outcome State Fault Refusal :=
  done (s.driftIn t q 1 hdr fun s => s.forwardedCommit (s.driftPort q).peer epoch count)

def execFpAbort (t q : Nat) (hdr : DriftHdr) (epoch : Nat) (s : State) : Host.Outcome State Fault Refusal :=
  done (s.driftIn t q 1 hdr fun s =>
    match s.store.forwardedOf (s.driftPort q).peer epoch with
    | some f => s.dropForwarded f
    | none => s)

end Sys2Proof.Machine
end

