-- ==== Sys2Proof/Machine/StreamRows.lean ====
section
/-! DEFINITION. What completes in a stream's life: request evaluations, write-backs, snapshots and their restores, hot
slots, closing, transfers absorbed, pages zeroed (R38, R43 to R47, R56, R187 to R189, R216, R253, R254, R258, R270). -/

namespace Sys2Proof.Machine

/-- End a stream's own transfer of a kind. -/
def State.endXferOf (k : XferKind) (sid : Nat) (s : State) : State :=
  match s.xfers.find? fun x => x.2.kind == k && x.2.stream == some sid && !x.2.orphan with
  | some x => s.endXfer x.1
  | none => s

/-! ### Request evaluations (R189, R216, Table 8.9) -/

/-- The classes with an outcome, as a bit map. -/
def classMap (o : Nat) (outs : List Nat) : Nat := ((indexed outs).map fun p => if p.2 = o then 2 ^ p.1 else 0).sum

def verdictRecord (sid : Nat) (x : Stream) (r : ReqEval) : Bytes :=
  leBytes 2 sid ++ leBytes 1 r.trigger ++ leBytes 1 (r.verdict + 64 * b2n r.undecided + 128 * b2n x.e.verdictLate) ++
    leBytes 2 (classMap clsFired r.outs) ++ leBytes 2 (classMap clsBand r.outs) ++ leBytes 2 r.merged ++ leBytes 2 0 ++
    leBytes 4 r.commit ++ leBytes 4 r.install ++ leBytes 4 0 ++ leBytes 8 r.start

/-- The run end that carries a request BLOCK: every held token is withheld in it. -/
def requestEnd (now dg next : Nat) : RunEnd := ⟨next, true, none, now + dg, now, 8, vBlock, 4, 0, true, [], []⟩

/-- A request BLOCK under ABORT at its count V (R216); an outstanding run end carries it when there is one. -/
def State.requestBlock (sid : Nat) (s : State) : State :=
  let dg := s.streamSetting sid Setting.dG
  let s1 := { s with items := s.items.map fun (p : Nat × Item) =>
    if p.2.owned ∧ p.2.stream = sid ∧ !p.2.isChunk ∧ p.2.refused.isNone ∧ p.2.cut.isNone ∧ !p.2.answered then
      (p.1, { p.2 with cut := some 0 }) else p }
  let s2 := s1.modStream sid fun x =>
    { x with
      extendPending := none
      runEnd := match x.runEnd with
        | some r => some { r with shown := true, verdict := vBlock, source := 4, rule := 0, withhold := true }
        | none => if x.e.phase = .generating then some (requestEnd s.count dg s.nextItem) else none }
  s2.drain sid 8

/-- The running evaluation completes, and a pending one starts. -/
def State.requestDone (sid : Nat) (s : State) : State :=
  match s.stream sid with
  | none => s
  | some x =>
    match x.reqRun with
    | none => s
    | some r =>
      let s1 := s.event (s.ctx x.e.ctx).evInst Ev.verdict x.e.ctx sid s.count (verdictRecord sid x r)
      let s2 := s1.modStream sid fun x =>
        { x with
          reqRun := none, closeEval := if r.trigger = 2 then some (r.verdict + 64 * b2n r.undecided) else x.closeEval
          e := { x.e with verdict := worse x.e.verdict r.verdict } }
      let s3 := match x.reqPend with
        | none => s2
        | some p => (s2.modStream sid fun x => { x with reqPend := none }).startRequest sid p.trigger p.merged
      if r.verdict = vBlock ∧ x.e.state.live ∧ s.streamSetting sid Setting.reqBlock = 0 then s3.requestBlock sid else s3

def execRequestEvaluationComplete (t stream : Nat) (err : Ecc) (s : State) : Host.Outcome State Fault Refusal :=
  done (s.run t fun s =>
    match s.stream stream with
    | none => s
    | some x =>
      match x.reqRun with
      | none => s
      | some r =>
        if s.suspended x.e.ctx s.count then s
        else
          s.access (s.imagePages x.e.ctx ([0, 0, 0, 0, r.install]) [4]) err (State.imageError x.e.ctx) fun s => (s.requestDone stream).progress stream)

/-! ### Write-backs (R253, R254) -/

/-- Write a capture of the state at COMMIT_PTR. -/
def State.startWrite (sid : Nat) (s : State) : State :=
  match s.stream sid with
  | none => s
  | some x =>
    (s.modStream sid fun x => { x with writing := some ⟨x.e.commitPtr, x.atCommit⟩, capPending := false }).newWrite .ckptWrite x.e.ctx (some sid) (s.capturePages sid x)

/-- Every part of a capture is in the stacks: its slot becomes the valid one. -/
def State.ckptWritten (sid : Nat) (s : State) : State :=
  match s.stream sid with
  | none => s
  | some x =>
    match x.writing with
    | none => s
    | some k =>
      let toB := x.e.ckptValid && !x.validB
      let s1 := (s.endXferOf .ckptWrite sid).modStream sid fun x =>
        { x with
          slotA := if toB then x.slotA else some k, slotB := if toB then some k else x.slotB, validB := toB, writing := none
          e := { x.e with ckptPos := k.pos, ckptValid := true } }
      let s2 := if x.capPending then s1.startWrite sid else s1
      let s3 := s2.replicateCapture sid
      if s.streamSetting sid Setting.reqAtCkpt = 1 then s3.reqTrigger sid 0 else s3

def execCheckpointWriteComplete (t stream : Nat) (s : State) : Host.Outcome State Fault Refusal :=
  done (s.run t fun s =>
    let ks := match s.stream stream with | some x => if x.writing.isSome then slotPages x.writesB else [] | none => []
    ((s.meetPages stream ks).getD (s.ckptWritten stream)).progress stream)

/-! ### Prefix snapshots (R45 to R47, R56) -/

/-- A save ends with a status, reported in a SNAPSHOT event. -/
def State.endSave (sid code : Nat) (s : State) : State :=
  match s.stream sid with
  | none => s
  | some x =>
    ((s.endXferOf .snapWrite sid).modStream sid fun x => { x with saving := none, snapStatus := code }).event x.admInst Ev.snapshot x.e.ctx sid
      s.count (leBytes 1 code ++ List.replicate 7 0 ++ leBytes 8 x.e.handle)

def execSnapshotWriteComplete (t stream : Nat) (err : Bool) (s : State) : Host.Outcome State Fault Refusal :=
  done (s.run t fun s =>
    match (s.stream stream).bind (·.saving) with
    | none => s
    | some n =>
      if n.pages.length < pagesOf n.bytes then s
      else (if err then (s.endSave stream E.internal).releasePages n.pages else (s.endSave stream E.ok).putSnapshot n).progress stream)

/-- The screening state that a restored prefix leaves: the input side it recorded, the output side at its start (R74). -/
def restoredScreen (n : Snapshot) (r : Screen) (x : Stream) : Screen :=
  { r with
    outStates := [], outFp := [], normIds := [], outTok := [], gram := ⟨0, 0, []⟩, ring := [], outputCount := x.screen.outputCount
    source := none, draftLen := x.screen.draftLen, missCount := x.screen.missCount, reqPending := [], held := n.heldIds }

/-- Chunks accepted before a restore ended take their positions after the prefix (R56). -/
def State.shiftChunks (sid n : Nat) (s : State) : State :=
  { s with items := s.items.map fun (p : Nat × Item) =>
      if p.2.owned ∧ p.2.stream = sid ∧ p.2.live then
        (p.1, p.2.onChunk fun b =>
          if b.pfx then b else { b with start := b.start + n, stop := b.stop + n, relStart := b.relStart + n })
      else p }

/-- A restore completes (R56): positions and pointers advance, held tokens stay held. -/
def State.prefixRestored (sid : Nat) (n : Snapshot) (s : State) : State :=
  let s1 := ((s.endXferOf .snapRestore sid).restored (snapKey n)).shiftChunks sid n.length
  s1.modStream sid fun x =>
    let r := restoredScreen n n.screen x
    let rel := restoredScreen n n.atCommit x
    let seen := n.length - n.heldIds.length
    let c := x.e.commitPtr + seen
    { x with
      intakePos := x.intakePos + n.length, screen := { r with held := [] }, rel := rel, base := ⟨c, { rel with held := [] }⟩, heldIn := n.heldIds.length, restore := none
      scrPins := n.imagePins, log := n.log, logCount := seen, index := n.index, trigPos := c, prefixToks := []
      record := ((List.range (min 16 n.log.length)).map fun k => (c - 1 - k, n.log.getD (n.log.length - 1 - k) 0 + 2 ^ 18)).reverse
      e := { (if x.e.prefixMode = 2 then x.e.turn .intake else x.e) with
        restoring := false, lengthPtr := c, commitPtr := c, rewindMark := c, holdback := n.heldIds.length } }

/-- A read error (R46, Table 11.3): the snapshot is deleted. The first chunk that is to report it is refused with
E_HANDLE and those accepted after it with E_SEQUENCE; without one the stream's next chunk reports it. -/
def State.restoreFailed (sid : Nat) (n : Snapshot) (s : State) : State :=
  let s1 := (s.endXferOf .snapRestore sid).deleteSnapshot n
  let waits := (s1.liveOf sid).filter fun p => p.2.isChunk && !p.2.answered &&
    (match p.2.chunk? with | some b => !b.pfx || b.pfxEnd | none => false)
  let s2 := s1.modStream sid fun x => { x.handleLost with badRestore := waits.isEmpty }
  match waits with
  | [] => s2
  | w :: rest =>
    rest.foldl (fun (s : State) p => s.modItem p.1 fun it => { it with refused := some E.sequence })
      (s2.modItem w.1 fun it => { it with refused := some E.handle, handleStatus := hsBad })

def execSnapshotRestoreComplete (t stream : Nat) (err : Ecc) (s : State) : Host.Outcome State Fault Refusal :=
  done (s.run t fun s =>
    match (s.stream stream).bind (·.restore) with
    | none => s
    | some n =>
      (s.access n.pages err (fun s => s.restoreFailed stream n) fun s => s.prefixRestored stream n).progress stream)

/-! ### Hot slots (R43) -/

/-- A stream needs a hot slot: it is cold with an item waiting, or with a TAP, which starts its warm-in (R43, R158). -/
def State.needsHot (s : State) (sid : Nat) (x : Stream) : Bool := x.e.hotSlot.isNone && (!(s.unanswered sid).isEmpty || !x.taps.isEmpty)

def execWarmIn (t stream : Nat) (s : State) : Host.Outcome State Fault Refusal :=
  done (s.run t fun s =>
    match s.stream stream with
    | none => s
    | some x =>
      if s.needsHot stream x ∧ s.hotUsed x.e.ctx < (s.ctx x.e.ctx).resv.hotSlots then
        (s.takeHot stream).progress stream
      else s)

/-- Hot, with no item in flight and no held token for the context's cool time. -/
def State.idleHot (s : State) (sid : Nat) (x : Stream) : Bool :=
  x.e.hotSlot.isSome && (s.itemsOf sid).isEmpty && x.heldOut.isEmpty && x.rel.held.isEmpty && x.runEnd.isNone &&
    decide (x.lastActive + s.streamSetting sid Setting.coolTime ≤ s.count)

/-- The order of R35 among idle streams: lowest priority, then the longest idle. -/
def coolBefore (a b : Nat × Stream) : Bool := keyLe [a.2.e.priority, a.2.lastActive, a.1] [b.2.e.priority, b.2.lastActive, b.1]

/-- The stream that gives up its slot, when another of its context needs one and none is free. -/
def State.coolChoice (s : State) (c : Nat) : Option Nat :=
  let mine := s.ctxStreams c
  if (mine.any fun p => s.needsHot p.1 p.2) ∧ (s.ctx c).resv.hotSlots ≤ s.hotUsed c then
    ((sortBy coolBefore (mine.filter fun p => s.idleHot p.1 p.2)).head?).map (·.1)
  else none

/-- Under SWAPPED the chosen stream gives up its slot once a write-back at its COMMIT_PTR has completed; until then one is
started. -/
def execCoolTime (t stream : Nat) (s : State) : Host.Outcome State Fault Refusal :=
  done (s.run t fun s =>
    match s.stream stream with
    | none => s
    | some x =>
      if s.streamSetting stream Setting.hotPolicy = 1 ∧ s.coolChoice x.e.ctx = some stream then
        if x.e.ckptValid ∧ x.e.ckptPos = x.e.commitPtr then s.modStream stream fun x => { x with e := { x.e with hotSlot := none }, home := none }
        else if x.writing.isSome then s
        else s.capture stream
      else s)

/-! ### Closing (R38, Table 2.5) -/

/-- Nothing of the stream is in flight. -/
def State.streamBalanced (s : State) (sid : Nat) : Bool := !(s.xfers.any fun x => x.2.stream == some sid)

/-- A DRAINING stream may close: its items are answered, its held tokens resolved, its verdict produced, its write-back
complete. -/
def State.drained (s : State) (sid : Nat) (x : Stream) : Bool :=
  x.e.state == .draining && s.quiet sid && !s.awaits x.e.ctx && x.ended && x.heldOut.isEmpty && x.reqRun.isNone && x.reqPend.isNone &&
    (!s.hasRequest x || x.closeEval.isSome) && x.writing.isNone && !x.capPending && x.saving.isNone && x.restore.isNone && s.streamBalanced sid

/-- The stream's context lets it resume after a fault (Table 2.5, R39). -/
def State.mayResume (s : State) (x : Stream) : Bool :=
  setting (s.ctx x.e.ctx).settings Setting.resume == 1 && (x.fault == E.rewindLost || x.fault == E.internal) && x.e.ckptValid &&
    x.e.closeReason == 0 && !(s.ctx x.e.ctx).frozen

/-- A FAULTED stream that does not resume may close. -/
def State.faultedOut (s : State) (sid : Nat) (x : Stream) : Bool :=
  x.e.state == .faulted && !s.mayResume x && s.quiet sid && s.streamBalanced sid

def execStreamClosed (t stream : Nat) (s : State) : Host.Outcome State Fault Refusal :=
  done (s.run t fun s =>
    match s.stream stream with
    | none => s
    | some x =>
      if s.drained stream x ∨ s.faultedOut stream x then
        (s.modStream stream fun x =>
          { (if x.e.state = .faulted ∧ x.e.closeReason = 0 then x.closeWith s.count 10 else x) with e := { (if x.e.state = .faulted ∧ x.e.closeReason = 0 then x.closeWith s.count 10 else x).e with state := .closed } }).freeStream stream
      else s)

/-! ### Transfers and pages (R258, R270, R271) -/

def execTransferAbsorbed (t xfer : Nat) (s : State) : Host.Outcome State Fault Refusal :=
  done (s.run t fun s => if (tget s.xfers xfer).any (·.orphan) then s.endXfer xfer else s)

/-- A released stack page has been zeroed and is FREE: a spare page may retire another, saves that wait for pages take it (R256, R258). -/
def State.stackZeroed (page : Nat) (s : State) : State :=
  let s1 := { s with zeroing := s.zeroing.erase page }
  (if inSpan s.spareSpan page then s1.retryRetire else s1).mapSaves

/-- A stack page leaves TRANSIT, or, numbered on from the stack pages by the scopes of Table 11.7, a Seam page of a scope. -/
def execZeroingComplete (t page : Nat) (s : State) : Host.Outcome State Fault Refusal :=
  done (s.run t fun s =>
    if s.zeroing.contains page then s.stackZeroed page
    else { s with seamZero := s.seamZero.map fun p => if Config.stackPages + p.1 = page then (p.1, p.2 - 1) else p })

end Sys2Proof.Machine
end

