-- ==== Sys2Proof/Machine/Replay.lean ====
section
/-! DEFINITION. Restoring a stream from its checkpoint and replaying its tokens (R141, R164, R193, R246, R302). -/

namespace Sys2Proof.Machine

/-! ### Replaying one token -/

/-- The item that a replayed token is stepped under; nothing answers it. -/
def State.replayItem (s : State) (sid pos : Nat) (x : Stream) : Item :=
  Item.new sid 0 x.e.domain x.e.lastStamp 0 0 (s.ctx x.e.ctx).settings x.e
    (.cand { CandBody.new (CandPkt.of []) with begun := true, first := pos, finished := true, committed := true })

/-- The item that a run of replayed prompt tokens is stepped under: one chunk for the run, since the record keeps no boundaries of chunks
(log 77). -/
def State.replayChunk (s : State) (sid pos : Nat) (x : Stream) : Item :=
  Item.new sid 0 x.e.domain x.e.lastStamp 0 0 (s.ctx x.e.ctx).settings x.e
    (.chunk { ChunkBody.new (ChunkPkt.of []) pos x.screen with origin := x.screen.origin })

/-- Work under a replay's item, which leaves no event, item or match record behind; `counts`: its values accumulate. -/
def State.underReplay (counts : Bool) (sid pos : Nat) (f : Nat → State → State) (s : State) : State :=
  match s.stream sid with
  | none => s
  | some x =>
    let n := s.nextItem
    let s1 := f n { s with items := tset s.items n (s.replayItem sid pos x) }
    let s2 := s1.completePasses fun p => p.stream == sid
    let s3 := if counts then s2.accumulate n 0 else s2
    { (s3.modStream sid fun y => { y with featurePath := x.featurePath }) with items := tdel s3.items n, insts := s.insts }

/-- A replayed output token: sets, windows, grammar, token guards, ring; probes give nothing (R164). A grammar selected at the token starts
there (R203). -/
def State.replayOutput (v : Vocab) (sid pos id : Nat) (s : State) : State :=
  let s1 := s.modStream sid fun x =>
    match x.gramStarts.find? fun k => k.1 == pos with
    | none => x
    | some k => { x with screen := { x.screen with gram := startGram ((s.ctx x.e.ctx).gateImage x.e.imagePins) x.e.vocab k.2 x.screen.gram } }
  (s1.underReplay true sid pos fun n s => s.commitToken n v 0 id).modStream sid fun x => { x with probeWait := [], trail := [] }

/-- A replayed prompt token on one input set: the stream's screening state, and the counts of its item. -/
def replaySet (x : Stream) (v : Vocab) (es : List Ensemble) (pos id : Nat) (a : Screen × List (Nat × Nat)) (p : PatternSet) :
    Screen × List (Nat × Nat) :=
  let w := stepTokens p v ⟨stateAt a.1.inStates p.index, x.screen.byteCount, x.screen.inTok, []⟩ [(pos, id)]
  let eff := setEffect p x.e.admitStamp x.e.lastStamp (tget a.1.windows p.index) w.events
  ({ a.1 with
     inStates := tset a.1.inStates p.index w.state
     windows := match eff.window with | some k => tset a.1.windows p.index k | none => a.1.windows },
   addCounts es 0 (grateCount p.index false w.events) a.2)

/-- A replayed prompt token on one fingerprint set. -/
def State.replayFp (s : State) (x : Stream) (sel : FpSelection) (v : Vocab) (es : List Ensemble) (pos id : Nat) (a : Screen × List (Nat × Nat))
    (q : FpEntry × FpSetDef) : Screen × List (Nat × Nat) :=
  let w := FpWindow.step q.2.n pos (fpToken sel v x.e.vocab id) (windowAt a.1.inFp q.1.set)
  let r := if w.2 then some (s.fpRead (s.store.newView s.count) q.1.set (fpHash q.2 w.1)) else none
  let last := match r with | some k => lastHitAfter q.1 w.1.lastHit k | none => w.1.lastHit
  ({ a.1 with inFp := tset a.1.inFp q.1.set { w.1 with lastHit := last } },
   if r.any (countsHit q.1) then addCounts es 0 (fun f => if f.kind = 1 ∧ f.argA = q.1.set then 1 else 0) a.2 else a.2)

/-- A replayed prompt token, under its run's item: the input side. -/
def State.replayPrompt (v : Vocab) (sid pos id : Nat) (s : State) : State :=
  match s.stream sid, s.item s.nextItem with
  | some x, some it =>
    let c := s.ctx x.e.ctx
    let sel := c.fpSel x.e.imagePins
    let es := c.fed x.e.imagePins true
    let sets := s.fpSets sel x.e.vocab false
    let fps := sets.filterMap fun q =>
      let w := FpWindow.step q.2.n pos (fpToken sel v x.e.vocab id) (windowAt x.screen.inFp q.1.set)
      if w.2 then some (fpHash q.2 w.1) else none
    let a := ((c.patternSets x.e.imagePins).filter (·.input)).foldl (replaySet x v es pos id) (x.screen, it.tallies)
    let b := sets.foldl (s.replayFp x sel v es pos id) a
    let m := walkMap v x.screen.byteCount x.screen.inTok [(pos, id)]
    ((s.meetFps fps).modStream sid fun x => { x with screen := { b.1 with byteCount := m.1, inTok := m.2 } }).modItem s.nextItem fun it =>
      ({ it with tallies := b.2 }).onChunk fun k => { k with stop := pos + 1 }
  | _, _ => s

/-- A run of prompt tokens begins: its item takes the next number, which it gives back at its end. -/
def State.promptOpens (sid pos : Nat) (s : State) : State :=
  match s.stream sid with
  | none => s
  | some x => { s with items := tset s.items s.nextItem (s.replayChunk sid pos x) }

/-- A run of prompt tokens ends: the values of its item accumulate (R193, R246). -/
def State.promptCloses (sid : Nat) (s : State) : State :=
  match s.stream sid, s.item s.nextItem with
  | some x, some _ =>
    let n := s.nextItem
    let c := s.ctx x.e.ctx
    let es := c.fed x.e.imagePins true
    let s1 := (s.modItem n fun it =>
      { it with tallies := (c.patternSets x.e.imagePins).foldl (fun (l : List (Nat × Nat)) p =>
          setCounts es 0 (fun f => f.kind == 3 && f.argA == p.index) (x.windowCount c it.stamp p) l) it.tallies }).accumulate n 0
    { s1 with items := tdel s1.items n }
  | _, _ => s

/-! ### Runs and turns between them (R69, R74) -/

/-- The end of a run that lies between two replayed tokens. -/
def State.replayEnd (sid pos : Nat) (s : State) : State :=
  match s.stream sid with
  | none => s
  | some x => s.underReplay false sid pos fun n s => (s.presentEnd sid n 0 x.e.lastStamp x.e.imagePins).2

/-- The end of a prompt that lies between two replayed tokens: input states at START, output windows primed. -/
def State.replayTurn (sid : Nat) (s : State) : State :=
  match s.stream sid with
  | none => s
  | some x =>
    let fps := s.primedFp x
    s.modStream sid fun x => { x with screen := { x.screen with inStates := [], outFp := fps } }

/-- One token of the record, a prompt token or an output token, after one of a kind or none. -/
def State.replayToken (v : Vocab) (sid : Nat) (a : Option Bool × State) (k : Nat × Nat) : Option Bool × State :=
  let prompt := decide (2 ^ 18 ≤ k.2)
  let id := k.2 % 2 ^ 18
  let s := match a.1, prompt with
    | some false, true => (a.2.replayEnd sid k.1).promptOpens sid k.1
    | none, true => a.2.promptOpens sid k.1
    | some true, false => (a.2.promptCloses sid).replayTurn sid
    | _, _ => a.2
  (some prompt, if prompt then s.replayPrompt v sid k.1 id else s.replayOutput v sid k.1 id)

/-- Replay tokens (position, id, 2^18 added for a prompt token); a stream that then generates starts its run after a
prompt. -/
def State.replay (sid : Nat) (toks : List (Nat × Nat)) (s : State) : State :=
  match s.stream sid with
  | none => s
  | some x =>
    match tget s.vocabs x.e.vocab with
    | none => s
    | some v =>
      let r := toks.foldl (State.replayToken v sid) (none, s)
      let s1 := r.2.promptCloses sid
      if r.1 = some true ∧ x.e.resume = .generating then s1.replayTurn sid else s1

/-! ### Restoring (R246) -/

/-- The state of a checkpoint, with the prompt guards' own states kept. -/
def Stream.loadCkpt (k : Checkpoint) (tokenModel : Nat → Bool) (x : Stream) : Stream :=
  let kept := x.screen.models.filter fun m => !tokenModel m.1
  let models := kept.foldl (fun (t : Tbl ModelState) m => tset t m.1 m.2) (k.screen.models.filter fun m => tokenModel m.1)
  { x with screen := { k.screen with models := models, reqPending := [], held := [] }, scrPins := x.e.imagePins, trail := [], inHits := [],
           reqRun := none, reqPend := none }

/-- The models whose states checkpoints hold. -/
def State.isTokenModel (s : State) (x : Stream) (id : Nat) : Bool :=
  match (s.ctx x.e.ctx).modelById x.e.imagePins id with
  | some m => m.token
  | none => false

/-- The ring entries of the tokens not yet released. -/
def Stream.heldRing (x : Stream) : Tbl RingEntry :=
  let c := x.e.commitPtr
  let h := x.heldOut.length
  (x.screen.ring.filter fun r => decide (c - h ≤ r.2.position) && decide (r.2.position < c)).map fun r => (r.1, { r.2 with held := true })

/-- The last step of R246: pointers, draft length, the state returned to. -/
def Stream.resumed (kMax : Nat) (x : Stream) : Stream :=
  let c := x.e.commitPtr
  let prompt := x.e.resume != .generating
  let scr := { x.screen with ring := x.heldRing, draftLen := kMax, missCount := 0 }
  { x with
    screen := scr, rel := { scr with held := [] }, heldIn := 0, roundsSinceZero := 0, extendPending := none, trigPos := c, fault := 0
    ended := false, proposal := none
    intakePos := if prompt then c else x.intakePos, nextSeq := if prompt then 0 else x.nextSeq
    e := { x.e with state := x.e.resume, lengthPtr := c, rewindMark := c, holdback := x.heldOut.length } }

/-- The held tokens of a restored stream: the last HOLDBACK of the checkpoint's and of those committed after it (R246, R252). -/
def Stream.reheld (k : Checkpoint) (toks : List (Nat × Nat)) (x : Stream) : Stream :=
  let all := k.screen.held ++ toks.map (·.2)
  { x with heldOut := if x.e.resume = .generating then all.drop (all.length - x.e.holdback) else [] }

/-- Restore a stream from a checkpoint and replay what it committed after it. -/
def State.restoreFrom (sid : Nat) (k : Checkpoint) (toks : List (Nat × Nat)) (s : State) : State :=
  match s.stream sid with
  | none => s
  | some x =>
    let kMax := setting (s.ctx x.e.ctx).settings Setting.draftKMax
    let s1 := s.modStream sid (Stream.loadCkpt k (s.isTokenModel x))
    let s2 := (s1.modStream sid (Stream.reheld k toks)).replay sid toks
    let s3 := s2.modStream sid fun x => { x.resumed kMax with reqRun := none, reqPend := none }
    k.screen.reqPending.foldl (fun (s : State) t => s.reqTrigger sid t) s3

/-- The valid checkpoint. -/
def Stream.validCkpt (x : Stream) : Option Checkpoint := if x.e.ckptValid then (if x.validB then x.slotB else x.slotA) else none

/-- The tokens to replay: those of the record from CHECKPOINT_POS to COMMIT_PTR. -/
def Stream.replayed (x : Stream) : List (Nat × Nat) :=
  x.record.filter fun p => decide (x.e.ckptPos ≤ p.1) && decide (p.1 < x.e.commitPtr)

def execStreamRestoreComplete (t stream : Nat) (s : State) : Host.Outcome State Fault Refusal :=
  done (s.run t fun s =>
    match s.stream stream with
    | none => s
    | some x =>
      match x.validCkpt with
      | none => s
      | some k =>
        if x.e.state = .faulted ∧ s.mayResume x ∧ s.quiet stream ∧ s.streamBalanced stream then
          (s.meetPages stream (12 :: slotPages x.validB)).getD ((s.restoreFrom stream k x.replayed).progress stream)
        else s)

end Sys2Proof.Machine
end

