-- ==== Sys2Proof/Machine/Hangs.lean ====
section
/-! DEFINITION. The Canary, hangs, suspect resets and replays, and Foreman restarts (R347 to R355). -/

namespace Sys2Proof.Machine

/-! ### Cycles of the wait-for graph (R347 to R349) -/

/-- The nodes that edges lead to from some nodes, in at most `fuel` rounds. -/
def spread (es : List WaitEdge) : Nat → List UnitId → List UnitId
  | 0, l => l
  | fuel + 1, l => spread es fuel (l ++ ((es.filter fun e => l.contains e.src && !l.contains e.dst).map (·.dst)).eraseDups)

/-- The nodes that a node reaches by at least one edge. -/
def reached (es : List WaitEdge) (n : UnitId) : List UnitId := spread es es.length ((es.filter fun e => e.src == n).map (·.dst)).eraseDups

/-- The edges of the closed paths through a node. -/
def cycleAt (es : List WaitEdge) (n : UnitId) : List WaitEdge :=
  let both := fun (m : UnitId) => (reached es n).contains m && (reached es m).contains n
  es.filter fun e => both e.src && both e.dst

/-- The cycles of a graph: one for all closed paths that hang together. -/
def cyclesOf (es : List WaitEdge) : List (List WaitEdge) :=
  ((((es.map (·.src)).eraseDups).filter fun n => (reached es n).contains n).map (cycleAt es)).eraseDups

/-- Edges that have stood for THRESHOLD, a number of microseconds (R348). -/
def State.oldEdges (s : State) (es : List WaitEdge) : List WaitEdge := es.filter fun e => decide (e.since + 100 * s.threshold ≤ s.count)

/-- The unit of a Tally requester (Table 11.10); ports are no nodes of the graph. -/
def requester (foreman : Bool) (req : Nat) : Option UnitId :=
  if foreman then some (.foreman req)
  else if req < 64 then some (.hearth req)
  else if req < 80 then some (.flue (req - 64))
  else if req < 112 then some (.grate (req - 80))
  else if req < 116 then some (.assay (req - 112))
  else if req < 120 then some (.fpUnit (req - 116))
  else if req < 128 then some (.damper (req - 120))
  else if req = 128 then some .detokeniser
  else if req = 129 then some .prospector
  else none

def isForeman : UnitId → Bool
  | .foreman _ => true
  | _ => false

/-! ### Foreman restarts (R355) -/

/-- The Foreman restarts alone: context 0's Tallies are set to 0. A second restart within 1 s is a device fault. -/
def State.foremanRestart (cause : Nat) (s : State) : State :=
  if s.foreman.restarting || s.foreman.lastRestart.any (fun r => decide (s.count < r + 100000000)) then s.deviceFault FaultCause.foreman
  else
    ({ s with
      tallies := s.tallies.map fun (p : Nat × Tally) =>
        (p.1, ({ p.2 with count := if p.1 < 64 then 0 else p.2.count }).dropWaiters (·.foreman))
      foreman := { s.foreman with restarting := true, lastRestart := some s.count } }).report Rep.foremanRestart [cause]

def execForemanFailure (t : Nat) (s : State) : Host.Outcome State Fault Refusal := done (s.run t (·.foremanRestart 0))

/-- Commands that were executing complete with E_INTERNAL, and the rings are served again. -/
def execForemanRestartComplete (t : Nat) (ok : Bool) (s : State) : Host.Outcome State Fault Refusal :=
  done (s.run t fun s =>
    if !s.foreman.restarting then s
    else if !ok then s.deviceFault FaultCause.foreman
    else
      let s1 := s.abandonCommands false
      ({ s1 with foreman := { s1.foreman with restarting := false } }).pump pumpFuel)

/-! ### Suspects (R349, R352) -/

/-- Contexts with work or a Tally waiter on an involved engine; `work` lists engines and contexts with a slice or queue
item there. -/
def State.suspectsOf (s : State) (engines : List UnitId) (work : List (UnitId × Nat)) : List Nat :=
  let queued := (work.filter fun w => engines.contains w.1).map (·.2)
  let waits := s.tallies.flatMap fun t => (t.2.waiters.filter fun w => (requester w.foreman w.req).any engines.contains).map (·.ctx)
  sortBy (fun a b => decide (a ≤ b)) (queued ++ waits).eraseDups

def State.modHang (k : Nat) (f : Hang → Hang) (s : State) : State := { s with hangs := tmod s.hangs k f }

/-- HANG: the record, the suspects and their domains (R366). -/
def State.hangReport (record : Nat) (sus : List Nat) (s : State) : State :=
  s.report Rep.hang (record :: sus.length :: sus.flatMap fun c => [c, (s.ctx c).domain])

/-- A replay hangs again: a second record, and a context fault reset (R354). -/
def State.hangAgain (k : Nat) (h : Hang) (s : State) : State :=
  match h.replaying with
  | none => s
  | some c =>
    let s1 := ((s.ashpitRecord 0 [c]).modHang k fun h => { h with replaying := none, resetting := some c }).faultReset c 1
    s1.progressCtx c

/-- A hang of its own (R348 to R350). -/
def State.newHang (cyc : List WaitEdge) (engines : List UnitId) (sus : List Nat) (s : State) : State :=
  let h : Hang := ⟨cyc, engines, sus, none, 0, none, 0, false, s.ashpitNext, []⟩
  (({ s with hangs := tset s.hangs s.nextHang h, nextHang := s.nextHang + 1 }).ashpitRecord 0 sus).hangReport s.ashpitNext sus

/-- A cycle that shares an engine with a hang being handled joins it (R349). -/
def State.mergeHang (k : Nat) (h : Hang) (cyc : List WaitEdge) (engines : List UnitId) (sus : List Nat) (s : State) : State :=
  let fresh := sus.filter fun c => !h.suspects.contains c
  let s1 := (s.modHang k fun h =>
    { h with cycle := h.cycle ++ cyc, engines := (h.engines ++ engines).eraseDups, suspects := h.suspects ++ fresh }).ashpitRecord 0 sus
  if h.resetDone then fresh.foldl (fun (s : State) c => s.suspectReset c) s1 else s1

/-- One declared cycle (R348, R349, R354, R355). -/
def State.declareCycle (work : List (UnitId × Nat)) (s : State) (cyc : List WaitEdge) : State :=
  let engines := (cyc.map (·.src)).eraseDups
  let all := s.suspectsOf engines work
  let sus := all.filter fun c => c != 0 && ((s.ctx c).state == .opened || (s.ctx c).state == .closing)
  let s1 :=
    match s.hangs.find? fun p => engines.any p.2.engines.contains with
    | none => s.newHang cyc engines sus
    | some (k, h) =>
      if cyc.all h.cycle.contains then s
      else if h.replaying.isSome ∧ (cyc.any fun e => decide (h.started ≤ e.since)) then s.hangAgain k h
      else s.mergeHang k h cyc engines sus
  if all.contains 0 ∨ engines.any isForeman then s1.foremanRestart 1 else s1

/-- The Canary evaluates the edges that stand, each with the count at which it last appeared. A cycle already declared is
not declared again. -/
def execCanaryEvaluation (t : Nat) (edges : List WaitEdge) (work : List (UnitId × Nat)) (s : State) : Host.Outcome State Fault Refusal :=
  done (s.run t fun s =>
    let cs := (cyclesOf (s.oldEdges edges)).filter fun c => !(s.hangs.any fun h => c.all h.2.cycle.contains)
    (cs.foldl (State.declareCycle work) s).reportShort s.anyShort)

/-! ### Capture (R350, R351) -/

/-- Two runs of pages of a ring of `n` share a page. -/
def ringMeets (n a la b lb : Nat) : Bool := decide ((b + n - a) % n < la) || decide ((a + n - b) % n < lb)

/-- A capture reaches the stacks: at most 16 MB, in the next pages of the ring; the records it overwrites go, and a poisoned page that
they gave up is retired (R256). -/
def State.captured (record bytes : Nat) (s : State) : State :=
  let n := max 1 (s.layout.getD 6 0)
  let size := min bytes 16000000
  let len := max 1 (pagesOf size)
  let s1 := ((s.ringPages s.ashpitHead len).filter s.poisoned.contains).foldl (fun (s : State) p => s.retirePage p) s
  { s1 with
    ashpitHead := (s.ashpitHead + len) % n
    ashpit := (s.ashpit.filter fun r => r.num == record || !r.complete || !ringMeets n s.ashpitHead len r.first r.pages).map fun (r : AshpitRec) =>
      if r.num = record then { r with first := s.ashpitHead, bytes := size, truncated := decide (16000000 < bytes), complete := true } else r }

def execAshpitCaptureComplete (t record bytes : Nat) (s : State) : Host.Outcome State Fault Refusal :=
  done (s.run t fun s => if s.ashpit.any fun r => r.num == record && !r.complete then s.captured record bytes else s)

/-! ### Replay (R353, R354) -/

/-- Values of a chunk's guards at the start of the earliest item that is run again. -/
def guardStarts (items : List (Nat × Item)) : Tbl (List Fp32) :=
  items.foldl (fun (t : Tbl (List Fp32)) p =>
    if p.2.isChunk && !p.2.answered then
      (p.2.inputs.filter fun i => i.idx == 0).foldl (fun (t : Tbl (List Fp32)) i => if (tget t i.model).isSome then t else tset t i.model i.start) t
    else t) []

/-- A chunk as it was accepted. -/
def ChunkBody.restart (b : ChunkBody) : ChunkBody :=
  if b.pfx then b
  else { b with begun := false, tasks := [], partials := [], lookups := [], slices := [], evaluated := false, vectors := [] }

/-- A CANDIDATES item as it was accepted; a cutoff that has passed stays passed, with no proposal (Table 15.9). -/
def CandBody.restart (b : CandBody) : CandBody :=
  { b with begun := false, looks := [], lookups := [], decided := 0, finished := false, accepted := 0, chosen := [], exhausted := none,
           endReason := 0, endBlock := none, stopHit := none, committed := false, evalTok := 0, tokVerdicts := [], holdPoint := 0,
           draft := none }

/-- An item that is run again from its inputs. -/
def Item.restart (it : Item) : Item :=
  { it with contribs := [], flagged := false, undecided := false, abort := false, ensBlock := none, band := [], values := it.prior, tallies := [],
            inputs := [], counts := [], cleared := [], resolving := false, final := none
            body := match it.body with | .chunk b => .chunk b.restart | .cand b => .cand b.restart }

/-- The generator of a stream at an item's beginning: a run again takes the same draws (R209, R358). -/
def State.rewindDraws (it : Item) (s : State) : State :=
  match it.cand? with
  | some b => if b.begun ∧ !b.committed then s.modStream it.stream fun x => { x with genKey := b.genAt.1, genIdx := b.genAt.2 } else s
  | none => s

/-- An item is run again from its inputs. -/
def State.rerun (n : Nat) (s : State) : State :=
  match s.item n with
  | some it => ((s.rewindDraws it).modStream it.stream (Stream.forget (!it.isChunk) it.stamp)).modItem n Item.restart
  | none => s

/-- The unanswered items of a stream start again; those answered already are done with. -/
def State.restartItems (sid : Nat) (s : State) : State :=
  ((s.itemsOf sid).filter fun p => p.2.live).foldl (fun (s : State) p => if p.2.answered then s.dropItem p.1 else s.rerun p.1) s

/-- Tokens of the record from a checkpoint's position to COMMIT_PTR. -/
def Stream.tokensFrom (k : Checkpoint) (x : Stream) : List (Nat × Nat) :=
  x.record.filter fun p => decide (k.pos ≤ p.1) && decide (p.1 < x.e.commitPtr)

/-- The entry, held tokens and triggers of a stream stand through a hang's replay (R352); an END shown is shown again. -/
def Stream.rejoined (old : Stream) (x : Stream) : Stream :=
  { x with
    screen := { x.screen with ring := old.heldRing }
    e := old.e, trigPos := old.e.commitPtr, proposal := old.proposal, reqRun := old.reqRun, reqPend := old.reqPend, trail := old.trail, probeWait := [], featurePath := []
    inHits := old.inHits.filter fun h => decide (h.1 < old.e.commitPtr + old.rel.held.length)
    runEnd := old.runEnd.map fun r => if r.source = 4 then r else { r with shown := false, verdict := 0, source := 0, rule := 0, withhold := false } }

/-- A stream of a suspect: restored from its checkpoint, or from the state that it started from, replayed to COMMIT_PTR and
over its held prompt tokens, its unanswered items run again. -/
def State.rejoin (sid : Nat) (s : State) : State :=
  match s.stream sid with
  | none => s
  | some x =>
    if x.e.state = .faulted ∨ x.e.state = .closed then s
    else
      let k := x.validCkpt.getD x.base
      let starts := guardStarts (s.itemsOf sid)
      let s1 := (s.restartItems sid).modStream sid fun x =>
        let y := x.loadCkpt k (s.isTokenModel x)
        { y with screen := { y.screen with models := starts.foldl (fun (t : Tbl ModelState) m => tset t m.1 ⟨m.2, [], 0⟩) y.screen.models } }
      let s2 := (s1.replay sid (x.tokensFrom k)).modStream sid fun y => { y with rel := { y.screen with held := x.rel.held, ring := x.heldRing } }
      let held := ((List.range x.rel.held.length).map (· + x.e.commitPtr)).zip x.rel.held
      let s3 := match tget s.vocabs x.e.vocab with
        | none => s2
        | some v => held.foldl (fun (s : State) (k : Nat × Nat) => s.replayPrompt v sid k.1 k.2) s2
      s3.modStream sid (Stream.rejoined x)

/-- The order of replay (R353): highest stream priority, then context id; suspects without streams last. -/
def State.replayRank (s : State) (c : Nat) : List Nat :=
  match s.ctxStreams c with
  | [] => [8, c]
  | l => [7 - (l.map fun p => p.2.e.priority).foldl max 0, c]

/-- The hang ends: its outcomes are reported, and its engines return to service. -/
def State.endHang (k : Nat) (h : Hang) (s : State) : State :=
  let s1 := ({ s with hangs := tdel s.hangs k }).report Rep.hang (h.record :: h.outcomes.length :: h.outcomes.flatMap fun (o : Nat × Nat) => [o.1, o.2])
  h.engines.foldl (fun (s : State) u => match u with | .flue f => s.startFlue f 0 | _ => s) s1

/-- The next suspect's replay starts, or the hang ends. -/
def State.nextReplay (k : Nat) (s : State) : State :=
  match tget s.hangs k with
  | none => s
  | some h =>
    match (sortBy (fun a b => keyLe (s.replayRank a) (s.replayRank b)) h.suspects).head? with
    | none => s.endHang k h
    | some c =>
      let s1 := s.modHang k fun h => { h with replaying := some c, started := s.count, resetting := none }
      (((s1.ctxStreams c).map (·.1)).foldl (fun (s : State) sid => s.rejoin sid) s1).progressCtx c

/-- Every suspect has been reset: the first replay starts. -/
def execSuspectResetComplete (t hang : Nat) (s : State) : Host.Outcome State Fault Refusal :=
  done (s.run t fun s =>
    match tget s.hangs hang with
    | none => s
    | some h =>
      if h.resetDone then s
      else ((h.suspects.foldl (fun (s : State) c => s.suspectReset c) s).modHang hang fun h => { h with resetDone := true, since := s.count }).nextReplay hang)

/-- Nothing lets an item of a replay run further now: HOST holds its stream, it has no hot slot, it is being restored, or it
waits for GENERATING (R41, R43, R198). -/
def State.restsNow (s : State) (it : Item) : Bool :=
  match s.stream it.stream with
  | none => true
  | some x =>
    (x.e.state == .held && x.e.host) || x.e.hotSlot.isNone || x.e.restoring || x.restore.isSome ||
      (match it.body with | .chunk b => b.pfx | .cand b => !b.begun && x.e.phase != .generating)

/-- Every re-run of a suspect's replay has completed. -/
def State.replayed (s : State) (c since : Nat) : Bool :=
  s.items.all fun p =>
    !(p.2.live && p.2.entry.ctx == c && !p.2.answered && decide (p.2.stamp ≤ since)) || p.2.final.isSome || s.restsNow p.2

/-- A suspect's REPLAY causes are cleared, its items proceed, and the next suspect's replay starts. -/
def State.replayPass (k c : Nat) (s : State) : State :=
  let s1 := s.modHang k fun h => { h with suspects := h.suspects.erase c, replaying := none, outcomes := h.outcomes ++ [(c, 0)] }
  let s2 := if s1.awaits c then s1 else { s1 with streams := s1.streams.map fun (p : Nat × Stream) =>
    if p.2.e.ctx = c then (p.1, { p.2 with e := p.2.e.unhold false false true }) else p }
  (s2.progressCtx c).nextReplay k

def execReplayPass (t hang : Nat) (s : State) : Host.Outcome State Fault Refusal :=
  done (s.run t fun s =>
    match tget s.hangs hang with
    | none => s
    | some h =>
      match h.replaying with
      | none => s
      | some c => if s.replayed c h.since then s.replayPass hang c else s)

/-- 2 × THRESHOLD + 1.00 ms from the start of a replay. -/
def execReplayTimeout (t hang : Nat) (s : State) : Host.Outcome State Fault Refusal :=
  done (s.run t fun s =>
    match tget s.hangs hang with
    | none => s
    | some h => if h.replaying.isSome ∧ h.started + 200 * s.threshold + 100000 ≤ s.count then s.hangAgain hang h else s)

/-- A context that has been reset leaves a hang's suspects; the next replay starts if it was its turn. -/
def State.resetSuspect (c : Nat) (s : State) (k : Nat) : State :=
  match tget s.hangs k with
  | none => s
  | some h =>
    if h.suspects.contains c then
      let turn := h.replaying == some c || h.resetting == some c
      let s1 := s.modHang k fun h =>
        { h with suspects := h.suspects.erase c, outcomes := h.outcomes ++ [(c, 1)],
                 replaying := if turn then none else h.replaying, resetting := if turn then none else h.resetting }
      if turn then s1.nextReplay k else s1
    else s

/-- A context on which a reset has acted. -/
def State.wasReset (s : State) (c : Nat) : Bool :=
  (s.ctx c).frozen || (s.ctx c).state == .free || (s.ctx c).state == .quarantined

/-- Every stream of a reset context is FAULTED or beyond: the command completes, and a hang goes on (R326, R346, R354). -/
def execContextResetComplete (t ctx : Nat) (s : State) : Host.Outcome State Fault Refusal :=
  done (s.live t fun s =>
    if s.resetDone ctx ∧ !s.foreman.restarting then
      let s1 := (List.range 8).foldl (fun (s : State) k =>
        match (s.inst (rrInst k)).working with
        | some ⟨_, .reset c _, eff⟩ => if c = ctx then s.endWork (rrInst k) ⟨E.ok, eff, [], none⟩ else s
        | _ => s) s
      if s1.wasReset ctx then (s1.hangs.map (·.1)).foldl (State.resetSuspect ctx) s1 else s1
    else s)

end Sys2Proof.Machine
end

