-- ==== Sys2Proof/Machine/ImageCmds.lean ====
section
/-! DEFINITION. Image, vocabulary, adapter and tap-normalisation commands (R21, R49, R50, R57, R154, R156, R160, R333 to
R335, R413, Tables 14.8 to 14.10). -/

namespace Sys2Proof.Machine

/-! ### IMAGE_STAGE (R334) -/

def ExecCmd.stageFirst (c : ExecCmd) : Bool := bit (c.arg 0x19 1) 0
def ExecCmd.stageDiscard (c : ExecCmd) : Bool := bit (c.arg 0x19 1) 1

def State.staged (s : State) (i : Inst) (k : Nat) : Bytes := (s.inst i).staging.getD k []

/-- What the buffer holds after the command. -/
def State.stagedAfter (s : State) (c : ExecCmd) : Bytes :=
  (if c.stageFirst || c.stageDiscard then [] else s.staged c.inst (c.arg 0x18 1)) ++ c.payload

/-- Put bytes into a buffer; it takes the pages it lacks, and those it gives up are zeroed. -/
def State.setStage (i : Inst) (k : Nat) (b : Bytes) (s : State) : State :=
  let old := (s.inst i).stagePages.getD k []
  let keep := old.take (pagesOf b.length)
  let ps := keep ++ s.allocRegion 4 (pagesOf b.length - keep.length)
  (s.modInst i fun x => { x with staging := x.staging.set k b, stagePages := x.stagePages.set k ps }).releasePages (old.drop (pagesOf b.length))

def State.stageCheck (c : ExecCmd) (s : State) : Nat :=
  let old := s.staged c.inst (c.arg 0x18 1)
  let new := s.stagedAfter c
  let fresh := c.stageFirst || c.stageDiscard
  firstFail
    [((c.stageFirst && c.stageDiscard) || (c.stageDiscard && Slot.desc c.slot) || (!fresh && !Slot.desc c.slot), E.field),
     (decide (3 < c.arg 0x18 1) || decide (268435456 < new.length), E.range),
     (c.arg 0x20 8 != (if fresh then 0 else old.length), E.sequence),
     (decide (s.freeIn (regionSpan s.layout 4) < (if fresh then pagesOf new.length else pagesOf new.length - pagesOf old.length)), E.capacity)]

/-- Empty a buffer, its pages to zeroing, then fill it. -/
def execImageStage (t : Nat) (inst : Inst) (s : State) : Host.Outcome State Fault Refusal :=
  s.opcode t 0x0300 inst (fun c s => s.stageCheck c)
    (fun c s =>
      let k := c.arg 0x18 1
      let s0 := if c.stageFirst || c.stageDiscard then s.setStage inst k [] else s
      (s0.setStage inst k (s.stagedAfter c), leBytes 8 (s.stagedAfter c).length, none)) true true

/-! ### IMAGE_INSTALL (R21, R413) -/

/-- The bytes that a command's payload or its staging buffer gives. -/
def State.image (s : State) (c : ExecCmd) (staged : Bool) (k : Nat) : Bytes := if staged then s.staged c.inst k else c.payload

def installOf (num now : Nat) (img : Bytes) (body : ImageBody) : Install :=
  ⟨num, Img.version img, Img.abi img, Img.boundG img, Img.boundC img, Img.tallyCount img, [], now, sha384 img, Img.imageBytes img, body, [], []⟩

def State.installCheck (s : State) (c : ExecCmd) : Nat :=
  let id := c.ctxId
  let kind := c.arg 0x1A 1
  let staged := bit (c.arg 0x1B 1) 0
  let k := c.arg 0x1C 1
  let img := s.image c staged k
  let l := s.loadBody (s.ctx id) kind img
  let i := installOf 0 s.count img l.body
  firstFail
    [(s.ctxNotOpen c id, E.context), (staged == Slot.desc c.slot, E.field),
     (decide (5 < kind) || decide (3 < k) || (!staged && k != 0), E.range), (staged && img.isEmpty, E.state),
     (true, s.containerCheck c.inst.domain kind img), (true, l.code), (!s.installFits id kind i, E.capacity),
     (s.installShort id kind i, E.delayShort)]

/-- The command's work goes on while the image loads (R314). -/
def State.startWork (c : ExecCmd) (w : Work) (s : State) : State :=
  let s1 := (s.modInst c.inst fun x => { x with working := some ⟨c, w, 0⟩ }).rehomeFlues
  ({ s1 with foreman := { s1.foreman with exec := none } }).pump pumpFuel

def State.startInstall (c : ExecCmd) (s : State) : State :=
  let id := c.ctxId
  let kind := c.arg 0x1A 1
  let staged := bit (c.arg 0x1B 1) 0
  let k := c.arg 0x1C 1
  let img := s.image c staged k
  let i := installOf 0 0 img (s.loadBody (s.ctx id) kind img).body
  let ps := s.allocRegion (kindRegion kind) (pagesOf i.imageBytes)
  s.startWork c (.install id (s.ctx id).gen kind { i with pages := ps, homes := s.grateHomes id i } (if staged then some k else none))

def execImageInstall (t : Nat) (inst : Inst) (s : State) : Host.Outcome State Fault Refusal :=
  done (s.live t fun s => s.command 0x0301 inst fun c s =>
    if s.installCheck c ≠ 0 then s.complete c (Answer.fail (s.installCheck c)) else s.startInstall c)

/-- The image is in force from here: it takes the next number of its kind, the one before it is superseded, and installs
no longer pinned are retired. -/
def State.makeAvailable (id kind : Nat) (i : Install) (s : State) : State :=
  let num := (s.ctx id).nextInstall.getD kind 1
  let s1 := s.modCtx id fun x =>
    { x with
      installs := (x.installs.map fun (r : InstallRec) => if r.kind = kind then { r with inForce := false } else r) ++
        [⟨kind, { i with num := num, available := s.count, tallies := (s.ownTallies id).take i.tallyCount }, true⟩]
      nextInstall := x.nextInstall.set kind (num + 1) }
  (s1.retireInstalls id).keepRows

/-- The published version is available from here (R49, R50). -/
def State.publish (slot : Nat) (v : AdapterVersion) (s : State) : State :=
  { s with adapters := tmod s.adapters slot fun a =>
      { a with versions := a.versions ++ [{ v with version := a.next, available := s.count }], next := a.next + 1 } }.retireAdapters

/-- Whether what a load is for still stands. -/
def State.loadTarget (s : State) (w : Work) : Bool :=
  match w with
  | .install id gen _ _ _ => ((s.ctx id).state == .opened || (s.ctx id).state == .closing) && (s.ctx id).gen == gen
  | .adapter id slot _ => match tget s.adapters slot with
    | some a => a.ctx == id && a.gen == (s.ctx id).gen && ((s.ctx id).state == .opened || (s.ctx id).state == .closing)
    | none => false
  | _ => false

/-- Load, signature check and measurement have completed: EFFECT_STAMP is now, and the command completes (R21, R314). An install of another
kind that came into force meanwhile may leave an ensemble naming what is not defined (R181). -/
def State.loadComplete (i : Inst) (s : State) : State :=
  match (s.inst i).working with
  | some ⟨_, .install id gen kind x stage, _⟩ =>
    if s.loadTarget (.install id gen kind x stage) ∧ !(s.ctx id).consistent kind x.body then s.failWork i E.field
    else if s.loadTarget (.install id gen kind x stage) then
      let num := (s.ctx id).nextInstall.getD kind 1
      let s1 := (s.makeAvailable id kind x).bumpConfig
      let s2 := match stage with | some k => s1.setStage i k [] | none => s1
      s2.endWork i ⟨E.ok, s.count, leBytes 4 num ++ verBytes x.version, none⟩
    else s.failWork i E.context
  | some ⟨_, .adapter id slot v, _⟩ =>
    if s.loadTarget (.adapter id slot v) then
      let num := ((tget s.adapters slot).map (·.next)).getD 0
      ((s.publish slot v).rehomeFlues.bumpConfig).endWork i ⟨E.ok, s.count, leBytes 2 num, none⟩
    else s.failWork i E.context
  | _ => s

/-- No load ends while a device fault is being recovered from (R21, R325, R360). -/
def execImageLoadComplete (t : Nat) (inst : Inst) (s : State) : Host.Outcome State Fault Refusal :=
  done (s.run t fun s => if s.foreman.restarting then s else s.loadComplete inst)

/-! ### IMAGE_QUERY (R335) -/

/-- The install that a query names: 0 for the one in force. -/
def State.queried (s : State) (c : ExecCmd) : Option InstallRec :=
  let kind := c.arg 0x1A 1
  let num := c.arg 0x1C 4
  (s.ctx c.ctxId).installs.find? fun r => r.kind == kind && (if num = 0 then r.inForce else r.install.num == num)

/-- Table 14.10; PIN_COUNT counts live streams. -/
def State.installRecord (s : State) (id : Nat) (r : InstallRec) : Bytes :=
  let pins := ((s.ctxStreams id).filter fun p => p.2.e.state.live && p.2.e.imagePins.getD r.kind 0 == r.install.num).length
  let bound := if r.install.boundG != 0 then r.install.boundG else r.install.boundC
  verBytes r.install.version ++ leBytes 1 r.kind ++ leBytes 1 (b2n (!r.inForce)) ++ leBytes 4 r.install.num ++ leBytes 4 pins ++
    leBytes 4 bound ++ leBytes 4 0 ++ leBytes 8 r.install.available ++ slice r.install.digest 0 48

def execImageQuery (t : Nat) (inst : Inst) (s : State) : Host.Outcome State Fault Refusal :=
  s.opcode t 0x0302 inst (fun c s =>
      firstFail [(s.ctxBad c c.ctxId, E.context), (decide (5 < c.arg 0x1A 1) || (s.queried c).isNone, E.range)])
    (fun c s => (s, [], (s.queried c).map (s.installRecord c.ctxId))) false false

/-! ### VOCAB_LOAD (R57) -/

/-- An install names a vocabulary: a normalisation table, a gate policy or grammar, an EMBED layer. -/
def bodyNames (v : Nat) : ImageBody → Bool
  | .fpSelect f => f.norms.any fun n => n.vocab == v
  | .gate g => g.policies.any (fun p => p.vocab == v) || g.grammars.any fun x => x.vocab == v
  | .models ms => ms.any fun m => m.layers.any fun l => l.op == 0 && l.arg % 8 == v
  | .probes ms => ms.any fun m => m.layers.any fun l => l.op == 0 && l.arg % 8 == v
  | _ => false

def State.vocabBusy (s : State) (v : Nat) : Bool :=
  (s.streams.any fun p => p.2.e.state.live && p.2.e.vocab == v) ||
    s.ctxs.any fun p => p.2.installs.any fun r => bodyNames v r.install.body

/-- The 16 MiB of R57, the lookahead charge of R89 and the region's pages, with the table replaced. -/
def State.vocabFits (s : State) (v : Nat) (x : Vocab) : Bool :=
  let s1 := { s with vocabs := tset s.vocabs v x }
  decide ((s1.vocabs.map fun p => vocabBytes p.2).sum ≤ 16777216) && s1.lookaheadOk s1.holds && s.pagesOk 4 (vocabBytes x)

def State.vocabCheck (s : State) (c : ExecCmd) : Nat :=
  let v := c.arg 0x18 1
  let staged := bit (c.arg 0x19 1) 0
  let unload := bit (c.arg 0x19 1) 1
  let k := c.arg 0x1A 1
  let img := s.image c staged k
  let l := loadVocab img
  firstFail
    [((unload && (staged || Slot.desc c.slot)) || (!unload && staged == Slot.desc c.slot), E.field),
     (decide (7 < v) || decide (3 < k) || (!staged && k != 0), E.range), (s.vocabBusy v, E.busy), (staged && img.isEmpty, E.state),
     (true, if unload then 0 else firstFail
       [(true, s.containerCheck c.inst.domain 6 img), (true, l.code), (!s.vocabFits v l.body, E.capacity)])]

def execVocabLoad (t : Nat) (inst : Inst) (s : State) : Host.Outcome State Fault Refusal :=
  s.opcode t 0x0303 inst (fun c s => s.vocabCheck c)
    (fun c s =>
      let v := c.arg 0x18 1
      let staged := bit (c.arg 0x19 1) 0
      let k := c.arg 0x1A 1
      let old := ((tget s.vocabs v).map (·.pages)).getD []
      let s1 := ({ s with vocabs := tdel s.vocabs v }).releasePages old
      if bit (c.arg 0x19 1) 1 then (s1, [], none)
      else
        let x := (loadVocab (s.image c staged k)).body
        let s2 := { s1 with vocabs := tset s1.vocabs v { x with pages := s1.allocRegion 4 (pagesOf (vocabBytes x)) } }
        ((if staged then s2.setStage inst k [] else s2), [], none)) true true

/-! ### Adapters (R49, R50, R154, R156) -/

def ExecCmd.adapterSlot (c : ExecCmd) : Nat := c.arg 0x1A 2

/-- The slot that a command names, when its context owns it. -/
def State.ownedSlot (s : State) (c : ExecCmd) : Option AdapterSlot :=
  match tget s.adapters c.adapterSlot with
  | some a => if a.ctx = c.ctxId ∧ a.gen = (s.ctx c.ctxId).gen ∧ !s.ctxBad c c.ctxId then some a else none
  | none => none

def State.freeSlot (s : State) : Option Nat := (List.range 256).find? fun k => (tget s.adapters k).isNone

def execAdapterSlotAlloc (t : Nat) (inst : Inst) (s : State) : Host.Outcome State Fault Refusal :=
  s.opcode t 0x0304 inst (fun c s => firstFail [(s.ctxNotOpen c c.ctxId, E.context), (s.freeSlot.isNone, E.capacity)])
    (fun c s =>
      let k := s.freeSlot.getD 0
      ({ s with adapters := tset s.adapters k ⟨c.ctxId, (s.ctx c.ctxId).gen, 1, [], []⟩ }, leBytes 2 k, none)) true true

def execAdapterSlotFree (t : Nat) (inst : Inst) (s : State) : Host.Outcome State Fault Refusal :=
  s.opcode t 0x0305 inst (fun c s =>
      firstFail
        [((s.ownedSlot c).isNone, E.context), (decide (255 < c.adapterSlot), E.range),
         (match s.ownedSlot c with
          | some a => (a.versions.any fun v => s.adapterPinCount c.adapterSlot v.version != 0, E.busy)
          | none => (false, E.busy))])
    (fun c s =>
      let ps := match s.ownedSlot c with | some a => a.versions.flatMap (·.pages) | none => []
      (({ s with adapters := tdel s.adapters c.adapterSlot }).releasePages ps, [], none)) true true

/-- Adapter versions being loaded, with their slots. -/
def State.loadingAdapters (s : State) : List (Nat × AdapterVersion) :=
  s.insts.filterMap fun i => i.working.bind fun w => match w.work with | .adapter _ slot v => some (slot, v) | _ => none

/-- The charge of R156: the state with the loading versions and this one placed. -/
def State.adapterFits (s : State) (slot : Nat) (v : AdapterVersion) : Bool :=
  let s1 := (s.loadingAdapters ++ [(slot, v)]).foldl (fun (s : State) p =>
    { s with adapters := tmod s.adapters p.1 fun a => { a with versions := a.versions ++ [p.2] } }) s
  s1.tilesOk s1.holds && s1.hearthOk (((tget s.adapters slot).map (·.ctx)).getD 0) s1.holds && s1.flueOk s1.holds && s.pagesOk 4 (v.body.tileData.length + v.body.scaleData.length)

def adapterOf (img : Bytes) (a : Adapter) : AdapterVersion := ⟨0, 0, false, Img.abi img, sha384 img, a, []⟩

def State.publishCheck (s : State) (c : ExecCmd) : Nat :=
  let img := c.payload
  let l := loadAdapter (bodyModels ((s.ctx c.ctxId).bodyOf 2)) img
  let coming := (s.loadingAdapters.filter fun p => p.1 == c.adapterSlot).length
  firstFail
    [(s.ctxNotOpen c c.ctxId || (s.ownedSlot c).isNone, E.context), (decide (255 < c.adapterSlot), E.range),
     (match s.ownedSlot c with
      | some a => (decide (4 ≤ a.versions.length + coming) || decide (65535 < a.next + coming), E.versions)
      | none => (false, E.versions)),
     (true, s.containerCheck c.inst.domain 7 img), (true, l.code), (!s.adapterFits c.adapterSlot (adapterOf img l.body), E.capacity)]

def execAdapterPublish (t : Nat) (inst : Inst) (s : State) : Host.Outcome State Fault Refusal :=
  done (s.live t fun s => s.command 0x0306 inst fun c s =>
    if s.publishCheck c ≠ 0 then s.complete c (Answer.fail (s.publishCheck c))
    else
      let v := adapterOf c.payload (loadAdapter (bodyModels ((s.ctx c.ctxId).bodyOf 2)) c.payload).body
      s.startWork c (.adapter c.ctxId c.adapterSlot { v with pages := s.allocRegion 4 (adapterPages v) }))

def execAdapterWithdraw (t : Nat) (inst : Inst) (s : State) : Host.Outcome State Fault Refusal :=
  s.opcode t 0x0307 inst (fun c s =>
      let ver := c.arg 0x1C 2
      match (s.ownedSlot c).map fun a => a.versions.find? fun v => v.version == ver with
      | none => E.context
      | some none => E.range
      | some (some v) => if v.withdrawn then E.state else E.ok)
    (fun c s =>
      ({ s with adapters := tmod s.adapters c.adapterSlot fun a =>
          { a with versions := a.versions.map fun (v : AdapterVersion) =>
              if v.version = c.arg 0x1C 2 then { v with withdrawn := true } else v } }, [], none)) true true

/-! ### TAP_NORM_LOAD (R160) -/

def bf16Finite (v : Nat) : Bool := bits v 14 7 != 255

def normPairs (b : Bytes) : List (Fp16 × Fp16) :=
  (List.range (b.length / 4)).map fun k => (BitVec.ofNat 16 (field b (4 * k) 2), BitVec.ofNat 16 (field b (4 * k + 2) 2))

/-- The bank that holds the epoch; else the one other than the bank of the latest TAP's epoch; bank 0 when neither has been
used; a free choice where the rule names none. -/
def NormSlot.target (n : NormSlot) (epoch : Nat) (free : Bool) : Nat :=
  let holds := fun (b : Option NormBank) (e : Option Nat) => match b, e with | some x, some y => x.epoch == y | _, _ => false
  if holds n.bank0 (some epoch) then 0
  else if holds n.bank1 (some epoch) then 1
  else if holds n.bank0 n.latest then 1
  else if holds n.bank1 n.latest then 0
  else if n.bank0.isNone && n.bank1.isNone then 0
  else b2n free

def NormSlot.load (k : Nat) (b : NormBank) (n : NormSlot) : NormSlot := if k = 0 then { n with bank0 := some b } else { n with bank1 := some b }

def execTapNormLoad (t : Nat) (inst : Inst) (s : State) : Host.Outcome State Fault Refusal :=
  s.opcode t 0x0308 inst (fun c _ =>
      let n := c.arg 0x1A 2
      let p := c.payload
      firstFail
        [(Slot.descLen c.slot != 4 * n || (List.range (p.length / 2)).any (fun k => !bf16Finite (field p (2 * k) 2)), E.field),
         (decide (3 < c.arg 0x18 1) || decide (n < 64) || decide (2048 < n) || n % 64 != 0, E.range)])
    (fun c s =>
      let key := normKey inst.domain (c.arg 0x18 1)
      let x := s.norm inst.domain (c.arg 0x18 1)
      let k := x.target (c.arg 0x19 1) (Config.normBank s.freshCtr)
      (({ s with norms := tset s.norms key (x.load k ⟨c.arg 0x19 1, normPairs c.payload⟩) }).fresh, leBytes 1 k, none)) true true

end Sys2Proof.Machine
end

