-- ==== Sys2Proof/Machine/PeerCmds.lean ====
section
/-! DEFINITION. Peer commands (R301, R302, R341, Table 14.16). -/

namespace Sys2Proof.Machine

/-! ### DRIFT_PEER_STATE (R302) -/

/-- PEER_DEAD of a device, in the list and on the port that its routing names. -/
def State.setDead (dev : Nat) (dead : Bool) (s : State) : State :=
  { s with
    dead := if dead then dev :: s.dead.filter (· != dev) else s.dead.filter (· != dev)
    drift := (List.range s.drift.length).map fun q =>
      let d := s.driftPort q
      if (s.routing.peers.getD q (0, false)) = (dev, true) ∨ (d.link = .active ∧ d.peer = dev) then { d with dead := dead } else d }

/-- FORGET: the replicas of a device go; their pages return to the spare pool when they have been zeroed. -/
def State.forget (dev : Nat) (s : State) : State := s.dropReplicas fun r => r.dev == dev

def execDriftPeerState (t : Nat) (inst : Inst) (s : State) : Host.Outcome State Fault Refusal :=
  s.opcode t 0x0800 inst (fun c s => firstFail [(decide (2 < c.arg 0x19 1), E.field), (c.arg 0x18 1 == s.routing.device, E.range)])
    (fun c s =>
      let dev := c.arg 0x18 1
      ((match c.arg 0x19 1 with | 0 => s.setDead dev false | 1 => s.setDead dev true | _ => s.forget dev), [], none)) true true

/-! ### SNAPSHOT_MIGRATE (R301) -/

/-- The messages of a SNAPSHOT transfer: 4,032 bytes each, then the SEAL (Table 12.14). -/
def snapMsgs (gen xfer : Nat) (n : Snapshot) (digests : List Bytes) (now : Nat) : List DriftMsg :=
  ((List.range (ceilDiv n.bytes 4032)).map fun k => (⟨7, 2, 64, 0, n.ctx, gen, [xfer, 4032 * k], [], now, none⟩ : DriftMsg)) ++
    [⟨8, 2, ceilDiv (76 + 48 * digests.length) 64, 0, n.ctx, gen, [xfer, n.handle], n.digest ++ digests.flatten, now, none⟩]

/-- Send a snapshot; the command waits for the peer's outcome (R326). -/
def State.startMigrate (c : ExecCmd) (n : Snapshot) (s : State) : State :=
  let peer := c.arg 0x1A 1
  match s.portTo peer with
  | none => s.complete c (Answer.fail E.state)
  | some q =>
    let ds := s.pinDigests n.ctx n.imagePins n.adapterPins
    let s1 := ({ s with nextXfer := s.nextXfer + 1 }).driftSend q (snapMsgs (s.ctx n.ctx).gen s.nextXfer n ds s.count)
    let s2 := s1.modInst c.inst fun x => { x with working := some ⟨c, .migrate peer s.nextXfer n.ctx, 0⟩ }
    ({ s2 with foreman := { s2.foreman with exec := none } }).pump pumpFuel

def execSnapshotMigrate (t : Nat) (inst : Inst) (s : State) : Host.Outcome State Fault Refusal :=
  done (s.live t fun s => s.command 0x0801 inst fun c s =>
    let st := (s.ctx c.ctxId).state
    let peer := c.arg 0x1A 1
    let e := firstFail
      [(s.ctxBad c c.ctxId || !(st == .opened || st == .closing), E.context),
       (peer == s.routing.device || (s.portTo peer).isNone, E.state)]
    if e ≠ 0 then s.complete c (Answer.fail e)
    else
      match s.snapshot c.ctxId (c.arg 0x20 8) with
      | none => s.complete c (Answer.fail E.handle)
      | some n =>
        if n.pages.any s.poisoned.contains then (s.deleteSnapshot n).complete c (Answer.fail E.handle) else s.startMigrate c n)

/-- The peer's outcome: OK, E_CONTEXT, E_HANDLE, E_CAPACITY, or E_TRANSFER for a transfer that came short. -/
def execSnapshotMigrateOutcome (t : Nat) (inst : Inst) (code : Nat) (s : State) : Host.Outcome State Fault Refusal :=
  done (s.live t fun s =>
    match (s.inst inst).working with
    | some ⟨_, .migrate _ _ _, _⟩ =>
      if !s.foreman.restarting ∧ [E.ok, E.context, E.handle, E.capacity, E.transfer].contains code = true then s.endWork inst (Answer.fail code) else s
    | _ => s)

/-! ### STREAM_TAKEOVER (R302) -/

def ExecCmd.takeCtx (c : ExecCmd) : Nat := c.arg 0x1C 2
def ExecCmd.tokenCount (c : ExecCmd) : Nat := c.arg 0x24 4

def takeTokens (c : ExecCmd) : List Nat := (List.range c.tokenCount).map fun k => field c.payload (4 * k) 4

def State.replicaOf (s : State) (c : ExecCmd) : Option Replica :=
  s.replicas.find? fun r => r.dev == c.arg 0x18 1 && r.stream == c.arg 0x1A 2

/-- The replica's digests are those of the local context's images and adapters in force. -/
def State.digestsMatch (s : State) (c : Nat) (r : Replica) : Bool :=
  let pins := (s.ctx c).pinsNow
  let ds := s.pinDigests c pins (s.adapterPinsNow c pins)
  ds.all r.digests.contains && r.digests.all ds.contains

def takeReq (c : ExecCmd) (r : Replica) : AdmitReq :=
  .ofFlags c.takeCtx (c.arg 0x28 1) r.vocab (c.arg 0x29 1) (c.arg 0x30 8) 0 (c.arg 0x38 4) false c.inst.domain (16 + portBit c.inst.port)
    (some c.inst)

/-- A token id outside the replica's vocabulary, or a range of an operand. -/
def State.takeRange (s : State) (c : ExecCmd) (r : Replica) : Bool :=
  let size := match tget s.vocabs r.vocab with | some v => v.entries.length | none => 0
  decide (c.arg 0x20 4 < r.pos) || decide (r.pos + c.tokenCount < c.arg 0x20 4) || size == 0 ||
    (takeTokens c).any (fun id => decide (size ≤ id)) || !deadlineOk (c.arg 0x30 8) || !maxLengthOk (c.arg 0x38 4)

def State.takeCheck (s : State) (c : ExecCmd) : Nat :=
  let n := c.tokenCount
  let x := s.ctx c.takeCtx
  firstFail
    [(s.ctxBad c c.takeCtx || x.state != .opened, E.context),
     (Slot.desc c.slot != decide (0 < n) || Slot.descLen c.slot != 4 * n || c.arg 0x29 1 % 4 != 0 || (takeTokens c).any (fun id => !tokenOk id), E.field),
     (!s.dead.contains (c.arg 0x18 1), E.state),
     (true, match s.replicaOf c with
      | none => E.handle
      | some r =>
        firstFail [(!s.digestsMatch c.takeCtx r, E.handle), (s.takeRange c r, E.range), (true, s.admitTail c.takeCtx)])]

/-- The stream stands at the replica's position with its checkpoint in its own page set. -/
def Stream.fromReplica (r : Replica) (toks : List Nat) (released : Nat) (x : Stream) : Stream :=
  let c := r.pos + toks.length
  let gen := !toks.isEmpty || r.ckpt.screen.outputCount != 0
  { x with
    slotA := some r.ckpt, validB := false, record := ((List.range toks.length).map (· + r.pos)).zip toks, log := r.log
    logCount := r.logCount, index := r.index, intakePos := c, reachedGen := gen
    e := { x.e with
      resume := if gen then .generating else .intake, ckptPos := r.pos, ckptValid := true, commitPtr := c, lengthPtr := c, rewindMark := c, holdback := c - released } }

/-- A local stream takes over from a replica, which is deleted: its id. -/
def State.takeOver (c : ExecCmd) (r : Replica) (s : State) : State × Nat :=
  let a := s.admitStream (takeReq c r)
  let sid := a.2.1
  let toks := takeTokens c
  let s1 := a.1.modStream sid (Stream.fromReplica r toks (c.arg 0x20 4))
  let s2 := s1.restoreFrom sid r.ckpt ((((List.range toks.length).map (· + r.pos)).zip toks))
  (s2.dropReplicas fun q => q == r, sid)

def execStreamTakeover (t : Nat) (inst : Inst) (s : State) : Host.Outcome State Fault Refusal :=
  s.opcode t 0x0802 inst (fun c s => s.takeCheck c)
    (fun c s =>
      match s.replicaOf c with
      | none => (s, [], none)
      | some r =>
        let a := s.takeOver c r
        (a.1, leBytes 4 a.2 ++ leBytes 4 r.pos ++ leBytes 4 (r.pos + c.tokenCount), none)) false true

end Sys2Proof.Machine
end

