-- ==== Sys2Proof/Machine/Units.lean ====
section
/-! DEFINITION. Unit failures and their remap, stack-port failure, the ledger check at a quiesce, scrubbing (R33, R143, R164,
R225, R255 to R257, R268, R356 to R359). -/

namespace Sys2Proof.Machine

/-! ### Fence (R356 to R358) -/

/-- Work of a failed Hearth: its chain's slices and its context's running pass run again. -/
def State.fenceHearth (n : Nat) (s : State) : State :=
  let lost := s.chains.filter fun c => c.engines.contains n
  let s1 := { s with
    chains := s.chains.filter fun c => !c.engines.contains n
    passes := s.passes.map fun (p : PassPos) =>
      if p.flue.isNone && (s.ctx p.ctx).gateEngines.contains n then { p with running := false } else p }
  lost.foldl (fun (s : State) c => c.slices.foldl (fun (s : State) q =>
    s.modChunk q.1 fun b => { b with slices := b.slices.modify q.2 fun l => { l with packed := false } }) s) s1

/-- Work of a failed Flue: its pass runs again elsewhere, and the TAPs staged on it are lost. -/
def State.fenceFlue (n : Nat) (s : State) : State :=
  { s with
    passes := s.passes.map fun (p : PassPos) => if p.flue = some n then { p with running := false } else p
    streams := s.streams.map fun (p : Nat × Stream) => if p.2.home = some n then (p.1, { p.2 with taps := [] }) else p }

/-- Decisions on a failed pipeline: items begun and not committed run again from their candidate buffers (R225, R358). -/
def State.fenceDamper (n : Nat) (s : State) : State :=
  let before : State := { s with failed := s.failed.filter (· != UnitId.damper n) }
  let on := fun (it : Item) => (s.stream it.stream).any fun x => x.e.hotSlot.any fun h => before.pipeline h == n
  ((s.items.filter fun p => p.2.live && !p.2.answered && on p.2 && p.2.cand?.any fun b => b.begun && !b.committed).map (·.1)).foldl
    (fun (s : State) k => s.rerun k) s

def State.fence (u : UnitId) (s : State) : State :=
  match u with
  | .hearth n => s.fenceHearth n
  | .flue n => s.fenceFlue n
  | .damper n => s.fenceDamper n
  | _ => s

/-- A unit is declared failed: fenced, reported, recorded; the last of its kind, the Detokeniser or the arbiter is a device
fault. The Prospector's failure leaves proposals empty and nothing to remap. -/
def State.failUnit (u : UnitId) (s : State) : State :=
  if s.failed.contains u then s
  else if u = .detokeniser ∨ u = .arbiter then
    (({ s with failed := s.failed ++ [u] }).report Rep.unitFailed (unitCode u)).deviceFault FaultCause.unitCore
  else
    let s1 := { s with failed := s.failed ++ [u], remapping := if u = UnitId.prospector then s.remapping else s.remapping ++ [u] }
    let s2 := (s1.report Rep.unitFailed (unitCode u)).ashpitRecord 1 []
    if lastFailed s2.failed then s2.deviceFault FaultCause.lastUnit
    else
      (s2.fence u).reportShort s.anyShort

def execUnitInternalError (t : Nat) (unit : UnitId) (s : State) : Host.Outcome State Fault Refusal := done (s.run t (·.failUnit unit))
def execHeartbeatMiss (t : Nat) (unit : UnitId) (s : State) : Host.Outcome State Fault Refusal := done (s.run t (·.failUnit unit))

/-! ### Remap (R143, R164, R358) -/

/-- Gate engines that have failed are replaced from the pool. -/
def State.regate (n : Nat) (s : State) : State :=
  ((s.reserving.filter fun p => p.2.gateEngines.contains n).map (·.1)).foldl (fun (s : State) c => s.placeGates c) s

/-- Probe states at a checkpoint's values: probes give nothing for the positions that are replayed. -/
def State.rewindProbes (x : Stream) (s : State) : Stream :=
  let k := x.validCkpt.getD x.base
  let probes := (s.ctx x.e.ctx).probeModels x.e.imagePins
  { x with screen := { x.screen with models := probes.foldl (fun (t : Tbl ModelState) m =>
      match tget k.screen.models m.modelId with | some w => tset t m.modelId w | none => tdel t m.modelId) x.screen.models } }

/-- Streams of a failed Flue and their pending positions move to their next homes, one stream after another. -/
def State.rehome (n : Nat) (s : State) : State :=
  let s0 := ((s.streams.filter fun p => p.2.home == some n).map (·.1)).foldl
    (fun (s : State) sid => s.modStream sid fun x => { s.rewindProbes x with home := s.chooseHome x.e.ctx }) s.rehomeFlues
  let s1 := { s0 with
    passes := s.passes.map fun (p : PassPos) =>
      if p.flue = some n then { p with flue := (s0.stream p.stream).bind s0.homeFlue } else p }
  ((List.range 16).foldl (fun (s : State) f => s.startFlue f 0) s1)

def State.remapped (u : UnitId) (s : State) : State :=
  match u with
  | .hearth n => s.regate n
  | .flue n => s.rehome n
  | .grate n => s.rehomeGrate n
  | _ => s

/-- Contexts with an install of some kinds, or an adapter version where `ads`, in a poisoned page: a reload from the stacks meets it
(Table 11.3). -/
def State.badImages (s : State) (kinds : List Nat) (ads : Bool) : List Nat :=
  let bad := fun (ps : List Nat) => ps.any s.poisoned.contains
  ((s.ctxs.filter fun p => (p.2.installs.any fun r => kinds.contains r.kind && bad r.install.pages) ||
    (ads && s.adapters.any fun a => a.2.ctx == p.1 && a.2.gen == p.2.gen && a.2.versions.any fun v => bad v.pages)).filter fun p =>
      p.2.state == .opened || p.2.state == .closing).map (·.1)

/-- What is reloaded on the remaining units when a unit is remapped: tables, or tiles and pages of models and adapters. -/
def State.reload (u : UnitId) (s : State) : State :=
  let cs := match u with
    | .hearth _ => s.badImages [2, 3] true
    | .flue _ => s.badImages [2, 3] true
    | .grate _ => s.badImages [0] false
    | .damper _ => s.badImages [5] false
    | _ => []
  cs.foldl (fun (s : State) c => s.imageError c) s

def execRemapComplete (t : Nat) (unit : UnitId) (s : State) : Host.Outcome State Fault Refusal :=
  done (s.run t fun s =>
    if s.remapping.contains unit then ((({ s with remapping := s.remapping.filter (· != unit) }).remapped unit).reload unit).progressEvery else s)

/-! ### Stack ports (R359) -/

/-- The port of a stack fails: whichever it is, every page has half of its lines there (`stackOf`), and no region is spared (R249, R359). -/
def execStackPortFailure (t _stack : Nat) (s : State) : Host.Outcome State Fault Refusal :=
  done (s.live t fun s =>
    if s.boot.phase = .done ∧ s.mode ≠ .banked then s.deviceFault FaultCause.stackPort else s)

/-! ### The ledgers at a quiesce (R267, R268) -/

/-- The device is at quiesce: no context but 0, every engine queue empty. -/
def State.quiesced (s : State) : Bool := s.noContexts && s.items.isEmpty && s.chains.isEmpty && s.passes.isEmpty

/-- A domain is at quiesce: no context of it is OPEN, CLOSING or QUARANTINED (Table 11.6; DEDUCED, the rule defines the device's quiesce
alone, log 106). -/
def State.domainQuiet (s : State) (d : Nat) : Bool := !(s.ctxs.any fun p => p.1 != 0 && p.2.state != .free && p.2.domain == d)

/-- The quiesce of domain `d` has lasted 1 ms. -/
def State.longQuiet (s : State) (d : Nat) : Bool := decide (s.quietAt.getD d 0 + 100000 ≤ s.count)

/-- A ledger that must balance at a quiesce and has not done so within 1 ms, as quantity and scope (Tables 11.6, 11.7): a domain's Shaft
credits at the domain's quiesce, every other at the device's. -/
def State.unbalanced (s : State) : Option (Nat × Nat) :=
  let shaft := ((List.range 4).filter fun d => s.domainQuiet d && s.longQuiet d).flatMap fun d =>
    (List.range 8).map fun vc => (0, d + 4 * vc, (s.shaftLedger d vc).balanced)
  let rest := if s.quiesced && (List.range 4).all s.longQuiet then
      ((List.range 3).flatMap fun q => (List.range 3).map fun c => (1, q + 4 * (c + 1), (s.drift.getD q DriftPort.init).credits.getD c 64 == 64)) ++
        ((List.range 113).map fun k => (2, k, (s.seamLedger k).balanced)) ++ (List.range 8).map fun r => (3, r, (s.stackLedger r).balanced)
    else []
  ((shaft ++ rest).find? fun p => !p.2.2).map fun p => (p.1, p.2.1)

/-- A ledger unbalanced for 1 ms at a quiesce sets LEDGER_FAULT. -/
def execLedgerQuiesceTimeout (t : Nat) (s : State) : Host.Outcome State Fault Refusal :=
  done (s.run t fun s =>
    match s.unbalanced with
    | none => s
    | some p =>
      if s.ledgerFault then s
      else (({ s with ledgerFault := true }).report Rep.ledgerFault [p.1, p.2]).ashpitRecord 4 [])

/-! ### Scrubbing (R255, R257) -/

/-- One pass over both stacks, which DORMANT is left for (R375): errors corrected, pages poisoned; an owner meets a poisoned page at its
next access. -/
def execScrub (t corrected : Nat) (bad : List Nat) (s : State) : Host.Outcome State Fault Refusal :=
  done (s.run t fun s => bad.foldl (fun (s : State) p => s.poison p) (s.active.devCount Cnt.eccCorrected corrected))

end Sys2Proof.Machine
end

