-- ==== Sys2Proof/Machine/Recover.lean ====
section
/-! DEFINITION. Device recovery (R112, R250, R256, R268, R322, R360 to R362, R409, Tables 15.6 and 15.7). -/

namespace Sys2Proof.Machine

/-! ### The Foreman start (R250) -/

/-- Regions whose place or size changes. -/
def State.movedRegions (s : State) : List Nat := (List.range 8).filter fun r => regionSpan s.layout r != regionSpan s.layoutRec r

/-- Contexts whose installs lie in zeroed regions. -/
def State.lostInstalls (s : State) (rs : List Nat) : List Nat :=
  (s.ctxs.filter fun p => p.2.installs.any fun i => rs.contains (kindRegion i.kind)).map (·.1)

/-- A zeroed region holds nothing. -/
def State.zeroRegion (s : State) (r : Nat) : State :=
  match r with
  | 0 => { s with store := { s.store with buckets := [], lost := [], touched := [], nb := bucketsOf (s.layout.getD 0 0) } }
  | 1 => { s with snapshots := [] }
  | 2 => { s with
      replicas := []
      streams := s.streams.map fun (p : Nat × Stream) => (p.1, { p.2 with slotA := none, slotB := none, e := { p.2.e with ckptValid := false } }) }
  | 4 => { s with adapters := s.adapters.map (fun (p : Nat × AdapterSlot) => (p.1, { p.2 with versions := [], past := [] })), vocabs := [] }
  | 6 => { s with ashpit := [], ashpitHead := 0 }
  | 7 => { s with mem := [] }
  | _ => s

/-- The layout record takes effect, or is refused and reported; the contexts that lose an install. -/
def State.applyLayout (s : State) : State × List Nat :=
  if !layoutOk s.layoutRec then (s.report Rep.refused ((s.layoutRec.flatMap (leBytes 4)).map BitVec.toNat), [])
  else
    let rs := s.movedRegions
    (rs.foldl State.zeroRegion { s with layout := s.layoutRec }, s.lostInstalls rs)

/-! ### Units, ledgers, the store -/

/-- The unit test's outcome is reported (R356). -/
def State.unitTest (failed : List UnitId) (s : State) : State :=
  let back := s.failed.filter fun u => !failed.contains u
  let gone := failed.filter fun u => !s.failed.contains u
  let s1 := back.foldl (fun (s : State) u => s.report Rep.unitRestored (unitCode u)) { s with failed := failed, remapping := [] }
  gone.foldl (fun (s : State) u => s.report Rep.unitFailed (unitCode u)) s1

/-- The Ashpit cause of a device fault (Table 14.14). -/
def ashpitCause (cause : Nat) : Nat :=
  if cause = FaultCause.thermal then 3
  else if cause = FaultCause.unitCore ∨ cause = FaultCause.lastUnit ∨ cause = FaultCause.foreman then 1
  else if cause = FaultCause.sharedSeam then 2
  else (Config.ashpitCause cause).val

/-- Ledgers are rebuilt: no orphans, no pages in zeroing, no wait list; context 0's Tallies are 0 (R268, Table 15.7). -/
def State.rebuildLedgers (s : State) : State :=
  { s with
    ledgerFault := false, zeroing := [], seamZero := [], seamPoison := [], quietAt := List.replicate 4 s.count, xfers := []
    ctxs := s.ctxs.map fun (p : Nat × Ctx) => (p.1, { p.2 with orphans := 0 })
    snapshots := s.snapshots.map fun (n : Snapshot) => { n with readers := 0 }
    tallies := s.tallies.map fun (p : Nat × Tally) => (p.1, { p.2 with count := if p.1 < 64 then 0 else p.2.count, waiters := [] }) }

/-- An open epoch is aborted, an unfinished sweep completed (R112); a peer's epoch that had not committed is lost. -/
def State.settleStore (s : State) : State :=
  let s1 := match s.store.epoch with
    | .opened => s.storeSettle false
    | .sweeping => s.sweepDone
    | .idle => s
  let lost := s.store.forwarded
  lost.foldl (fun (s : State) f => s.report Rep.fpReplica [0, 0, f.epoch]) { s1 with store := { s1.store with forwarded := [] } }

/-! ### Rings and commands (R322) -/

def Queue.restart (q : Queue) : Queue := { q with wr := 0, rd := 0, flush := false }

/-- Rings restart empty, staging buffers are lost, RECOVERED is set; event queues keep their entries. -/
def State.restartRings (s : State) : State :=
  { s with insts := s.insts.map fun (x : InstState) =>
      { x with cmdQ := x.cmdQ.restart, cplQ := x.cplQ.restart, staging := [[], [], [], []], stagePages := [[], [], [], []], recovered := true } }

/-! ### Streams (R361, R362) -/

/-- A stream closes with close reason FAULT. -/
def State.closeFault (sid : Nat) (s : State) : State :=
  ((s.modStream sid (Stream.closeWith s.count 10)).modEntry sid fun e => { e with state := .closed }).freeStream sid

/-- An entry that is FAULTED is restored or closed. -/
def State.recoverStream (s1 : State) (sid : Nat) : State :=
  let s := (s1.meetPages sid (12 :: ((s1.stream sid).map fun x => slotPages x.validB).getD [])).getD s1
  match s.stream sid with
  | none => s
  | some x =>
    match x.validCkpt with
    | some k => if s.mayResume x then s.restoreFrom sid k x.replayed else s.closeFault sid
    | none => s.closeFault sid

/-- Teardown in progress is completed. -/
def State.finishTeardown (s : State) : State :=
  (s.ctxs.map (·.1)).foldl (fun (s : State) c => (s.tryQuarantine c).tryFree c) s

/-! ### The end of recovery -/

/-- Everything between the unit test and NORMAL: every entry that is not FREE is FAULTED with E_INTERNAL, a context whose
image is lost is reset, then streams are restored or closed. -/
def State.rebuild (cause : Nat) (failed : List UnitId) (bad : List (Nat × Nat × Nat)) (s : State) : State :=
  let old := s.failed
  let s1 := s.unitTest failed
  let l := s1.applyLayout
  let s2 := ((l.1.ashpitRecord (ashpitCause cause) []).rebuildLedgers).settleStore
  let s3 := { s2.restartRings with foreman := { s2.foreman with restarting := false } }.abandonCommands true
  let s4 := State.retryRetire { s3 with mode := .normal, power := .run, recovery := none, lastActivity := s3.count
                                        recoveries := (s3.recoveries + 1) % 2 ^ 32, replicaEpoch := (s3.replicaEpoch + 1) % 2 ^ 32
                                        pins := { s3.pins with faultN := false } }
  let s5 := (s4.reserving.map (·.1)).foldl (fun (s : State) c => s.placeGates c) s4
  let sids := s5.streams.map (·.1)
  let s6 := sids.foldl (fun (s : State) sid => s.fault sid E.internal 0) s5
  let s7 := (l.2 ++ bad.map (·.1) ++ s6.badImages [0, 1, 2, 3, 4, 5] true).eraseDups.foldl (fun (s : State) c => s.faultReset c 0) s6
  let s8 := (sids.foldl State.recoverStream s7).finishTeardown.keepRows
  let back := old.filter fun u => !failed.contains u
  (s8.reportShort s.anyShort).report Rep.recovered
    ([s8.recoveries, back.length] ++ back.flatMap unitCode ++ failed.length :: failed.flatMap unitCode)

/-- Recovery ends (Table 15.6): unless the temperature or BLK_WARM_N holds it, or it fails and starts again. A recovery
before the first NORMAL gives way to the power-on boot. -/
def execRecoveryComplete (t : Nat) (stacksOk : Bool) (failed : List UnitId) (badInstalls : List (Nat × Nat × Nat)) (s : State) :
    Host.Outcome State Fault Refusal :=
  done (s.live t fun s =>
    match s.recovery with
    | none => s
    | some r =>
      if s.pins.thermTripN ∨ s.pins.warmN then s
      else if s.boot.phase ≠ .done then { s with recovery := none, pins := { s.pins with faultN := false } }
      else if !stacksOk then s.deviceFault FaultCause.stackPort
      else if lastFailed failed then s.deviceFault FaultCause.lastUnit
      else
        let b := s.foremanStart
        if !b.2 then (b.1.abandonCommands true).enterBanked E.imageSig
        else ((b.1.rebuild r.cause failed badInstalls).progressEvery).pump pumpFuel)

end Sys2Proof.Machine
end

