-- ==== Sys2Proof/Machine/StreamCmds.lean ====
section
/-! DEFINITION. Stream and prefix commands (R36, R37, R39, R41, R215, R324, R331, R332, Tables 2.3, 14.6, 14.7). -/

namespace Sys2Proof.Machine

/-! ### The STREAM_ID operand (R324) -/

def ExecCmd.streamId (c : ExecCmd) : Nat := c.arg 0x18 2

/-- A FREE entry, another domain's, or another stream under a reused id. -/
def State.streamCheck (s : State) (c : ExecCmd) : Nat :=
  match s.stream c.streamId with
  | none => E.state
  | some x =>
    firstFail
      [(x.e.state == .free, E.state), (x.e.domain != c.inst.domain, E.context),
       (c.arg 0x20 8 != 0 && c.arg 0x20 8 != x.e.admitStamp, E.state)]

/-- The entry that a stream command names. -/
def State.cmdEntry (s : State) (c : ExecCmd) : Entry :=
  match s.stream c.streamId with
  | some x => x.e
  | none => Entry.admitted (AdmitReq.ofPacket 0 0 []) 0 [] [] none false false

/-! ### STREAM_CLOSE, STREAM_HOLD, STREAM_RESUME (R41) -/

def execStreamClose (t : Nat) (inst : Inst) (s : State) : Host.Outcome State Fault Refusal :=
  s.opcode t 0x0201 inst (fun c s => firstFail [(true, s.streamCheck c), (!(s.cmdEntry c).state.live, E.state)])
    (fun c s =>
      let sid := c.streamId
      ((((s.endRun sid (s.count + s.streamSetting sid Setting.dG) 12 none).drain sid 12).progress sid), [], none)) false true

def execStreamHold (t : Nat) (inst : Inst) (s : State) : Host.Outcome State Fault Refusal :=
  s.opcode t 0x0202 inst (fun c s =>
      let st := (s.cmdEntry c).state
      firstFail [(true, s.streamCheck c), (!(st == .intake || st == .generating), E.state)])
    (fun c s => (s.modEntry c.streamId (·.hold false true false), [], none)) false true

def execStreamResume (t : Nat) (inst : Inst) (s : State) : Host.Outcome State Fault Refusal :=
  s.opcode t 0x0203 inst (fun c s => firstFail [(true, s.streamCheck c), (!(s.cmdEntry c).host, E.state)])
    (fun c s => (((s.modEntry c.streamId (·.unhold false true false)).progress c.streamId), [], none)) false true

/-! ### STREAM_SET (R36) -/

/-- SET_MASK names nothing, or a field whose bit is clear is not zero. -/
def streamSetBad (c : ExecCmd) : Bool :=
  let m := c.arg 0x28 1
  let ctrl := c.arg 0x2A 1
  m == 0 || (!bit m 0 && c.arg 0x29 1 != 0) || (!bit m 1 && c.arg 0x30 8 != 0) || (!bit m 2 && c.arg 0x2C 4 != 0) ||
    (!bit m 3 && bit ctrl 0) || (!bit m 4 && bit ctrl 1)

def streamSetRange (c : ExecCmd) : Bool :=
  let m := c.arg 0x28 1
  (bit m 1 && !deadlineOk (c.arg 0x30 8)) || (bit m 2 && !maxLengthOk (c.arg 0x2C 4))

/-- The new control-owned fields; items already stamped keep their copy (R17). -/
def Entry.set (c : ExecCmd) (e : Entry) : Entry :=
  let m := c.arg 0x28 1
  { e with
    priority := if bit m 0 then c.arg 0x29 1 else e.priority, deadline := if bit m 1 then c.arg 0x30 8 else e.deadline
    maxLength := if bit m 2 then c.arg 0x2C 4 else e.maxLength, follow := if bit m 3 then bit (c.arg 0x2A 1) 0 else e.follow
    draftEn := if bit m 4 then bit (c.arg 0x2A 1) 1 else e.draftEn }

def execStreamSet (t : Nat) (inst : Inst) (s : State) : Host.Outcome State Fault Refusal :=
  s.opcode t 0x0204 inst (fun c s =>
      firstFail [(true, s.streamCheck c), (streamSetBad c, E.field), (streamSetRange c, E.range), (!(s.cmdEntry c).state.live, E.state)])
    (fun c s => (s.modEntry c.streamId (·.set c), [], none)) false true

/-! ### STREAM_QUERY (Table 2.3) -/

def Entry.causes (e : Entry) : Nat := b2n e.late + 2 * b2n e.host + 4 * b2n e.replay

def Entry.dataFlags (e : Entry) : Nat :=
  b2n e.hotSlot.isSome + 2 * b2n e.lateSeen + 4 * b2n e.handleRefused + 8 * b2n e.ckptValid + 16 * b2n e.restoring

/-- Adapter pins, four with unused ones 0xFFFF. -/
def adapterPinBytes (l : List (Nat × Nat)) : Bytes :=
  (List.range 4).flatMap fun k => match l[k]? with | some p => leBytes 2 p.1 ++ leBytes 2 p.2 | none => leBytes 2 0xFFFF ++ leBytes 2 0

/-- Page numbers of the page set, unused ones 0xFFFF_FFFF. -/
def pageBytes (l : List Nat) : Bytes := (List.range 16).flatMap fun k => leBytes 4 (l.getD k 0xFFFFFFFF)

def State.entryBytes (s : State) (sid : Nat) (e : Entry) : Bytes :=
  leBytes 1 (e.state.code + 16 * e.resume.code) ++ leBytes 1 e.priority ++ leBytes 2 e.ctx ++ leBytes 1 e.vocab ++
    leBytes 1 (b2n e.follow + 2 * b2n e.draftEn) ++ leBytes 2 (e.source + 256 * e.domain + 4096 * e.prefixMode) ++ leBytes 8 e.admitStamp ++
    leBytes 8 e.deadline ++ leBytes 8 e.handle ++ leBytes 4 e.maxLength ++ leBytes 1 e.causes ++ leBytes 3 0 ++ leBytes 4 e.lengthPtr ++
    leBytes 4 e.commitPtr ++ leBytes 4 e.rewindMark ++ leBytes 4 e.ckptPos ++ leBytes 8 e.lastStamp ++
    ((List.range 6).flatMap fun k => leBytes 4 (e.imagePins.getD k 0)) ++ adapterPinBytes e.adapterPins ++ pageBytes (s.pageSet sid) ++
    leBytes 2 (e.hotSlot.getD 0xFFFF) ++ leBytes 1 e.holdback ++ leBytes 1 e.dataFlags ++ leBytes 1 e.closeReason ++
    leBytes 1 (e.verdict + 128 * b2n e.verdictLate) ++ List.replicate 82 0

def execStreamQuery (t : Nat) (inst : Inst) (s : State) : Host.Outcome State Fault Refusal :=
  s.opcode t 0x0205 inst (fun c s => s.streamCheck c)
    (fun c s => (s, [], some (s.entryBytes c.streamId (s.cmdEntry c)))) false false

/-! ### PREFIX_DROP (R332) -/

def execPrefixDrop (t : Nat) (inst : Inst) (s : State) : Host.Outcome State Fault Refusal :=
  s.opcode t 0x0206 inst (fun c s =>
      let st := (s.ctx c.ctxId).state
      firstFail [(s.ctxBad c c.ctxId || !(st == .opened || st == .closing), E.context), ((s.snapshot c.ctxId (c.arg 0x20 8)).isNone, E.handle)])
    (fun c s => ((match s.snapshot c.ctxId (c.arg 0x20 8) with | some n => s.deleteSnapshot n | none => s), [], none)) false true

end Sys2Proof.Machine
end

