-- ==== Sys2Proof/Machine/Dispatch.lean ====
section
/-! DEFINITION. One arm per command: a direct call of its meaning. -/

namespace Sys2Proof.Machine

def exec (i : Instr) (s : State) : Host.Outcome State Fault Refusal :=
  match i with
  | .admitPacket t port pkt => Sys2Proof.Machine.execAdmit t port pkt s
  | .chunk t port pkt => Sys2Proof.Machine.execChunk t port pkt s
  | .tap t port pkt => Sys2Proof.Machine.execTap t port pkt s
  | .candidates t port pkt => Sys2Proof.Machine.execCandidates t port pkt s
  | .credit t port pkt => Sys2Proof.Machine.execCredit t port pkt s
  | .idle t port pkt => Sys2Proof.Machine.execIdle t port pkt s
  | .read t port pkt => Sys2Proof.Machine.execRead t port pkt s
  | .write t port pkt => Sys2Proof.Machine.execWrite t port pkt s
  | .completion t port pkt => Sys2Proof.Machine.execCompletion t port pkt s
  | .bulkReadTimeout t dom tag => Sys2Proof.Machine.execBulkReadTimeout t dom tag s
  | .chunkReleaseTime t item => Sys2Proof.Machine.execChunkReleaseTime t item s
  | .candidatesReleaseTime t item => Sys2Proof.Machine.execCandidatesReleaseTime t item s
  | .runEnd t stream => Sys2Proof.Machine.execRunEnd t stream s
  | .intakeTaskComplete t item set fetches err => Sys2Proof.Machine.execIntakeTaskComplete t item set fetches err s
  | .lookupReturn t item idx err1 err2 => Sys2Proof.Machine.execLookupReturn t item idx err1 err2 s
  | .lookaheadTaskComplete t item pos token set err => Sys2Proof.Machine.execLookaheadTaskComplete t item pos token set err s
  | .decideStage t item => Sys2Proof.Machine.execDecideStage t item s
  | .commitStep t item errs => Sys2Proof.Machine.execCommitStep t item errs s
  | .gateEvaluation t item err => Sys2Proof.Machine.execGateEvaluation t item err s
  | .resolverScore t item model idx => Sys2Proof.Machine.execResolverScore t item model idx s
  | .firing t errs => Sys2Proof.Machine.execFiring t errs s
  | .gatePassTick t ctx => Sys2Proof.Machine.execGatePassTick t ctx s
  | .fluePassEnd t flue ctx model err => Sys2Proof.Machine.execFluePassEnd t flue ctx model err s
  | .tapSkewDeadline t item pos => Sys2Proof.Machine.execTapSkewDeadline t item pos s
  | .proposalCutoff t item completed => Sys2Proof.Machine.execProposalCutoff t item completed s
  | .requestEvaluationComplete t stream err => Sys2Proof.Machine.execRequestEvaluationComplete t stream err s
  | .checkpointWriteComplete t stream => Sys2Proof.Machine.execCheckpointWriteComplete t stream s
  | .snapshotWriteComplete t stream err => Sys2Proof.Machine.execSnapshotWriteComplete t stream err s
  | .snapshotRestoreComplete t stream err => Sys2Proof.Machine.execSnapshotRestoreComplete t stream err s
  | .warmIn t stream => Sys2Proof.Machine.execWarmIn t stream s
  | .coolTime t stream => Sys2Proof.Machine.execCoolTime t stream s
  | .streamClosed t stream => Sys2Proof.Machine.execStreamClosed t stream s
  | .streamRestoreComplete t stream => Sys2Proof.Machine.execStreamRestoreComplete t stream s
  | .transferAbsorbed t xfer => Sys2Proof.Machine.execTransferAbsorbed t xfer s
  | .zeroingComplete t page => Sys2Proof.Machine.execZeroingComplete t page s
  | .imageLoadComplete t inst => Sys2Proof.Machine.execImageLoadComplete t inst s
  | .fpSweepComplete t => Sys2Proof.Machine.execFpSweepComplete t s
  | .deviceQuery t inst => Sys2Proof.Machine.execDeviceQuery t inst s
  | .layoutSet t inst => Sys2Proof.Machine.execLayoutSet t inst s
  | .contextCreate t inst => Sys2Proof.Machine.execContextCreate t inst s
  | .contextClose t inst => Sys2Proof.Machine.execContextClose t inst s
  | .contextReset t inst => Sys2Proof.Machine.execContextReset t inst s
  | .contextSet t inst => Sys2Proof.Machine.execContextSet t inst s
  | .contextQuery t inst => Sys2Proof.Machine.execContextQuery t inst s
  | .capacitySet t inst => Sys2Proof.Machine.execCapacitySet t inst s
  | .streamAdmit t inst => Sys2Proof.Machine.execStreamAdmit t inst s
  | .streamClose t inst => Sys2Proof.Machine.execStreamClose t inst s
  | .streamHold t inst => Sys2Proof.Machine.execStreamHold t inst s
  | .streamResume t inst => Sys2Proof.Machine.execStreamResume t inst s
  | .streamSet t inst => Sys2Proof.Machine.execStreamSet t inst s
  | .streamQuery t inst => Sys2Proof.Machine.execStreamQuery t inst s
  | .prefixDrop t inst => Sys2Proof.Machine.execPrefixDrop t inst s
  | .imageStage t inst => Sys2Proof.Machine.execImageStage t inst s
  | .imageInstall t inst => Sys2Proof.Machine.execImageInstall t inst s
  | .imageQuery t inst => Sys2Proof.Machine.execImageQuery t inst s
  | .vocabLoad t inst => Sys2Proof.Machine.execVocabLoad t inst s
  | .adapterSlotAlloc t inst => Sys2Proof.Machine.execAdapterSlotAlloc t inst s
  | .adapterSlotFree t inst => Sys2Proof.Machine.execAdapterSlotFree t inst s
  | .adapterPublish t inst => Sys2Proof.Machine.execAdapterPublish t inst s
  | .adapterWithdraw t inst => Sys2Proof.Machine.execAdapterWithdraw t inst s
  | .tapNormLoad t inst => Sys2Proof.Machine.execTapNormLoad t inst s
  | .fpSetDefine t inst => Sys2Proof.Machine.execFpSetDefine t inst s
  | .fpEpochOpen t inst => Sys2Proof.Machine.execFpEpochOpen t inst s
  | .fpUpdate t inst => Sys2Proof.Machine.execFpUpdate t inst s
  | .fpEpochCommit t inst => Sys2Proof.Machine.execFpEpochCommit t inst s
  | .fpEpochAbort t inst => Sys2Proof.Machine.execFpEpochAbort t inst s
  | .fpQuery t inst => Sys2Proof.Machine.execFpQuery t inst s
  | .tallyAlloc t inst => Sys2Proof.Machine.execTallyAlloc t inst s
  | .tallyFree t inst => Sys2Proof.Machine.execTallyFree t inst s
  | .tallySet t inst => Sys2Proof.Machine.execTallySet t inst s
  | .tallyRead t inst => Sys2Proof.Machine.execTallyRead t inst s
  | .canarySet t inst => Sys2Proof.Machine.execCanarySet t inst s
  | .faultQuery t inst => Sys2Proof.Machine.execFaultQuery t inst s
  | .ashpitRead t inst => Sys2Proof.Machine.execAshpitRead t inst s
  | .counterRead t inst => Sys2Proof.Machine.execCounterRead t inst s
  | .telemetryRead t inst => Sys2Proof.Machine.execTelemetryRead t inst s
  | .driftPeerState t inst => Sys2Proof.Machine.execDriftPeerState t inst s
  | .snapshotMigrate t inst => Sys2Proof.Machine.execSnapshotMigrate t inst s
  | .snapshotMigrateOutcome t inst code => Sys2Proof.Machine.execSnapshotMigrateOutcome t inst code s
  | .streamTakeover t inst => Sys2Proof.Machine.execStreamTakeover t inst s
  | .cmdTail t port ctl value => Sys2Proof.Machine.execCmdTail t port ctl value s
  | .cplHead t port ctl value => Sys2Proof.Machine.execCplHead t port ctl value s
  | .evtHead t port ctl value => Sys2Proof.Machine.execEvtHead t port ctl value s
  | .flush t port ctl queue => Sys2Proof.Machine.execFlush t port ctl queue s
  | .flushDiscard t inst queue => Sys2Proof.Machine.execFlushDiscard t inst queue s
  | .acquire t port ctl owner => Sys2Proof.Machine.execAcquire t port ctl owner s
  | .release t port ctl owner => Sys2Proof.Machine.execRelease t port ctl owner s
  | .breakLamp t port ctl owner => Sys2Proof.Machine.execBreakLamp t port ctl owner s
  | .lampExpiry t => Sys2Proof.Machine.execLampExpiry t s
  | .ledgerTotalRead t port ctl => Sys2Proof.Machine.execLedgerTotalRead t port ctl s
  | .lowWordRead t port ctl off => Sys2Proof.Machine.execLowWordRead t port ctl off s
  | .registerWrite t port ctl off value => Sys2Proof.Machine.execRegisterWrite t port ctl off value s
  | .signal t foreman req ctx tally n => Sys2Proof.Machine.execSignal t foreman req ctx tally n s
  | .consume t foreman req ctx tally n => Sys2Proof.Machine.execConsume t foreman req ctx tally n s
  | .canaryEvaluation t edges work => Sys2Proof.Machine.execCanaryEvaluation t edges work s
  | .ashpitCaptureComplete t record bytes => Sys2Proof.Machine.execAshpitCaptureComplete t record bytes s
  | .suspectResetComplete t hang => Sys2Proof.Machine.execSuspectResetComplete t hang s
  | .replayPass t hang => Sys2Proof.Machine.execReplayPass t hang s
  | .replayTimeout t hang => Sys2Proof.Machine.execReplayTimeout t hang s
  | .foremanFailure t => Sys2Proof.Machine.execForemanFailure t s
  | .foremanRestartComplete t ok => Sys2Proof.Machine.execForemanRestartComplete t ok s
  | .unitInternalError t unit => Sys2Proof.Machine.execUnitInternalError t unit s
  | .heartbeatMiss t unit => Sys2Proof.Machine.execHeartbeatMiss t unit s
  | .remapComplete t unit => Sys2Proof.Machine.execRemapComplete t unit s
  | .recoveryComplete t stacksOk failed badInstalls => Sys2Proof.Machine.execRecoveryComplete t stacksOk failed badInstalls s
  | .ledgerQuiesceTimeout t => Sys2Proof.Machine.execLedgerQuiesceTimeout t s
  | .scrub t corrected bad => Sys2Proof.Machine.execScrub t corrected bad s
  | .dormantEntry t => Sys2Proof.Machine.execDormantEntry t s
  | .rowPowerGate t row => Sys2Proof.Machine.execRowPowerGate t row s
  | .rowWakeComplete t row => Sys2Proof.Machine.execRowWakeComplete t row s
  | .vidStep t => Sys2Proof.Machine.execVidStep t s
  | .sensorSample t sites => Sys2Proof.Machine.execSensorSample t sites s
  | .thermalRelease t => Sys2Proof.Machine.execThermalRelease t s
  | .blkPorstAssert t => Sys2Proof.Machine.execBlkPorstAssert t s
  | .blkPorstRelease t => Sys2Proof.Machine.execBlkPorstRelease t s
  | .deviceCountStart t => Sys2Proof.Machine.execDeviceCountStart t s
  | .blkWarmAssert t => Sys2Proof.Machine.execBlkWarmAssert t s
  | .blkWarmRelease t => Sys2Proof.Machine.execBlkWarmRelease t s
  | .pilotRefclkLoss t => Sys2Proof.Machine.execPilotRefclkLoss t s
  | .driftRefclkLoss t => Sys2Proof.Machine.execDriftRefclkLoss t s
  | .bootComplete t zqOk capacityOk failed => Sys2Proof.Machine.execBootComplete t zqOk capacityOk failed s
  | .shaftTrainingStart t port => Sys2Proof.Machine.execShaftTrainingStart t port s
  | .shaftTrainingComplete t port out => Sys2Proof.Machine.execShaftTrainingComplete t port out s
  | .shaftRetrain t port => Sys2Proof.Machine.execShaftRetrain t port s
  | .shaftRetrainComplete t port out => Sys2Proof.Machine.execShaftRetrainComplete t port out s
  | .shaftLinkFailure t port partFlits partVc => Sys2Proof.Machine.execShaftLinkFailure t port partFlits partVc s
  | .idleRetrainRequest t port => Sys2Proof.Machine.execIdleRetrainRequest t port s
  | .creditInitTimeout t port => Sys2Proof.Machine.execCreditInitTimeout t port s
  | .creditReturn t dom => Sys2Proof.Machine.execCreditReturn t dom s
  | .shaftStall t dom => Sys2Proof.Machine.execShaftStall t dom s
  | .driftTrainingComplete t q out => Sys2Proof.Machine.execDriftTrainingComplete t q out s
  | .hello t q dev board epoch => Sys2Proof.Machine.execHello t q dev board epoch s
  | .driftCredit t q ack returned => Sys2Proof.Machine.execDriftCredit t q ack returned s
  | .nak t q seq => Sys2Proof.Machine.execNak t q seq s
  | .ackTimeout t q => Sys2Proof.Machine.execAckTimeout t q s
  | .idleGapCredit t q => Sys2Proof.Machine.execIdleGapCredit t q s
  | .driftDark t q => Sys2Proof.Machine.execDriftDark t q s
  | .fpRecord t q hdr epoch recs => Sys2Proof.Machine.execFpRecord t q hdr epoch recs s
  | .fpCommit t q hdr epoch count => Sys2Proof.Machine.execFpCommit t q hdr epoch count s
  | .fpAbort t q hdr epoch => Sys2Proof.Machine.execFpAbort t q hdr epoch s
  | .snapData t q hdr xfer off len => Sys2Proof.Machine.execSnapData t q hdr xfer off len s
  | .snapSeal t q hdr xfer snap destDom destCtx digests => Sys2Proof.Machine.execSnapSeal t q hdr xfer snap destDom destCtx digests s
  | .ckptData t q hdr xfer stream off len => Sys2Proof.Machine.execCkptData t q hdr xfer stream off len s
  | .ckptSeal t q hdr xfer len rep => Sys2Proof.Machine.execCkptSeal t q hdr xfer len rep s
  | .ckptDrop t q hdr stream => Sys2Proof.Machine.execCkptDrop t q hdr stream s
  | .bundleWrite t msg => Sys2Proof.Machine.execBundleWrite t msg s
  | .bundleCommit t msg => Sys2Proof.Machine.execBundleCommit t msg s
  | .bundleStatus t msg => Sys2Proof.Machine.execBundleStatus t msg s
  | .domainMapSet t msg => Sys2Proof.Machine.execDomainMapSet t msg s
  | .routingSet t msg => Sys2Proof.Machine.execRoutingSet t msg s
  | .portHold t msg => Sys2Proof.Machine.execPortHold t msg s
  | .policyRootSet t msg => Sys2Proof.Machine.execPolicyRootSet t msg s
  | .recover t msg => Sys2Proof.Machine.execRecover t msg s
  | .ashpitFetch t msg => Sys2Proof.Machine.execAshpitFetch t msg s
  | .reportResponse t mseq => Sys2Proof.Machine.execReportResponse t mseq s
  | .reportResend t => Sys2Proof.Machine.execReportResend t s
  | .getVersion t ver => Sys2Proof.Machine.execGetVersion t ver s
  | .getCapabilities t ver => Sys2Proof.Machine.execGetCapabilities t ver s
  | .negotiateAlgorithms t ver asym hash => Sys2Proof.Machine.execNegotiateAlgorithms t ver asym hash s
  | .getDigests t ver => Sys2Proof.Machine.execGetDigests t ver s
  | .getCertificate t ver slot off len => Sys2Proof.Machine.execGetCertificate t ver slot off len s
  | .challenge t ver slot nonce => Sys2Proof.Machine.execChallenge t ver slot nonce s
  | .getMeasurements t ver index sign nonce => Sys2Proof.Machine.execGetMeasurements t ver index sign nonce s
  | .chunkGet t ver handle seq => Sys2Proof.Machine.execChunkGet t ver handle seq s
  | .setEndpointId t op eid => Sys2Proof.Machine.execSetEndpointId t op eid s
  | .getEndpointId t => Sys2Proof.Machine.execGetEndpointId t s
  | .getMctpVersionSupport t mtype => Sys2Proof.Machine.execGetMctpVersionSupport t mtype s
  | .getMessageTypeSupport t => Sys2Proof.Machine.execGetMessageTypeSupport t s
  | .getVendorDefinedMessageSupport t selector => Sys2Proof.Machine.execGetVendorDefinedMessageSupport t selector s
  | .entdaa t addr => Sys2Proof.Machine.execEntdaa t addr s
  | .setdasa t static_ addr => Sys2Proof.Machine.execSetdasa t static_ addr s
  | .trstN t => Sys2Proof.Machine.execTrstN t s
  | .idcode t => Sys2Proof.Machine.execIdcode t s
  | .bypass t => Sys2Proof.Machine.execBypass t s
  | .samplePreload t => Sys2Proof.Machine.execSamplePreload t s
  | .extest t => Sys2Proof.Machine.execExtest t s
  | .shaftHeaderError t port pkt => Sys2Proof.Machine.execShaftHeaderError t port pkt s
  | .driftError t q seq => Sys2Proof.Machine.execDriftError t q seq s
  | .driftTrainingStart t q => Sys2Proof.Machine.execDriftTrainingStart t q s
  | .driftRetrain t q => Sys2Proof.Machine.execDriftRetrain t q s
  | .driftRefclkReturn t => Sys2Proof.Machine.execDriftRefclkReturn t s
  | .stackPortFailure t stack => Sys2Proof.Machine.execStackPortFailure t stack s
  | .contextResetComplete t ctx => Sys2Proof.Machine.execContextResetComplete t ctx s
  | .testLogicReset t => Sys2Proof.Machine.execTestLogicReset t s

end Sys2Proof.Machine
end

