-- ==== Sys2Proof/Safety.lean ====
section
/-! DEFINITION. The terms that statements use: when the block runs at all, when the data plane runs, when a command of a
control port is executing, what a refused command leaves, and the invariant that every step keeps. -/

namespace Sys2Proof.Safety

open Sys2Proof.Machine

/-- Neither BLK_PORST_N nor a Pilot fault holds the block (R371, R408). -/
def Up (s : State) : Prop := s.porst = false ∧ s.pilotFault = false

/-- The block runs and DEVICE_MODE is NORMAL: data and control planes serve (R360, R390). -/
def Ready (s : State) : Prop := Up s ∧ s.mode = .normal

/-- The management endpoint answers: the block runs and its device count has started (Table 17.4). -/
def Managed (s : State) : Prop := Up s ∧ s.running = true

/-- An ACTIVE Shaft port of a domain whose WINDOW_MASK grants a control port (R275, R276). -/
def Window (s : State) (port : Nat) (ctl : CtlPort) (dom : Nat) : Prop :=
  Up s ∧ s.portActive port = true ∧ s.portDomain port = dom ∧ s.granted dom ctl = true

/-- The state in which a window access of an arrival count acts. -/
def windowed (s : State) (t : Nat) : State := (s.advance t).active

/-- The command `c` of an opcode executes for an instance; its checks before the payload have passed and its payload has
come (R313, R315). -/
def Executing (s : State) (op : Nat) (i : Inst) (c : ExecCmd) : Prop :=
  Up s ∧ s.foreman.exec = some c ∧ c.inst = i ∧ Slot.opcode c.slot = op ∧ s.foreman.restarting = false ∧
    s.mode ≠ .recovering ∧ c.pre = 0 ∧ c.need ≤ c.delivered

/-- A packet of a type reaches an ACTIVE port whole, with credits and a good header (R279, R282). -/
def Arrives (s : State) (port ty : Nat) (p : Bytes) : Prop :=
  Ready s ∧ s.portActive port = true ∧ Hdr.type p = ty ∧ s.creditShort (s.portDomain port) (Hdr.vc p) (p.length / 64) = false ∧
    headerBad (s.portDomain port) p = false

/-- The state in which a packet that arrives is taken: the port is busy now and its credits are used (R279, R291). -/
def taken (s : State) (t port : Nat) (p : Bytes) : State :=
  let s1 := (windowed s t).modShaft port fun x => { x with lastBusy := (s.advance t).count }
  if Hdr.vc p < 5 then
    s1.modCredits (s.portDomain port) (DomCredits.use (Hdr.vc p) (p.length / 64) (s.advance t).count)
  else s1

/-- An accepted item whose screening goes on and whose context waits for no replay (R350, R352). -/
def Screening (s : State) (n : Nat) (it : Item) : Prop :=
  Ready s ∧ s.item n = some it ∧ it.live = true ∧ s.suspended it.entry.ctx it.stamp = false

/-- An accepted item, not a verified prefix, that waits for its release time (R63, R223). -/
def DueItem (s : State) (n : Nat) (it : Item) : Prop :=
  s.item n = some it ∧ it.owned = true ∧ it.plain = false ∧ it.answered = false ∧ it.overdue = false ∧ it.waits = none ∧
    ∀ b, it.body = .chunk b → b.pfx = false

/-- The lookups of an item (R102). -/
def lookupsOf (it : Item) : List Lookup :=
  match it.body with
  | .chunk b => b.lookups
  | .cand b => b.lookups

/-- A management request of a code, well formed, that the endpoint serves in the mode it is in (R385, R391). -/
def Requested (s : State) (code : Nat) (m : Bytes) : Prop :=
  Managed s ∧ s.mode ≠ .banked ∧ Msg.isRequest m = true ∧ Msg.code m = code ∧ Msg.reservedOk m = true

/-- The opcode of a command row and its instance, for the rows whose checks and effect are one step or end one (Table
14.1). -/
def opcodeOf : Instr → Option (Nat × Inst × Nat)
  | .deviceQuery t i => some (t, i, 0x0001)
  | .layoutSet t i => some (t, i, 0x0002)
  | .contextCreate t i => some (t, i, 0x0100)
  | .contextClose t i => some (t, i, 0x0101)
  | .contextReset t i => some (t, i, 0x0102)
  | .contextSet t i => some (t, i, 0x0103)
  | .contextQuery t i => some (t, i, 0x0104)
  | .capacitySet t i => some (t, i, 0x0105)
  | .streamAdmit t i => some (t, i, 0x0200)
  | .streamClose t i => some (t, i, 0x0201)
  | .streamHold t i => some (t, i, 0x0202)
  | .streamResume t i => some (t, i, 0x0203)
  | .streamSet t i => some (t, i, 0x0204)
  | .streamQuery t i => some (t, i, 0x0205)
  | .prefixDrop t i => some (t, i, 0x0206)
  | .imageStage t i => some (t, i, 0x0300)
  | .imageInstall t i => some (t, i, 0x0301)
  | .imageQuery t i => some (t, i, 0x0302)
  | .vocabLoad t i => some (t, i, 0x0303)
  | .adapterSlotAlloc t i => some (t, i, 0x0304)
  | .adapterSlotFree t i => some (t, i, 0x0305)
  | .adapterPublish t i => some (t, i, 0x0306)
  | .adapterWithdraw t i => some (t, i, 0x0307)
  | .tapNormLoad t i => some (t, i, 0x0308)
  | .fpSetDefine t i => some (t, i, 0x0400)
  | .fpEpochOpen t i => some (t, i, 0x0401)
  | .fpUpdate t i => some (t, i, 0x0402)
  | .fpEpochCommit t i => some (t, i, 0x0403)
  | .fpEpochAbort t i => some (t, i, 0x0404)
  | .fpQuery t i => some (t, i, 0x0405)
  | .tallyAlloc t i => some (t, i, 0x0500)
  | .tallyFree t i => some (t, i, 0x0501)
  | .tallySet t i => some (t, i, 0x0502)
  | .tallyRead t i => some (t, i, 0x0503)
  | .canarySet t i => some (t, i, 0x0600)
  | .faultQuery t i => some (t, i, 0x0601)
  | .ashpitRead t i => some (t, i, 0x0602)
  | .counterRead t i => some (t, i, 0x0700)
  | .telemetryRead t i => some (t, i, 0x0701)
  | .driftPeerState t i => some (t, i, 0x0800)
  | .snapshotMigrate t i => some (t, i, 0x0801)
  | .streamTakeover t i => some (t, i, 0x0802)
  | _ => none

/-- The arrival count of a row that has no occasion before NORMAL, in recovery or in Banked mode (R360, R390, R391). -/
def dataTime : Instr → Option Nat
  | .admitPacket t _ _ => some t
  | .chunk t _ _ => some t
  | .tap t _ _ => some t
  | .candidates t _ _ => some t
  | .chunkReleaseTime t _ => some t
  | .candidatesReleaseTime t _ => some t
  | .runEnd t _ => some t
  | .intakeTaskComplete t _ _ _ _ => some t
  | .lookupReturn t _ _ _ _ => some t
  | .lookaheadTaskComplete t _ _ _ _ _ => some t
  | .decideStage t _ => some t
  | .commitStep t _ _ => some t
  | .gateEvaluation t _ _ => some t
  | .resolverScore t _ _ _ => some t
  | .firing t _ => some t
  | .gatePassTick t _ => some t
  | .fluePassEnd t _ _ _ _ => some t
  | .tapSkewDeadline t _ _ => some t
  | .proposalCutoff t _ _ => some t
  | .requestEvaluationComplete t _ _ => some t
  | .checkpointWriteComplete t _ => some t
  | .snapshotWriteComplete t _ _ => some t
  | .snapshotRestoreComplete t _ _ => some t
  | .warmIn t _ => some t
  | .coolTime t _ => some t
  | .streamClosed t _ => some t
  | .streamRestoreComplete t _ => some t
  | .transferAbsorbed t _ => some t
  | .zeroingComplete t _ => some t
  | .fpSweepComplete t => some t
  | .signal t _ _ _ _ _ => some t
  | .consume t _ _ _ _ _ => some t
  | .canaryEvaluation t _ _ => some t
  | .ashpitCaptureComplete t _ _ => some t
  | .suspectResetComplete t _ => some t
  | .replayPass t _ => some t
  | .replayTimeout t _ => some t
  | .foremanFailure t => some t
  | .foremanRestartComplete t _ => some t
  | .unitInternalError t _ => some t
  | .heartbeatMiss t _ => some t
  | .remapComplete t _ => some t
  | .ledgerQuiesceTimeout t => some t
  | .scrub t _ _ => some t
  | .dormantEntry t => some t
  | .rowPowerGate t _ => some t
  | .rowWakeComplete t _ => some t
  | .shaftStall t _ => some t
  | .driftCredit t _ _ _ => some t
  | .nak t _ _ => some t
  | .ackTimeout t _ => some t
  | .idleGapCredit t _ => some t
  | .fpRecord t _ _ _ _ => some t
  | .fpCommit t _ _ _ _ => some t
  | .fpAbort t _ _ _ => some t
  | .snapData t _ _ _ _ _ => some t
  | .snapSeal t _ _ _ _ _ _ _ => some t
  | .ckptData t _ _ _ _ _ _ => some t
  | .ckptSeal t _ _ _ _ _ => some t
  | .ckptDrop t _ _ _ => some t
  | .driftError t _ _ => some t
  | _ => none

/-- A row of the test access port (R411). -/
def isTap : Instr → Bool
  | .trstN _ | .testLogicReset _ | .idcode _ | .bypass _ | .samplePreload _ | .extest _ => true
  | _ => false

/-- The lease of a Lamp that is held lies between 1 ms and 10 s, its owner is a LAMP_ID (Table 13.3). -/
def LampOk (l : Lamp) : Prop := l.held = true → l.owner < 8 ∧ l.grant + 100000 ≤ l.expiry ∧ l.expiry ≤ l.grant + 1000000000

/-- What every step keeps: the host-directed memory in canonical form, a legal Lamp, THRESHOLD in its range (R338), and no
running count under BLK_PORST_N or a Pilot fault (R371, R408). -/
def Inv (s : State) : Prop :=
  Memory.wf s.mem = true ∧ LampOk s.lamp ∧ 100 ≤ s.threshold ∧ s.threshold ≤ 1000000 ∧
    ((s.porst = true ∨ s.pilotFault = true) → s.running = false)

/-- Everything but the rings, the Foreman, what it sends with the credits of it, and the count of the last activity is the same:
what the end of a command leaves (R313, R316, R375). -/
def SameButRings (s u : State) : Prop :=
  u = { s with insts := u.insts, foreman := u.foreman, bulk := u.bulk, out := u.out, shaft := u.shaft, credits := u.credits,
               lastActivity := u.lastActivity }

/-- What a device fault of a cause leaves of a block that was not in recovery (R359, R360, R292, R366). -/
def Faulted (s u : State) (cause : Nat) : Prop :=
  u.mode = .recovering ∧ u.recovery = some ⟨cause, 0⟩ ∧ u.pins.faultN = true ∧ u.pins.vid = 0 ∧ u.items = [] ∧ u.chains = [] ∧
    u.passes = [] ∧ u.queuedTx = [] ∧ (∀ p ∈ u.shaft, p.link = .down ∨ p.link = .heldDown) ∧
    (∀ d ∈ u.drift, d.link = .down ∨ d.link = .heldDown) ∧ (∀ r ∈ u.rows, r.power = .off) ∧ u.streams = s.streams ∧ u.ctxs = s.ctxs ∧
    u.store = s.store ∧ u.mem = s.mem ∧
    (s.reports.length < 256 → ∃ r ∈ u.reports, r.code = Rep.deviceFault ∧ r.detail = [cause, 0])

end Sys2Proof.Safety
end

