-- ==== Sys2Proof/Certificates/Slice0/Obligations.lean ====
section
/-! DEFINITION. The statements. Unless a docstring says otherwise a row's arrival count advances the device count first (log
1), and each statement gives the whole next state: what it does not name is unchanged. -/

open Sys2Proof Sys2Proof.Machine Sys2Proof.Safety

/-! ### The block as a whole -/

/-- A step takes the command at the front of the queue and runs it on the state with the queue's rest; on an empty queue
the device count ticks while it runs, up to its 56 bits, else the block idles (log 2). -/
def Obligations.StepRunsFrontCommand : Prop :=
  (∀ (c : Instr) (rest : List Instr) (s : State), s.pending = c :: rest → step s = exec c { s with pending := rest }) ∧
  (∀ s : State, s.pending = [] → step s = .next (if s.running then { s with count := max s.count (min (s.count + 1) (2 ^ 56 - 1)) } else s))

/-- Every command answers a next state, and leaves the queue and the values fixed at production as they were (log 9). -/
def Obligations.EveryCommandAnswersAndKeepsQueue : Prop :=
  ∀ (c : Instr) (s : State), ∃ u, exec c s = .next u ∧ u.pending = s.pending ∧ u.fuses = s.fuses

/-- The invariant of `Safety.Inv` is kept by every step, from every state that has it. -/
def Obligations.StepKeepsInvariant : Prop :=
  ∀ s u : State, Inv s → step s = .next u → Inv u

/-- The state after reset has the invariant. -/
def Obligations.ResetHasInvariant : Prop := Inv State.reset

/-- What reset leaves where the spec gives the value (R390, R275, R307, R338, R351, R380, Tables 11.4, 12.12, 13.2, 13.3, 13.4a):
DEVICE_MODE RECOVERING, the count at 0 and not started, CONFIG_SEQ 1, the default domain map and layout, every ring empty, every
link down, no context, stream or byte of memory. -/
def Obligations.ResetValues : Prop :=
  State.reset.mode = .recovering ∧ State.reset.count = 0 ∧ State.reset.running = false ∧ State.reset.foreman.configSeq = 1 ∧
  State.reset.lamp.held = false ∧ State.reset.lamp.breaks = 0 ∧ State.reset.threshold = 2000 ∧ State.reset.pins.vid = 0 ∧
  State.reset.pins.faultN = false ∧ State.reset.pins.thermTripN = false ∧ State.reset.ashpitNext = 1 ∧ State.reset.recoveries = 0 ∧
  State.reset.layoutRec = Config.defaultRegions ∧ State.reset.mem = [] ∧ State.reset.ctxs = [] ∧ State.reset.streams = [] ∧
  State.reset.items = [] ∧ State.reset.reports = [] ∧ State.reset.boot.active = [] ∧ State.reset.pending = [] ∧
  State.reset.insts.length = 8 ∧ State.reset.shaft.length = 16 ∧ State.reset.drift.length = 3 ∧
  (∀ x ∈ State.reset.insts, x.lease = 100 ∧ x.alertEnable = 0 ∧ x.cmdQ.level = 0 ∧ x.cplQ.level = 0 ∧ x.evtQ.level = 0 ∧
    x.evtLost = 0 ∧ x.resultBusy = false ∧ x.doorbellErr = false ∧ x.cplHeadErr = false ∧ x.evtHeadErr = false) ∧
  (∀ p ∈ State.reset.shaft, p.link = .down ∧ p.retrains = 0) ∧ (∀ d ∈ State.reset.drift, d.link = .down ∧ d.retrains = 0) ∧
  (∀ k, k < 16 → State.reset.domains.ports[k]? = some (0, true)) ∧
  State.reset.domains.regions[0]? = some (0, hostPages Config.defaultRegions, 3)

/-- The device count never moves back and does not move while it is stopped, whatever command runs; only BLK_PORST_N and
the count's start set it to 0 (R370, R371; the arrival counts are the model's, log 1). It stays within its 56 bits (R3). -/
def Obligations.CountNeverMovesBack : Prop :=
  (∀ (c : Instr) (s u : State), (∀ t, c ≠ .blkPorstAssert t) → (∀ t, c ≠ .deviceCountStart t) → exec c s = .next u →
    s.count ≤ u.count ∧ (s.running = false → u.count = s.count) ∧ (s.count < 2 ^ 56 → u.count < 2 ^ 56)) ∧
  (∀ (t : Nat) (s u : State), exec (.blkPorstAssert t) s = .next u → u.count = 0) ∧
  (∀ (t : Nat) (s u : State), exec (.deviceCountStart t) s = .next u → u.count = 0 ∨ u = s)

/-- While BLK_PORST_N is asserted, or after a Pilot fault, no command but those of BLK_PORST_N and of the test access port
changes anything: nothing is released (R371, R408). -/
def Obligations.StoppedBlockDoesNothing : Prop :=
  ∀ (c : Instr) (s : State), (s.porst = true ∨ s.pilotFault = true) → isTap c = false → (∀ t, c ≠ .blkPorstAssert t) →
    (∀ t, c ≠ .blkPorstRelease t) → exec c s = .next s

/-- Before NORMAL, in recovery and in Banked mode the data plane, the tally board, the Canary, the units and the Drift links'
traffic change nothing but the count: nothing is released until recovery has completed (R360, R390, R391). -/
def Obligations.NothingMovesOutsideNormal : Prop :=
  ∀ (c : Instr) (t : Nat) (s : State), dataTime c = some t → Up s → s.mode ≠ .normal → exec c s = .next (s.advance t)

/-- Who may change what belongs to the whole device: each register below changes by the rows named for it and by no other,
BLK_PORST_N apart; every byte of the host-directed memory reads as before after any command but a host WRITE and the end of
a recovery. -/
def Obligations.OnlyOwnersChangeDeviceState : Prop :=
  ∀ (c : Instr) (s u : State), (∀ t, c ≠ .blkPorstAssert t) → exec c s = .next u →
    (u.roots ≠ s.roots → ∃ t m, c = .policyRootSet t m) ∧
    (u.routing ≠ s.routing → ∃ t m, c = .routingSet t m) ∧
    (u.domains ≠ s.domains → ∃ t m, c = .domainMapSet t m) ∧
    (u.layoutRec ≠ s.layoutRec → ∃ t i, c = .layoutSet t i) ∧
    (u.threshold ≠ s.threshold → ∃ t i, c = .canarySet t i) ∧
    (u.layout ≠ s.layout → ∃ t a b d, c = .recoveryComplete t a b d) ∧
    (u.lamp ≠ s.lamp → (∃ t p k o, c = .acquire t p k o ∨ c = .release t p k o ∨ c = .breakLamp t p k o) ∨
      (∃ t, c = .lampExpiry t) ∨ (∃ t p k o v, c = .registerWrite t p k o v) ∨ ∃ t p k, c = .write t p k) ∧
    (u.boot ≠ s.boot → (∃ t, c = .blkPorstRelease t ∨ c = .deviceCountStart t) ∨ (∃ t m, c = .bundleWrite t m ∨ c = .bundleCommit t m) ∨
      (∃ t a b d, c = .bootComplete t a b d) ∨ ∃ t a b d, c = .recoveryComplete t a b d) ∧
    ((∃ a, memGet u.mem a ≠ memGet s.mem a) → (∃ t p k, c = .write t p k) ∨ ∃ t a b d, c = .recoveryComplete t a b d)

/-! ### The data plane -/

/-- CHUNK, CANDIDATES and TAP at their stamps (R54, R69, R157, R158, R161, R196, R197, R414): an item that passes the checks of
its table is accepted and kept with its stamp, its release time D_C or D_G later, and a chunk its positions; one that fails is
kept to be answered REFUSED with the code of the first check that fails, one of a FREE entry E_STATE and another domain's
E_CONTEXT after a fixed time. A good TAP in its window is staged slot by slot; another domain's, and one of a bad layout, are
counted and dropped. -/
def Obligations.PacketRows : Prop :=
  (∀ t port p (s v : State) c, Arrives s port 2 p → v = taken s t port p → c = ChunkPkt.of p →
    (s.stream c.stream = none →
      ∃ (u : State) (it : Item), exec (.chunk t port p) s = .next u ∧ u = v.addItem it ∧
        it.refused = some E.state ∧ it.owned = false ∧ it.stamp = v.count ∧ it.due = v.count + 15000 ∧ it.answered = false) ∧
    (∀ x, s.stream c.stream = some x → x.e.state ≠ .free →
      (x.e.domain ≠ s.portDomain port →
        ∃ it : Item, exec (.chunk t port p) s = .next (State.progress c.stream (v.addItem it)) ∧
          it.refused = some E.context ∧ it.owned = false ∧ it.due = v.count + 15000) ∧
      (∀ b it ss, x.e.domain = s.portDomain port → b = ChunkBody.new c x.intakePos x.screen → ss = (v.ctx x.e.ctx).settings →
        it = Item.new c.stream port (s.portDomain port) v.count (setting ss Setting.dC) c.tag ss
          (if x.e.follow then { x.e with imagePins := (v.followPins x.e).1, adapterPins := (v.followPins x.e).2 } else x.e) (.chunk b) →
        (v.chunkCheck x c v.nextItem it b = 0 → x.badRestore = false →
          exec (.chunk t port p) s = .next (State.progress c.stream (((v.followMove c.stream).firstHot c.stream).acceptChunk c.stream it b))) ∧
        (∀ e, v.chunkCheck x c v.nextItem it b = e → e ≠ 0 → (x.e.state.live && v.expired x.e) = false →
          exec (.chunk t port p) s = .next (State.progress c.stream (v.addItem { it with refused := some e }))) ∧
        (v.chunkCheck x c v.nextItem it b = 0 → x.badRestore = true →
          ∃ u : State, exec (.chunk t port p) s = .next (State.progress c.stream u) ∧ ∃ k, u.item v.nextItem = some k ∧
            k.refused = some E.handle)))) ∧
  (∀ sid it b (s : State) x, s.stream sid = some x → b.pfx = false → it.body = .chunk b → x.e.state = .intake → x.e.prefixMode = 0 →
    ∃ u : State, s.acceptChunk sid it b = u ∧ u = { s with streams := u.streams, items := u.items, nextItem := s.nextItem + 1 } ∧
      (∃ k, u.item s.nextItem = some k ∧ k.stamp = it.stamp ∧ k.due = it.due ∧ k.refused = it.refused ∧
        k.body = .chunk { b with start := x.intakePos, stop := x.intakePos + b.count, relStart := x.intakePos }) ∧
      ∃ y, u.stream sid = some y ∧ y.intakePos = x.intakePos + b.count ∧ y.nextSeq = (x.nextSeq + 1) % 2 ^ 32 ∧ y.e.lastStamp = s.count) ∧
  (∀ t port p (s v : State) c, Arrives s port 5 p → v = taken s t port p → c = CandPkt.of p →
    (s.stream c.stream = none →
      ∃ (u : State) (it : Item), exec (.candidates t port p) s = .next u ∧ u = v.addItem it ∧
        it.refused = some E.state ∧ it.owned = false ∧ it.stamp = v.count ∧ it.due = v.count + 200 ∧ it.answered = false) ∧
    (∀ x, s.stream c.stream = some x → x.e.state ≠ .free →
      (x.e.domain ≠ s.portDomain port →
        ∃ it : Item, exec (.candidates t port p) s = .next (State.progress c.stream (v.addItem it)) ∧
          it.refused = some E.context ∧ it.owned = false ∧ it.due = v.count + 200) ∧
      (∀ it ss, x.e.domain = s.portDomain port → ss = (v.ctx x.e.ctx).settings →
        it = Item.new c.stream port (s.portDomain port) v.count (setting ss Setting.dG) c.tag ss x.e (.cand (CandBody.new c)) →
        (v.candCheck x c = 0 →
          exec (.candidates t port p) s = .next (State.progress c.stream (v.acceptCand it c)) ∧
          ∃ k, (v.acceptCand it c).item v.nextItem = some k ∧ k.stamp = v.count ∧ k.due = it.due ∧ k.refused = none ∧ k.body = it.body) ∧
        (∀ e, v.candCheck x c = e → e ≠ 0 → v.expired x.e = false →
          exec (.candidates t port p) s = .next (State.progress c.stream (v.addItem { it with refused := some e })))))) ∧
  (∀ t port p (s v : State) c, Arrives s port 4 p → v = taken s t port p → c = TapPkt.of p →
    (s.stream c.stream = none → exec (.tap t port p) s = .next (if c.bad then v else (v.calTap (s.portDomain port) c).1)) ∧
    (∀ x, s.stream c.stream = some x → x.e.state ≠ .free →
      (x.e.domain ≠ s.portDomain port →
        exec (.tap t port p) s = .next (State.progress c.stream (v.domCount (s.portDomain port) Cnt.tapForeign))) ∧
      (x.e.domain = s.portDomain port → c.bad = true →
        exec (.tap t port p) s = .next (State.progress c.stream (v.ctxCount x.e.ctx Cnt.tapFormat))) ∧
      (∀ r, x.e.domain = s.portDomain port → c.bad = false → r = v.calTap (s.portDomain port) c →
        (∀ a ∈ c.slots, ∀ q ∈ tapLengths ((s.ctx x.e.ctx).probeModels x.e.imagePins), q.1 = a.slot → q.2 = a.len) →
        (x.e.state = .intake ∨ x.e.state = .generating ∨ x.e.state = .held) → x.e.commitPtr ≤ c.pos + 1 → c.pos ≤ x.e.commitPtr + 16 →
        x.probeWait = [] → (∀ k ∈ x.taps, k.pos ≠ c.pos) → c.slots ≠ [] → (∀ f, s.homeFlue x = some f → s.stagedOn f + (c.slots.map fun a => 64 * tapFlits a.len).sum ≤ 1048576) →
        exec (.tap t port p) s = .next (State.progress c.stream (State.startFlues (State.settleProbes c.stream none 1
          (r.2.foldl (fun u a => u.stageSlot c.stream (s.portDomain port) c.pos a) r.1)))))))

/-- Answers come at release times, not before (R4, R63, R64, R66, R67, R68, R217, R222, R223): before its time an item is not
answered by the row of its time; at its time an accepted one is answered by its verdict when that is final, by its late policy when
it is not, and waits while an earlier one is unanswered; a refused one is answered REFUSED with its status and leaves; on a
port the RELEASE_OUTs of one quantum leave in order of stamp, then stream; a RUN_END leaves after the items before it. A
RELEASE_IN is one flit, with its fields where Table 3.6 has them. -/
def Obligations.ReleaseTimeRows : Prop :=
  (∀ t n (s w : State), Ready s → w = s.advance t →
    (∀ it, s.item n = some it → w.count < it.due →
      (it.isChunk = true → exec (.chunkReleaseTime t n) s = .next (if it.owned then w.progress it.stream else w)) ∧
      (it.isChunk = false → exec (.candidatesReleaseTime t n) s = .next (if it.owned then w.progress it.stream else w))) ∧
    (∀ it, DueItem s n it → it.due ≤ w.count → s.atHead it.stream n = true → s.poisoned = [] → s.seamPoison = [] →
      (it.final ≠ none → s.awaits it.entry.ctx = false →
        (it.isChunk = true → exec (.chunkReleaseTime t n) s = .next (State.progress it.stream (w.answerChunk n false))) ∧
        (it.isChunk = false → w.dueBefore it.port it.due [it.stamp, it.stream] = [] →
          exec (.candidatesReleaseTime t n) s = .next (State.progress it.stream (w.answerCand n false)))) ∧
      (it.final = none →
        (it.isChunk = true → exec (.chunkReleaseTime t n) s = .next (State.progress it.stream (w.lateChunk n))) ∧
        (it.isChunk = false → w.dueBefore it.port it.due [it.stamp, it.stream] = [] →
          exec (.candidatesReleaseTime t n) s = .next (State.progress it.stream (w.lateCand n))))) ∧
    (∀ it, DueItem s n it → it.due ≤ w.count → s.atHead it.stream n = false → it.isChunk = true →
      exec (.chunkReleaseTime t n) s = .next (State.progress it.stream (w.waitBehind n it))) ∧
    (∀ it, s.item n = some it → it.isChunk = false → it.due ≤ w.count →
      exec (.candidatesReleaseTime t n) s = .next ((w.handFirst it.port it.due [it.stamp, it.stream]).releaseRow false n)) ∧
    (∀ it b e, s.item n = some it → it.body = .chunk b → it.refused = some e → it.owned = false → it.answered = false → it.overdue = false →
      it.waits = none → it.due ≤ w.count →
      exec (.chunkReleaseTime t n) s = .next { w.sendIn it { it.releaseIn b w.count with status := e } with items := tdel s.items n }) ∧
    (∀ it b e, s.item n = some it → it.body = .cand b → it.refused = some e → it.owned = false → it.answered = false → it.overdue = false →
      it.waits = none → it.due ≤ w.count → w.dueBefore it.port it.due [it.stamp, it.stream] = [] →
      exec (.candidatesReleaseTime t n) s = .next { w.sendOut it { it.releaseOut b it.entry.commitPtr 0 w.count with status := e, round := 0 } with
        items := tdel s.items n }) ∧
    (∀ x r, s.stream n = some x → x.runEnd = some r → r.shown = true → r.carrier = none → r.due ≤ w.count → s.awaits x.e.ctx = false →
      (∀ p ∈ s.before n r.before, p.2.isChunk = true ∨ p.2.answered = true) → w.dueBefore (s.releasePort x) r.due [r.stamp, n] = [] →
      exec (.runEnd t n) s = .next (State.progress n (w.sendRunEnd n x r))) ∧
    (∀ x, s.stream n = some x → x.runEnd = none → exec (.runEnd t n) s = .next w)) ∧
  (∀ (r : ReleaseIn) dom, (r.wire dom).length = 64 ∧ slice (r.wire dom) 0x10 2 = leBytes 2 r.stream ∧
    slice (r.wire dom) 0x12 2 = leBytes 1 r.status ++ leBytes 1 r.disp ∧ slice (r.wire dom) 0x14 1 = leBytes 1 (r.verdict + 128 * b2n r.late) ∧
    slice (r.wire dom) 0x16 2 = leBytes 2 r.tag ∧ slice (r.wire dom) 0x18 4 = leBytes 4 r.seq ∧ slice (r.wire dom) 0x38 8 = leBytes 8 r.stamp)

/-- Work of an item completes (R61, R94, R102, R162, R184, R185, R191, R219, R231, R242, R244, R245, R257): each row does its part for an accepted
item that waits for it, and the stream goes on. A sampled position raises the number decided; an uncorrectable error of the
rollback ring loses the rewind mark; one in an image of the context resets the context. -/
def Obligations.ScreeningRows : Prop :=
  (∀ t n (s w : State) it, Screening s n it → s.poisoned = [] → w = s.advance t →
    (∀ b set ov, it.body = .chunk b → b.begun = true → set ∈ b.tasks → s.setTurn it.stream n set = true →
      exec (.intakeTaskComplete t n set ov .clean) s = .next (State.progress it.stream (w.intakeTask n set ov)) ∧
      (∀ p, p ∈ w.imagePages it.entry.ctx it.pins [0] → exec (.intakeTaskComplete t n set ov (.stack p)) s =
        .next (State.progress it.stream (((w.poison p).faultReset it.entry.ctx 0).progressCtx it.entry.ctx)))) ∧
    (∀ idx l r u, ((lookupsOf it).find? fun l => l.idx == idx) = some l → l.result = none →
      r = s.store.lookup (s.store.newView it.stamp) l.set l.fp false false →
      u = (w.modItem n fun x => (x.onChunk fun b => { b with lookups := b.lookups.map fun k => if k.idx = idx then { k with result := some r } else k }).onCand
        fun b => { b with lookups := b.lookups.map fun k => if k.idx = idx then { k with result := some r } else k }) →
      exec (.lookupReturn t n idx .clean .clean) s = .next (State.progress it.stream (if it.isChunk then u.settleLookups it.stream else u))) ∧
    (∀ b pos q token set p x v k, it.body = .cand b → b.begun = true → b.committed = false → s.stream it.stream = some x →
      tget s.vocabs it.entry.vocab = some v → ((s.lookSets it).find? fun p => p.index == set) = some p → b.positions[pos]? = some q →
      token ∈ candidateTokens v.entries.length q → (∀ l ∈ b.looks, ¬(l.pos = pos ∧ l.token = token ∧ l.set = set)) →
      k = lookTask p v pos token (chainState p v (stateAt x.screen.outStates set) (b.drafts.take pos)).1 →
      exec (.lookaheadTaskComplete t n pos token set .clean) s = .next (State.progress it.stream (w.modCand n fun y => { y with
        looks := y.looks ++ [if s.broken it x v (b.drafts.take pos) then { k with blocked := false, stop := none } else k] }))) ∧
    (∀ b p x v, it.body = .cand b → b.begun = true → b.finished = false → b.lost = false → s.stream it.stream = some x →
      tget s.vocabs it.entry.vocab = some v → b.positions[b.decided]? = some p → s.masksReady it x v b = true →
      ∃ (u : State) (b2 : CandBody), exec (.decideStage t ⟨n, .clean⟩) s = .next (State.progress it.stream u) ∧ u = w.decidePos n ∧
        ((u.item n).bind Item.cand?) = some b2 ∧ b2.decided = b.decided + 1) ∧
    (∀ b, it.body = .cand b → b.finished = true → b.committed = false →
      exec (.commitStep t n ⟨.clean, .clean⟩) s = .next (State.progress it.stream ((w.commitStep n false).startDraft n)) ∧
      ∀ p x v, p < Config.seamPages 112 → sharedPart p = 1 → s.stream it.stream = some x → tget s.vocabs it.entry.vocab = some v →
        exec (.commitStep t n ⟨.seam 112 p, .clean⟩) s =
          .next (State.progress it.stream (((w.poisonSeam 112 p).loseRewind it.stream).startDraft n))) ∧
    (∀ tok, s.evalTurn n it = some tok →
      exec (.gateEvaluation t n .clean) s = .next (State.progress it.stream
        (if (w.evaluate n tok).1 then (w.evaluate n tok).2.evaluated n tok it else (w.evaluate n tok).2))) ∧
    (∀ model idx, it.resolving = true → (∃ r ∈ it.band, r.1 = model ∧ r.2.1 = idx ∧ r.2.2 = none) →
      exec (.resolverScore t n model ⟨idx, .clean⟩) s = .next (State.progress it.stream (w.resolverScore n model idx it))) ∧
    (∀ b done, it.body = .cand b → b.cutoffDone = false →
      exec (.proposalCutoff t n ⟨done, .clean⟩) s = .next (State.progress it.stream (w.propose n done)) ∧
      ∀ x v, b.committed = true → s.stream it.stream = some x → tget s.vocabs it.entry.vocab = some v →
        it.setting Setting.draftMode = 0 → 14 * it.stamp + it.cutoff ≤ 14 * w.count →
        w.propose n done = w.modCand n fun b => { b with cutoffDone := true, draft := none })) ∧
  (∀ t n pos (s w : State) sid x, Ready s → w = s.advance t → w.frozenOut x.e.ctx = false →
    (s.streams.find? fun p => p.2.probeWait.any fun q => q.pos == pos && q.item == n && !q.closed && decide (q.deadline ≤ w.count)) = some (sid, x) →
    exec (.tapSkewDeadline t n pos) s = .next (State.progress sid ((w.settleProbes sid (some pos) (w.probeFuel x)).startFlues)))

/-- Engines (R133, R134, R139): a firing boundary falls every 5 µs and a gate-pass tick every 0.5 µs of the count, and nothing fires
between them; a Flue's running pass ends, its results are delivered and the next begins. -/
def Obligations.EngineRows : Prop :=
  ∀ t (s w : State), Ready s → w = s.advance t →
    (w.count % 500 ≠ 0 → ∀ errs, exec (.firing t errs) s = .next w) ∧
    (w.count % 500 = 0 → s.poisoned = [] → exec (.firing t []) s = .next w.fireHearths.progressEvery) ∧
    (∀ ctx e, w.count % 50 ≠ 0 → exec (.gatePassTick t ⟨ctx, e⟩) s = .next w) ∧
    (∀ ctx, w.count % 50 = 0 → s.poisoned = [] → exec (.gatePassTick t ⟨ctx, .clean⟩) s = .next ((w.gateTick ctx).progressCtx ctx)) ∧
    (∀ f ctx model p, p ∈ s.passes → p.flue = some f → p.running = true → p.ctx = ctx → p.model = model → s.barred (.flue f) ctx = false →
      s.poisoned = [] → exec (.fluePassEnd t f ctx model .clean) s = .next ((w.endFluePass f ctx model).progressCtx ctx))

/-- What completes for a stream (R45, R46, R48, R56, R189, R253, R258): a request evaluation's verdict joins the stream's and is sent as an
event; a written capture is the valid checkpoint, in the other slot; a finished snapshot is stored, one that failed gives its pages up; a restore that
cannot be read deletes its snapshot. -/
def Obligations.StreamWorkRows : Prop :=
  ∀ t sid (s w : State) x, Ready s → w = s.advance t → s.stream sid = some x → s.poisoned = [] → s.seamPoison = [] →
    (∀ r, x.reqRun = some r → s.suspended x.e.ctx w.count = false →
      exec (.requestEvaluationComplete t sid .clean) s = .next (State.progress sid (w.requestDone sid))) ∧
    (∀ k, x.writing = some k →
      exec (.checkpointWriteComplete t sid) s = .next (State.progress sid (w.ckptWritten sid)) ∧
      (x.capPending = false →
        ∃ (u : State) (y : Stream), u = (w.endXferOf .ckptWrite sid).modStream sid (fun z => { z with
            slotA := if x.e.ckptValid && !x.validB then z.slotA else some k, slotB := if x.e.ckptValid && !x.validB then some k else z.slotB
            validB := x.e.ckptValid && !x.validB, writing := none, e := { z.e with ckptPos := k.pos, ckptValid := true } }) ∧
          u.stream sid = some y ∧ y.validCkpt = some k ∧
          (s.streamSetting sid Setting.reqAtCkpt = 0 → w.ckptWritten sid = u.replicateCapture sid))) ∧
    (∀ n, x.saving = some n → pagesOf n.bytes ≤ n.pages.length →
      exec (.snapshotWriteComplete t sid false) s = .next (State.progress sid ((w.endSave sid E.ok).putSnapshot n)) ∧
      exec (.snapshotWriteComplete t sid true) s = .next (State.progress sid ((w.endSave sid E.internal).releasePages n.pages))) ∧
    (∀ n, x.restore = some n →
      exec (.snapshotRestoreComplete t sid .clean) s = .next (State.progress sid (w.prefixRestored sid n)) ∧
      (∀ p, p ∈ n.pages → exec (.snapshotRestoreComplete t sid (.stack p)) s = .next (State.progress sid (State.restoreFailed sid n (w.poison p)))))

/-- A stream's life (R38, R39, R43, R246, R256, R258, R270): a cold stream with an item takes the lowest free hot slot; an idle one whose
checkpoint is at COMMIT_PTR gives its slot up; one with nothing in flight is CLOSED and its entry freed; a faulted one that may
resume is restored; orphan transfers are absorbed, their pages zeroed; zeroed pages leave TRANSIT. -/
def Obligations.StreamLifeRows : Prop :=
  ∀ t (s w : State), Ready s → w = s.advance t →
    (∀ sid x, s.stream sid = some x → s.needsHot sid x = true → s.hotUsed x.e.ctx < (s.ctx x.e.ctx).resv.hotSlots →
      exec (.warmIn t sid) s = .next (State.progress sid (w.modStream sid fun y => { y with
        e := { y.e with hotSlot := s.freeHot }, home := w.chooseHome y.e.ctx }))) ∧
    (∀ sid x, s.stream sid = some x → s.streamSetting sid Setting.hotPolicy = 1 → w.coolChoice x.e.ctx = some sid → x.e.ckptValid = true →
      x.e.ckptPos = x.e.commitPtr →
      exec (.coolTime t sid) s = .next (w.modStream sid fun y => { y with e := { y.e with hotSlot := none }, home := none })) ∧
    (∀ sid x, s.stream sid = some x → s.drained sid x = true →
      ∃ v : State, exec (.streamClosed t sid) s = .next (v.freeStream sid) ∧ v = { w with streams := v.streams } ∧
        v.stream sid = some { x with e := { x.e with state := .closed } } ∧ ∀ k, k ≠ sid → v.stream k = s.stream k) ∧
    (∀ sid x k, s.stream sid = some x → x.validCkpt = some k → x.e.state = .faulted → s.mayResume x = true → s.quiet sid = true →
      s.streamBalanced sid = true → s.poisoned = [] → s.seamPoison = [] →
      exec (.streamRestoreComplete t sid) s = .next (State.progress sid (w.restoreFrom sid k x.replayed))) ∧
    (∀ k x, tget s.xfers k = some x → x.orphan = true → s.poisoned = [] →
      exec (.transferAbsorbed t k) s = .next (State.tryFree x.ctx ({ w with
        xfers := tdel s.xfers k, zeroing := s.zeroing ++ x.pages.filter fun p => !s.zeroing.contains p
        ctxs := tmod s.ctxs x.ctx fun c => { c with orphans := c.orphans - 1 } }))) ∧
    (∀ r, r ∈ s.zeroing → exec (.zeroingComplete t r) s = .next (w.stackZeroed r) ∧
      (s.poisoned = [] → (∀ p ∈ s.streams, p.2.saving = none) → (∀ n ∈ s.snapshots, pagesOf n.bytes ≤ n.pages.length) → s.outOfUse = [] →
        s.degraded = false →
        w.stackZeroed r = { w with zeroing := s.zeroing.erase r })) ∧
    (∀ r, r ∉ s.zeroing → exec (.zeroingComplete t r) s = .next { w with
      seamZero := s.seamZero.map fun p => if Config.stackPages + p.1 = r then (p.1, p.2 - 1) else p })

/-! ### Faults -/

/-- Hangs (R338, R347 to R355): a Canary evaluation without a cycle of old edges changes nothing; a new cycle's engines, suspects and record
are held and reported; a capture fills its record; the reset of the suspects starts the first replay; a passed replay takes the suspect from the
list; a replay past its limit resets it. -/
def Obligations.HangRows : Prop :=
  ∀ t (s w : State), Ready s → w = s.advance t →
    (∀ edges work, cyclesOf (w.oldEdges edges) = [] → exec (.canaryEvaluation t edges work) s = .next w) ∧
    (∀ edges work cyc engines, cyclesOf (w.oldEdges edges) = [cyc] → s.hangs = [] → engines = (cyc.map (·.src)).eraseDups →
      (s.suspectsOf engines work).contains 0 = false → engines.any isForeman = false →
      ∃ (u : State) (h : Hang), exec (.canaryEvaluation t edges work) s = .next u ∧ u.hangs = tset [] s.nextHang h ∧ h.cycle = cyc ∧ h.engines = engines ∧
        h.record = s.ashpitNext ∧ u.nextHang = s.nextHang + 1 ∧ u.ashpitNext = s.ashpitNext + 1 ∧
        (s.reports.length < 256 → ∃ r ∈ u.reports, r.code = Rep.hang)) ∧
    (∀ k bytes r, r ∈ s.ashpit → r.num = k → r.complete = false → s.poisoned = [] →
      ∃ u : State, exec (.ashpitCaptureComplete t k bytes) s = .next u ∧ u = { w with ashpit := u.ashpit, ashpitHead := u.ashpitHead } ∧
        ∃ q ∈ u.ashpit, q.num = k ∧ q.complete = true ∧ q.bytes = min bytes 16000000 ∧ q.first = s.ashpitHead) ∧
    (∀ k h, tget s.hangs k = some h → h.resetDone = false →
      exec (.suspectResetComplete t k) s = .next (State.nextReplay k ((h.suspects.foldl (fun v c => State.suspectReset c v) w).modHang k fun h =>
        { h with resetDone := true, since := w.count }))) ∧
    (∀ k h c, tget s.hangs k = some h → h.replaying = some c → s.replayed c h.since = true →
      exec (.replayPass t k) s = .next (w.replayPass k c) ∧
      ∀ v : State, v = w.modHang k (fun h => { h with suspects := h.suspects.erase c, replaying := none, outcomes := h.outcomes ++ [(c, 0)] }) →
        v.awaits c = true → w.replayPass k c = (v.progressCtx c).nextReplay k) ∧
    (∀ k h c, tget s.hangs k = some h → h.replaying = some c → h.started + 200 * s.threshold + 100000 ≤ w.count →
      exec (.replayTimeout t k) s = .next (w.hangAgain k h)) ∧
    (∀ k h, tget s.hangs k = some h → w.count < h.started + 200 * s.threshold + 100000 → exec (.replayTimeout t k) s = .next w)

/-- The Foreman and context resets (R314, R326, R346, R355): a failure sets the Foreman's own Tallies to 0, takes its units from the wait
lists and starts a restart, reported; its end ends the command that was executing with E_INTERNAL and serves the rings again; a reset ends once
every stream is FAULTED or beyond, and completes the command that waits for it. -/
def Obligations.ForemanRows : Prop :=
  ∀ t (s w : State), Ready s → w = s.advance t →
    (s.foreman.restarting = false → s.foreman.lastRestart = none →
      ∃ u : State, exec (.foremanFailure t) s = .next u ∧ u.foreman = { s.foreman with restarting := true, lastRestart := some w.count } ∧
        u.mode = .normal ∧ (∀ k x, tget s.tallies k = some x → ∃ y, tget u.tallies k = some y ∧
          y = ({ x with count := if k < 64 then 0 else x.count }).dropWaiters (·.foreman) ∧ ∀ q ∈ y.waiters, q.foreman = false) ∧
        u.streams = s.streams ∧ u.ctxs = s.ctxs ∧
        (s.reports.length < 256 → ∃ r ∈ u.reports, r.code = Rep.foremanRestart ∧ r.detail = [0])) ∧
    (s.foreman.restarting = true →
      ∃ v : State, v = w.abandonCommands false ∧ v.foreman.exec = none ∧
        exec (.foremanRestartComplete t true) s = .next (State.pump pumpFuel { v with foreman := { v.foreman with restarting := false } })) ∧
    (s.foreman.restarting = true → s.recovery = none → ∃ u : State, exec (.foremanRestartComplete t false) s = .next u ∧ Faulted s u FaultCause.foreman) ∧
    (∀ c k d gen eff, s.resetDone c = true → s.foreman.restarting = false → k < 8 → s.hangs = [] →
      (s.inst (rrInst k)).working = some ⟨d, .reset c gen, eff⟩ → (∀ j, j < 8 → j ≠ k → (s.inst (rrInst j)).working = none) →
      exec (.contextResetComplete t c) s = .next (w.endWork (rrInst k) ⟨E.ok, eff, [], none⟩)) ∧
    (∀ c, s.resetDone c = true → s.foreman.restarting = false → (∀ k, k < 8 → (s.inst (rrInst k)).working = none) → s.hangs = [] →
      exec (.contextResetComplete t c) s = .next w) ∧
    (∀ c, s.resetDone c = false → exec (.contextResetComplete t c) s = .next w)

/-- Units (R255 to R258, R267, R268, R356 to R359): a unit that fails is fenced, reported and recorded, and its work moves at its remap; the
Detokeniser's failure is a device fault; a ledger unbalanced for 1 ms at a quiesce sets LEDGER_FAULT; a scrub counts what it corrected and
poisons what it could not. -/
def Obligations.UnitRows : Prop :=
  ∀ t (s w : State), Ready s → w = s.advance t →
    (∀ k, s.failed.contains (.grate k) = false → lastFailed (s.failed ++ [.grate k]) = false →
      ∃ u : State, exec (.unitInternalError t (.grate k)) s = .next u ∧ exec (.heartbeatMiss t (.grate k)) s = .next u ∧
        u.failed = s.failed ++ [.grate k] ∧ u.remapping = s.remapping ++ [.grate k] ∧ u.mode = .normal ∧ u.ashpitNext = s.ashpitNext + 1 ∧
        u.items = s.items ∧ u.streams = s.streams ∧
        (s.reports.length < 254 → ∃ r ∈ u.reports, r.code = Rep.unitFailed ∧ r.detail = unitCode (.grate k))) ∧
    (∀ v : State, s.failed.contains .detokeniser = false → s.recovery = none →
      v = State.report Rep.unitFailed (unitCode .detokeniser) { w with failed := s.failed ++ [.detokeniser] } →
      ∃ u : State, exec (.unitInternalError t .detokeniser) s = .next u ∧ Faulted v u FaultCause.unitCore) ∧
    (∀ x u, s.remapping.contains x = true → u = { w with remapping := s.remapping.filter (· != x) } →
      exec (.remapComplete t x) s = .next (State.progressEvery ((u.remapped x).reload x)) ∧
      ∀ k, (x = .grate k → s.poisoned = [] → (u.remapped x).reload x = u.rehomeGrate k) ∧ (x = .assay k → (u.remapped x).reload x = u)) ∧
    (∀ a b, w.unbalanced = some (a, b) → s.ledgerFault = false →
      ∃ u : State, exec (.ledgerQuiesceTimeout t) s = .next u ∧ u.ledgerFault = true ∧ u.ashpitNext = s.ashpitNext + 1 ∧
        (s.reports.length < 256 → ∃ r ∈ u.reports, r.code = Rep.ledgerFault ∧ r.detail = [a, b])) ∧
    (∀ n, exec (.scrub t n []) s = .next (w.active.devCount Cnt.eccCorrected n)) ∧
    (∀ n p, p < Config.stackPages → p ∉ s.poisoned → ∃ u : State, exec (.scrub t n [p]) s = .next u ∧ u.poisoned = s.poisoned ++ [p])

/-- A device fault (R359, R360): BLK_WARM_N asserted, a stack port lost and RECOVER declare one. DEVICE_MODE becomes
RECOVERING, FAULT_N is asserted, CORE_VID's code is 0, the Hearth rows lose power, every unanswered item and every engine's
work goes, no packet waits, no Shaft or Drift port is up, and DEVICE_FAULT is reported. -/
def Obligations.DeviceFaultRows : Prop :=
  (∀ t (s : State), Up s → s.boot.phase = .done → s.mode = .normal → s.recovery = none →
    (∃ u, exec (.blkWarmAssert t) s = .next u ∧ u.pins.warmN = true ∧ Faulted s u FaultCause.warm) ∧
    (∀ k, ∃ u, exec (.stackPortFailure t k) s = .next u ∧ Faulted s u FaultCause.stackPort)) ∧
  (∀ t (s : State) m, Requested s 0x20 m → Msg.payload m = [] → s.mode = .normal → s.recovery = none →
    ∃ u, exec (.recover t m) s = .next u ∧ Faulted s u FaultCause.recover ∧ (.mgmt 0x20 0 (Msg.mseq m) []) ∈ u.out) ∧
  (∀ t (s : State), Up s → exec (.blkWarmRelease t) s = .next { s.advance t with pins := { s.pins with warmN := false } })

/-! ### Commands of the rings -/

/-- Peers (R301, R302, R341): PEER_DEAD is set and cleared and FORGET drops the device's replicas; a migration goes out whole and
waits for the peer's outcome, which completes the command; a takeover admits a stream and deletes the replica. -/
def Obligations.PeerRows : Prop :=
  ∀ t i c (s w : State), w = s.advance t →
    (∀ dev, Executing s 0x0800 i c → c.arg 0x18 1 = dev → dev ≠ s.routing.device →
      (c.arg 0x19 1 = 1 → ∃ u : State, exec (.driftPeerState t i) s = .next (u.complete c ⟨E.ok, w.count, [], none⟩) ∧
        u = { w with dead := dev :: s.dead.filter (· != dev), drift := u.drift, foreman := u.foreman }) ∧
      (c.arg 0x19 1 = 0 → ∃ u : State, exec (.driftPeerState t i) s = .next (u.complete c ⟨E.ok, w.count, [], none⟩) ∧
        u = { w with dead := s.dead.filter (· != dev), drift := u.drift, foreman := u.foreman }) ∧
      (c.arg 0x19 1 = 2 → ∃ u : State, exec (.driftPeerState t i) s = .next (u.complete c ⟨E.ok, w.count, [], none⟩) ∧
        u.replicas = s.replicas.filter fun r => r.dev != dev)) ∧
    (∀ peer q n, Executing s 0x0801 i c → s.ctxBad c c.ctxId = false → ((s.ctx c.ctxId).state = .opened ∨ (s.ctx c.ctxId).state = .closing) →
      c.arg 0x1A 1 = peer → peer ≠ s.routing.device → s.portTo peer = some q → s.snapshot c.ctxId (c.arg 0x20 8) = some n → (∀ p ∈ n.pages, p ∉ s.poisoned) →
      exec (.snapshotMigrate t i) s = .next (w.startMigrate c n) ∧
      ∃ v : State, v = ({ w with nextXfer := s.nextXfer + 1 }).driftSend q
          (snapMsgs (s.ctx n.ctx).gen s.nextXfer n (s.pinDigests n.ctx n.imagePins n.adapterPins) w.count) ∧
        w.startMigrate c n = State.pump pumpFuel { v with
          insts := (v.modInst i fun x => { x with working := some ⟨c, .migrate peer s.nextXfer n.ctx, 0⟩ }).insts
          foreman := { v.foreman with exec := none } }) ∧
    (∀ code k a b d e, Up s → s.foreman.restarting = false → (s.inst i).working = some ⟨k, .migrate a b d, e⟩ →
      code ∈ [E.ok, E.context, E.handle, E.capacity, E.transfer] →
      exec (.snapshotMigrateOutcome t i code) s =
        .next (w.endWork i (Answer.fail code)) ∧
      w.endWork i (Answer.fail code) = State.pump pumpFuel { (w.postCompletion k (Answer.fail code)).modInst i fun x => { x with working := none } with
        lastActivity := w.count }) ∧
    (∀ r sid, Executing s 0x0802 i c → w.takeCheck c = 0 → s.replicaOf c = some r → s.freeEntry = some sid →
      ∃ a v : State, a = State.modStream sid (Stream.fromReplica r (takeTokens c) (c.arg 0x20 4)) (w.admitStream (takeReq c r)).1 ∧
        v = a.restoreFrom sid r.ckpt (((List.range (takeTokens c).length).map (· + r.pos)).zip (takeTokens c)) ∧
        exec (.streamTakeover t i) s = .next ((v.dropReplicas fun q => q == r).complete c ⟨E.ok, w.count,
          leBytes 4 sid ++ leBytes 4 r.pos ++ leBytes 4 (r.pos + c.tokenCount), none⟩))

/-- Tally commands and CANARY_SET (R264, R337, R338): an allocation takes a run of free Tallies for the context at 0, a freed one
leaves the table, a set one takes the COUNT given; THRESHOLD is 100 to 1,000,000 µs. -/
def Obligations.TallyCommandRows : Prop :=
  ∀ t i c (s w : State), w = s.advance t →
    (∀ n k, Executing s 0x0500 i c → s.ctxNotOpen c c.ctxId = false → c.arg 0x1C 2 = n → 1 ≤ n → n ≤ 256 → c.tally = 0 → s.freeRun n = some k →
      ∃ u : State, exec (.tallyAlloc t i) s = .next (u.complete c ⟨E.ok, w.count, leBytes 2 k, none⟩) ∧
        u = { w with tallies := u.tallies, foreman := u.foreman } ∧
        (∀ j, k ≤ j → j < k + n → tget u.tallies j = some ⟨true, c.ctxId, (s.ctx c.ctxId).gen, 0, false, 0, []⟩) ∧
        ∀ j, (j < k ∨ k + n ≤ j) → tget u.tallies j = tget s.tallies j) ∧
    (∀ x, Executing s 0x0501 i c → 64 ≤ c.tally → c.tally ≤ 4095 → s.cmdTally c = some x → x.waiters = [] →
      (s.namedTallies c.ctxId).contains c.tally = false →
      exec (.tallyFree t i) s = .next (State.complete c ⟨E.ok, w.count, [], none⟩ (State.bumpConfig { w with tallies := tdel s.tallies c.tally }))) ∧
    (∀ x, Executing s 0x0502 i c → 64 ≤ c.tally → c.tally ≤ 4095 → s.cmdTally c = some x → x.waiters = [] →
      exec (.tallySet t i) s = .next (State.complete c ⟨E.ok, w.count, [], none⟩ (State.bumpConfig { w with
        tallies := tmod s.tallies c.tally fun x => { x with count := c.arg 0x20 4, overflow := false } }))) ∧
    (∀ n, Executing s 0x0600 i c → c.arg 0x18 4 = n →
      (100 ≤ n → n ≤ 1000000 →
        exec (.canarySet t i) s = .next (State.complete c ⟨E.ok, w.count, [], none⟩ (State.bumpConfig { w with threshold := n }))) ∧
      ((n < 100 ∨ 1000000 < n) → exec (.canarySet t i) s = .next (w.complete c (Answer.fail E.range))))

/-- A command whose checks before its payload failed completes with their code and has no effect: nothing changes but the
rings, the Foreman and what it sends (R313, R316). -/
def Obligations.RefusedCommand : Prop :=
  ∀ (k : Instr) t i op (s : State) c, opcodeOf k = some (t, i, op) → Up s → s.foreman.exec = some c → c.inst = i →
    Slot.opcode c.slot = op → s.foreman.restarting = false → s.mode ≠ .recovering → c.pre ≠ 0 →
    exec k s = .next ((s.advance t).complete c (Answer.fail c.pre)) ∧ SameButRings (s.advance t) ((s.advance t).complete c (Answer.fail c.pre))

/-- A completion (R316): the entry goes to the slot at WR_PTR, WR_PTR advances, a buffer result sets RESULT_BUSY, and nothing but
the instance, the Foreman and what it sends next changes. -/
def Obligations.CompletionIsPosted : Prop :=
  ∀ (s : State) c (a : Answer), c.inst.idx < s.insts.length →
    SameButRings s (s.complete c a) ∧ (s.complete c a) = ({ s.postCompletion c a with foreman := { s.foreman with exec := none }, lastActivity := s.count }).pump pumpFuel ∧
    ((s.postCompletion c a).inst c.inst).cplQ.wr = ((s.inst c.inst).cplQ.wr + 1) % (s.inst c.inst).cplQ.span ∧
    ((s.postCompletion c a).inst c.inst).resultBusy = ((s.inst c.inst).resultBusy || a.buffer.isSome) ∧
    ((s.postCompletion c a).inst c.inst).cmdQ = (s.inst c.inst).cmdQ ∧ ((s.postCompletion c a).inst c.inst).evtQ = (s.inst c.inst).evtQ

/-- Queries change nothing, and their EFFECT_STAMP is 0: DEVICE_QUERY, CONTEXT_QUERY, STREAM_QUERY, IMAGE_QUERY, FP_QUERY,
TALLY_READ, FAULT_QUERY, ASHPIT_READ, COUNTER_READ, TELEMETRY_READ (R314, R327, R335 to R340, Tables 14.2 to 14.15). -/
def Obligations.QueryRows : Prop :=
  ∀ t i c (s w : State), w = s.advance t →
    (Executing s 0x0001 i c → exec (.deviceQuery t i) s = .next (w.complete c ⟨E.ok, 0,
      verBytes s.boot.activeFw ++ verBytes s.boot.activeStoker ++ leBytes 2 (Config.steppingCode s.fuses.b0).toNat ++
        leBytes 1 s.routing.device ++ leBytes 1 s.mode.code ++ leBytes 4 s.replicaEpoch ++ leBytes 4 s.storeEpoch, none⟩)) ∧
    (Executing s 0x0104 i c → c.ctxId ≠ 0 → ((s.ctx c.ctxId).state = .free ∨ (s.ctx c.ctxId).domain = i.domain) →
      exec (.contextQuery t i) s = .next (w.complete c ⟨E.ok, 0, [], some (w.ctxRecord c.ctxId)⟩)) ∧
    (∀ x, Executing s 0x0205 i c → s.stream c.streamId = some x → x.e.state ≠ .free → x.e.domain = i.domain →
      (c.arg 0x20 8 = 0 ∨ c.arg 0x20 8 = x.e.admitStamp) →
      exec (.streamQuery t i) s = .next (w.complete c ⟨E.ok, 0, [], some (w.entryBytes c.streamId x.e)⟩)) ∧
    (∀ r, Executing s 0x0302 i c → s.ctxBad c c.ctxId = false → c.arg 0x1A 1 ≤ 5 → s.queried c = some r →
      exec (.imageQuery t i) s = .next (w.complete c ⟨E.ok, 0, [], some (w.installRecord c.ctxId r)⟩)) ∧
    (Executing s 0x0405 i c → exec (.fpQuery t i) s = .next (w.complete c ⟨E.ok, 0, w.fpRecordBytes, none⟩)) ∧
    (∀ x, Executing s 0x0503 i c → 64 ≤ c.tally → c.tally ≤ 4095 → s.cmdTally c = some x →
      exec (.tallyRead t i) s = .next (w.complete c ⟨E.ok, 0,
        leBytes 4 x.count ++ leBytes 4 (x.waiters.length % 512 + 65536 * b2n x.overflow), none⟩)) ∧
    (Executing s 0x0601 i c → exec (.faultQuery t i) s = .next (w.complete c ⟨E.ok, 0, w.faultBytes, none⟩)) ∧
    (∀ r (v : State), Executing s 0x0602 i c → v = w.meetAshpit (c.arg 0x18 4) →
      (v.ashpit.find? fun r => r.num == c.arg 0x18 4) = some r →
      exec (.ashpitRead t i) s = .next (v.complete c ⟨E.ok, 0, [], some (ashpitHeader i.domain r)⟩)) ∧
    (∀ n l, Executing s 0x0700 i c → (c.ctxId = 0 ∨ s.ctxBad c c.ctxId = false) → c.arg 0x1C 2 = n → 1 ≤ n → n ≤ 64 → s.counterList c = l →
      c.arg 0x1A 2 + n ≤ l.length →
      exec (.counterRead t i) s = .next (w.complete c ⟨E.ok, 0, [], some (((l.drop (c.arg 0x1A 2)).take n).flatMap (leBytes 8))⟩)) ∧
    (Executing s 0x0701 i c → exec (.telemetryRead t i) s = .next (w.complete c ⟨E.ok, 0, w.telemetry, none⟩))

/-- Context commands (R27, R28, R30, R250, R327 to R329, R345): what each changes, and that nothing else does but the rings.
CONTEXT_RESET of a context that a fault reset has reached completes at once; otherwise it waits. -/
def Obligations.ContextRows : Prop :=
  ∀ t i c (s w : State), w = s.advance t →
    (Executing s 0x0100 i c → c.ctxId ≠ 0 → s.domains.ports.contains (i.domain, true) = true → (s.ctx c.ctxId).state = .free →
      resvRangeOk (resvOf c) = true → (w.setCtx c.ctxId (w.newCtx c)).createFits c.ctxId = true →
      ∃ u : State, exec (.contextCreate t i) s = .next (u.complete c ⟨E.ok, w.count, leBytes 2 (((s.ctx c.ctxId).gen + 1) % 65536), none⟩) ∧
        u = { w with ctxs := u.ctxs, rows := u.rows, freshCtr := u.freshCtr, foreman := u.foreman } ∧
        (u.ctx c.ctxId).state = .opened ∧ (u.ctx c.ctxId).domain = i.domain ∧ (u.ctx c.ctxId).gen = ((s.ctx c.ctxId).gen + 1) % 65536 ∧
        (u.ctx c.ctxId).resv = resvOf c ∧ (u.ctx c.ctxId).settings = Config.defaultSettings ∧ (u.ctx c.ctxId).evInst = i ∧
        (u.ctx c.ctxId).failOpen = bit (c.arg 0x1A 1) 0 ∧ ∀ k, k ≠ c.ctxId → u.ctx k = s.ctx k) ∧
    (Executing s 0x0101 i c → s.ctxNotOpen c c.ctxId = false → s.ctxStreams c.ctxId ≠ [] →
      exec (.contextClose t i) s = .next (((w.modCtx c.ctxId fun x => { x with state := .closing }).bumpConfig).complete c ⟨E.ok, w.count, [], none⟩)) ∧
    (Executing s 0x0102 i c → s.ctxBad c c.ctxId = false → ((s.ctx c.ctxId).state = .opened ∨ (s.ctx c.ctxId).state = .closing) →
      ((s.ctx c.ctxId).faulted = true →
        exec (.contextReset t i) s = .next (w.bumpConfig.complete c ⟨E.ok, w.count, [], none⟩)) ∧
      ((s.ctx c.ctxId).faulted = false →
        ∃ v : State, v = ((w.resetContext c.ctxId 11).progressCtx c.ctxId).bumpConfig ∧
          exec (.contextReset t i) s = .next (State.pump pumpFuel { v with
            insts := (v.modInst i fun x => { x with working := some ⟨c, .reset c.ctxId (s.ctx c.ctxId).gen, w.count⟩ }).insts
            foreman := { v.foreman with exec := none } }))) ∧
    (∀ k v, Executing s 0x0103 i c → s.ctxNotOpen c c.ctxId = false → c.arg 0x1A 2 = k → c.arg 0x20 8 = v → k < 23 →
      v < 2 ^ (Setting.spec.getD k (0, 0, 0)).1 → w.settingCheck c.ctxId k v = 0 → k ≠ Setting.draftKMax →
      exec (.contextSet t i) s =
        .next (((w.modCtx c.ctxId fun x => { x with settings := x.settings.set k v }).bumpConfig).complete c ⟨E.ok, w.count, [], none⟩)) ∧
    (Executing s 0x0105 i c → s.ctxNotOpen c c.ctxId = false → resvRangeOk (resvOf c) = true → s.usesMore c.ctxId (resvOf c) = false →
      (w.modCtx c.ctxId fun x => { x with resv := resvOf c }).capacityFits c.ctxId = true →
      ∃ u : State, exec (.capacitySet t i) s = .next (u.complete c ⟨E.ok, w.count, [], none⟩) ∧
        u = { w with ctxs := u.ctxs, rows := u.rows, freshCtr := u.freshCtr, foreman := u.foreman, flueHomes := u.flueHomes } ∧
        (u.ctx c.ctxId).resv = resvOf c ∧ (u.ctx c.ctxId).settings = (s.ctx c.ctxId).settings ∧ ∀ k, k ≠ c.ctxId → u.ctx k = s.ctx k) ∧
    (Executing s 0x0002 i c → s.noContexts = true → layoutOk (layoutOf c) = true →
      exec (.layoutSet t i) s =
        .next ((({ w with layoutRec := layoutOf c }).bumpConfig).complete c ⟨E.ok, w.count, leBytes 4 (hostPages (layoutOf c)), none⟩))

/-- Stream commands (R36, R41, R215, R331): HOLD holds with cause HOST and RESUME clears it; SET writes the fields its mask names
and no other; CLOSE ends the run and drains; a stream that is not in the state the command needs is answered E_STATE. -/
def Obligations.StreamCommandRows : Prop :=
  ∀ t i c sid (s w : State) x, w = s.advance t → c.streamId = sid → s.stream sid = some x → x.e.domain = i.domain →
    (c.arg 0x20 8 = 0 ∨ c.arg 0x20 8 = x.e.admitStamp) →
    (Executing s 0x0201 i c → x.e.state.live = true →
      exec (.streamClose t i) s = .next (State.complete c ⟨E.ok, w.count, [], none⟩
        (((w.endRun sid (w.count + s.streamSetting sid Setting.dG) 12 none).drain sid 12).progress sid))) ∧
    (Executing s 0x0202 i c → (x.e.state = .intake ∨ x.e.state = .generating) →
      ∃ u : State, exec (.streamHold t i) s = .next (u.complete c ⟨E.ok, w.count, [], none⟩) ∧ u = { w with streams := u.streams } ∧
        u.stream sid = some { x with e := { x.e with state := .held, resume := x.e.state, host := true } } ∧
        ∀ k, k ≠ sid → u.stream k = s.stream k) ∧
    (Executing s 0x0203 i c → x.e.state = .held → x.e.host = true → x.e.late = false → x.e.replay = false →
      ∃ u : State, exec (.streamResume t i) s = .next (State.complete c ⟨E.ok, w.count, [], none⟩ (u.progress sid)) ∧
        u = { w with streams := u.streams } ∧ u.stream sid = some { x with e := { x.e with state := x.e.resume, host := false } }) ∧
    (Executing s 0x0204 i c → x.e.state.live = true → streamSetBad c = false → streamSetRange c = false →
      ∃ u : State, exec (.streamSet t i) s = .next (u.complete c ⟨E.ok, w.count, [], none⟩) ∧ u = { w with streams := u.streams } ∧
        ∃ y, u.stream sid = some y ∧ y = { x with e := y.e } ∧
          (bit (c.arg 0x28 1) 0 = true → y.e.priority = c.arg 0x29 1) ∧ (bit (c.arg 0x28 1) 0 = false → y.e.priority = x.e.priority) ∧
          (bit (c.arg 0x28 1) 1 = true → y.e.deadline = c.arg 0x30 8) ∧ (bit (c.arg 0x28 1) 1 = false → y.e.deadline = x.e.deadline) ∧
          (bit (c.arg 0x28 1) 2 = true → y.e.maxLength = c.arg 0x2C 4) ∧ (bit (c.arg 0x28 1) 2 = false → y.e.maxLength = x.e.maxLength) ∧
          y.e.state = x.e.state) ∧
    (∀ k r, (k, r) ∈ [(.streamClose t i, ((0x0201 : Nat), !x.e.state.live)), (.streamHold t i, (0x0202, !(x.e.state == .intake || x.e.state == .generating))),
        (.streamResume t i, (0x0203, !x.e.host))] → Executing s r.1 i c → x.e.state ≠ .free → r.2 = true →
      exec k s = .next (w.complete c (Answer.fail E.state)))

/-- PREFIX_DROP deletes the snapshot at EFFECT_STAMP (R332): it and it alone leaves the store, its pages go to zeroing, a later
restore of its handle finds none and gets E_HANDLE, and restores and saves in progress stand. -/
def Obligations.PrefixDropRow : Prop :=
  ∀ t i c (s w u : State) n, w = s.advance t → Executing s 0x0206 i c → s.ctxBad c c.ctxId = false →
    ((s.ctx c.ctxId).state = .opened ∨ (s.ctx c.ctxId).state = .closing) → s.snapshot c.ctxId (c.arg 0x20 8) = some n →
    s.poisoned = [] → u = { w with
      snapshots := s.snapshots.filter fun m => snapKey m != snapKey n
      zeroing := s.zeroing ++ n.pages.filter fun p => !s.zeroing.contains p } →
    exec (.prefixDrop t i) s = .next (u.complete c ⟨E.ok, w.count, [], none⟩) ∧
      (u.complete c ⟨E.ok, w.count, [], none⟩).snapshots = u.snapshots ∧ u.snapshot c.ctxId (c.arg 0x20 8) = none ∧
      (u.complete c ⟨E.ok, w.count, [], none⟩).streams = s.streams ∧
      (∀ r sid, r.ctx = c.ctxId → r.handle = c.arg 0x20 8 → r.mode = 2 → u.freeEntry = some sid → (u.admitStream r).2 = (sid, hsBad)) ∧
      (∀ t2 sid m, Ready u → (u.stream sid).bind (·.restore) = some m →
        exec (.snapshotRestoreComplete t2 sid .clean) u = .next (State.progress sid ((u.advance t2).prefixRestored sid m))) ∧
      (∀ t2 sid m, Ready u → (u.stream sid).bind (·.saving) = some m → snapKey m = snapKey n → pagesOf m.bytes ≤ m.pages.length →
        exec (.snapshotWriteComplete t2 sid false) u = .next (State.progress sid (((u.advance t2).endSave sid E.ok).putSnapshot m)) ∧
        m ∈ (((u.advance t2).endSave sid E.ok).putSnapshot m).snapshots)

/-- Admission (R23, R31, R34, R36): a request that passes takes the lowest FREE entry at its stamp, ADMITTED, with the pins in
force, its own fields and zero pointers, and is answered with its stream; by packet and by command. One that fails is answered with
the check's code, and no entry changes. -/
def Obligations.AdmissionRows : Prop :=
  (∀ (s : State) r sid, s.admitCheck r = 0 → s.freeEntry = some sid → r.mode ≠ 2 →
    ∃ u : State, s.admitStream r = (u, sid, if r.mode = 0 then 0 else 1) ∧ u = { s with streams := u.streams, freshCtr := u.freshCtr } ∧
      (∀ k, k ≠ sid → u.stream k = s.stream k) ∧
      ∃ x, u.stream sid = some x ∧ x.e.state = .admitted ∧ x.e.ctx = r.ctx ∧ x.e.domain = r.domain ∧ x.e.priority = r.prio ∧
        x.e.vocab = r.vocab ∧ x.e.deadline = r.deadline ∧ x.e.maxLength = r.maxLength ∧ x.e.admitStamp = s.count ∧ x.e.handle = r.handle ∧
        x.e.imagePins = (s.ctx r.ctx).pinsNow ∧ x.e.commitPtr = 0 ∧ x.e.lengthPtr = 0 ∧ x.e.rewindMark = 0 ∧ x.e.ckptValid = false) ∧
  (∀ t port p (s v : State), Arrives s port 1 p → v = taken s t port p →
    (v.admitCheck (AdmitReq.ofPacket (s.portDomain port) port p) = 0 →
      ∀ a, a = v.admitStream (AdmitReq.ofPacket (s.portDomain port) port p) →
      exec (.admitPacket t port p) s = .next (a.1.handOff ⟨s.portDomain port, port, (AdmitReq.ofPacket (s.portDomain port) port p).ctx, some a.2.1,
        0, 0, admissionAnswer port v.count a.2.1 0 a.2.2 (field p 0x16 2)⟩)) ∧
    (∀ e, v.admitCheck (AdmitReq.ofPacket (s.portDomain port) port p) = e → e ≠ 0 →
      ∃ u : State, exec (.admitPacket t port p) s = .next u ∧ u.streams = s.streams ∧
        u = v.handOff ⟨s.portDomain port, port, 0, none, 0, 0, admissionAnswer port v.count 0 e 0 (field p 0x16 2)⟩)) ∧
  (∀ t i c (s w : State) sid, w = s.advance t → Executing s 0x0200 i c → w.admitCheck (.ofSlot i c.slot) = 0 → s.freeEntry = some sid →
    (AdmitReq.ofSlot i c.slot).mode ≠ 2 →
    exec (.streamAdmit t i) s = .next ((w.admitStream (.ofSlot i c.slot)).1.complete c
      ⟨E.ok, w.count, leBytes 2 sid ++ leBytes 6 (if (AdmitReq.ofSlot i c.slot).mode = 0 then 0 else 1) ++ leBytes 8 w.count, none⟩))

/-- Images and tables (R21, R57, R160, R334, R413): a staged piece is appended at its offset; an install waits for its load, whose end
puts it in force under the next number and completes the command; a vocabulary and normalisation pairs are in force at once. -/
def Obligations.ImageRows : Prop :=
  ∀ t i c (s w : State), w = s.advance t →
    (Executing s 0x0300 i c → w.stageCheck c = 0 → c.stageFirst = false → c.stageDiscard = false →
      exec (.imageStage t i) s = .next (((w.setStage i (c.arg 0x18 1) (s.staged i (c.arg 0x18 1) ++ c.payload)).bumpConfig).complete c
        ⟨E.ok, w.count, leBytes 8 (s.staged i (c.arg 0x18 1) ++ c.payload).length, none⟩)) ∧
    (∀ img kind k staged x, Executing s 0x0301 i c → w.installCheck c = 0 → kind = c.arg 0x1A 1 → k = c.arg 0x1C 1 → staged = bit (c.arg 0x1B 1) 0 →
      img = w.image c staged k → x = installOf 0 0 img (w.loadBody (s.ctx c.ctxId) kind img).body →
      exec (.imageInstall t i) s = .next (w.startWork c (.install c.ctxId (s.ctx c.ctxId).gen kind
        { x with pages := w.allocRegion (kindRegion kind) (pagesOf x.imageBytes), homes := w.grateHomes c.ctxId x } (if staged then some k else none)))) ∧
    (∀ k id gen kind x, Ready s → s.foreman.restarting = false → (s.inst i).working = some ⟨k, .install id gen kind x none, 0⟩ →
      ((s.ctx id).state = .opened ∨ (s.ctx id).state = .closing) → (s.ctx id).gen = gen → (s.ctx id).consistent kind x.body = true →
      exec (.imageLoadComplete t i) s = .next (((w.makeAvailable id kind x).bumpConfig).endWork i
        ⟨E.ok, w.count, leBytes 4 ((s.ctx id).nextInstall.getD kind 1) ++ verBytes x.version, none⟩)) ∧
    (Executing s 0x0303 i c → w.vocabCheck c = 0 → bit (c.arg 0x19 1) 1 = false → bit (c.arg 0x19 1) 0 = false → tget s.vocabs (c.arg 0x18 1) = none →
      exec (.vocabLoad t i) s = .next ((({ w with vocabs := tset (tdel s.vocabs (c.arg 0x18 1)) (c.arg 0x18 1) { (loadVocab c.payload).body with
        pages := w.allocRegion 4 (pagesOf (vocabBytes (loadVocab c.payload).body)) } }).bumpConfig).complete c ⟨E.ok, w.count, [], none⟩)) ∧
    (∀ n, Executing s 0x0308 i c → c.arg 0x1A 2 = n → Slot.descLen c.slot = 4 * n → 64 ≤ n → n ≤ 2048 → n % 64 = 0 → c.arg 0x18 1 ≤ 3 →
      (∀ k, k < c.payload.length / 2 → bf16Finite (field c.payload (2 * k) 2) = true) →
      ∃ k, k ≤ 1 ∧ k = (s.norm i.domain (c.arg 0x18 1)).target (c.arg 0x19 1) (Config.normBank s.freshCtr) ∧ exec (.tapNormLoad t i) s = .next (State.complete c ⟨E.ok, w.count, leBytes 1 k, none⟩ (State.bumpConfig { w with
        norms := tset s.norms (normKey i.domain (c.arg 0x18 1))
          ((s.norm i.domain (c.arg 0x18 1)).load k ⟨c.arg 0x19 1, normPairs c.payload⟩)
        freshCtr := s.freshCtr + 1 })))

/-- Adapters (R49, R50, R154): the lowest free slot is taken for the context; a publish waits for its load, one that a check stops
completes with its code; a withdrawn version takes no new pins; a freed slot's pages go to zeroing. -/
def Obligations.AdapterRows : Prop :=
  ∀ t i c (s w : State), w = s.advance t →
    (∀ k, Executing s 0x0304 i c → s.ctxNotOpen c c.ctxId = false → s.freeSlot = some k →
      exec (.adapterSlotAlloc t i) s = .next (State.complete c ⟨E.ok, w.count, leBytes 2 k, none⟩
        (State.bumpConfig { w with adapters := tset s.adapters k ⟨c.ctxId, (s.ctx c.ctxId).gen, 1, [], []⟩ }))) ∧
    (∀ a, Executing s 0x0305 i c → s.ownedSlot c = some a → c.adapterSlot ≤ 255 →
      (∀ v ∈ a.versions, s.adapterPinCount c.adapterSlot v.version = 0) →
      exec (.adapterSlotFree t i) s = .next (State.complete c ⟨E.ok, w.count, [], none⟩ (State.bumpConfig (State.releasePages (a.versions.flatMap (·.pages))
        { w with adapters := tdel s.adapters c.adapterSlot })))) ∧
    (∀ v, Executing s 0x0306 i c → v = adapterOf c.payload (loadAdapter (bodyModels ((s.ctx c.ctxId).bodyOf 2)) c.payload).body →
      exec (.adapterPublish t i) s = .next (if w.publishCheck c = 0 then
          w.startWork c (.adapter c.ctxId c.adapterSlot { v with pages := w.allocRegion 4 (adapterPages v) })
        else w.complete c (Answer.fail (w.publishCheck c)))) ∧
    (∀ a v, Executing s 0x0307 i c → s.ownedSlot c = some a → (a.versions.find? fun v => v.version == c.arg 0x1C 2) = some v →
      v.withdrawn = false →
      exec (.adapterWithdraw t i) s = .next (State.complete c ⟨E.ok, w.count, [], none⟩ (State.bumpConfig { w with
        adapters := tmod s.adapters c.adapterSlot fun a => { a with
          versions := a.versions.map fun v => if v.version = c.arg 0x1C 2 then { v with withdrawn := true } else v } })))

/-- FP_SET_DEFINE (R95): a set is defined with the fields of Table 5.1, each in its range; a set that holds an entry is not
redefined, and the command completes with E_BUSY. -/
def Obligations.FpSetDefineRow : Prop :=
  ∀ t i c (s w : State) set n vocab base seed, w = s.advance t → Executing s 0x0400 i c → c.arg 0x18 1 = set → c.arg 0x19 1 = n →
    c.arg 0x1A 1 = vocab → c.arg 0x20 8 = base → c.arg 0x28 8 = seed →
    (set ≤ 63 → 8 ≤ n → n ≤ 64 → vocab ≤ 7 → 2 ≤ base → base ≤ 2 ^ 61 - 2 →
      ((∀ b ∈ s.store.buckets, ∀ x ∈ b.2, x.st ≠ 0 → x.set ≠ set) →
        exec (.fpSetDefine t i) s = .next (State.complete c ⟨E.ok, w.count, [], none⟩ (State.bumpConfig { w with
          store := { s.store with sets := tset s.store.sets set ⟨n, vocab, base, seed⟩ } })) ∧
        tget (tset s.store.sets set ⟨n, vocab, base, seed⟩) set = some ⟨n, vocab, base, seed⟩) ∧
      ((∃ b ∈ s.store.buckets, ∃ x ∈ b.2, x.st ≠ 0 ∧ x.set = set) →
        exec (.fpSetDefine t i) s = .next (w.complete c (Answer.fail E.busy)))) ∧
    ((63 < set ∨ n < 8 ∨ 64 < n ∨ 7 < vocab ∨ base < 2 ∨ 2 ^ 61 - 2 < base) →
      exec (.fpSetDefine t i) s = .next (w.complete c (Answer.fail E.range)))

/-- The fingerprint store (R104 to R106, R111): an epoch opens, takes records, commits at its count, raising
STORE_EPOCH, or is aborted; the sweep ends once every item stamped before the commit has been answered. -/
def Obligations.FingerprintRows : Prop :=
  ∀ t i c (s w : State), w = s.advance t →
    (Executing s 0x0401 i c → s.store.epoch = .idle → s.store.forwarded = [] → s.store.lost = [] → s.poisoned = [] →
      (∀ q ∈ maskPorts (c.arg 0x18 1), (s.driftPort q).link = .active) →
      exec (.fpEpochOpen t i) s = .next (State.complete c ⟨E.ok, w.count, leBytes 4 ((s.storeEpoch + 1) % 2 ^ 32), none⟩
        (State.bumpConfig { w with
          store := { s.store with epoch := .opened, fromPeer := false, records := 0, touched := [], peers := maskPorts (c.arg 0x18 1) } }))) ∧
    (∀ rs r, Executing s 0x0402 i c → fpRecords c.payload = rs → s.store.ownOpen = true →
      s.store.records + rs.length ≤ 16777216 → rs.any s.recordBad = false → r = w.storeRecords rs →
      r.1.store.peers = [] →
      exec (.fpUpdate t i) s = .next (State.complete c ⟨E.ok, w.count,
          countOf .applied r.2 ++ countOf .duplicate r.2 ++ countOf .absent r.2 ++ countOf .full r.2 ++ leBytes 4 r.1.store.records, none⟩ r.1.bumpConfig)) ∧
    (∀ k b x, s.poisoned = [] → x = s.store.record k b → w.storeRecord k b = ({ w with store := { x.1 with lost := s.store.lost } }, x.2.1)) ∧
    (Executing s 0x0403 i c → s.store.ownOpen = true → s.store.peers = [] →
      exec (.fpEpochCommit t i) s = .next (State.complete c ⟨E.ok, w.count, leBytes 4 ((s.storeEpoch + 1) % 2 ^ 32), none⟩
        (State.bumpConfig { w with
          storeEpoch := (s.storeEpoch + 1) % 2 ^ 32
          store := { s.store with epoch := .sweeping, effect := w.count, peers := [], fromPeer := false } }))) ∧
    (Executing s 0x0404 i c → s.store.ownOpen = true → s.store.peers = [] → s.poisoned = [] →
      exec (.fpEpochAbort t i) s = .next (State.complete c ⟨E.ok, w.count, [], none⟩
        (State.bumpConfig (State.startForwarded (State.active { w with store := s.store.settle false }))))) ∧
    (Ready s → s.store.epoch = .sweeping → (∀ p ∈ s.items, s.store.effect ≤ p.2.stamp ∨ p.2.answered = true) →
      exec (.fpSweepComplete t) s = .next w.sweepDone.startForwarded ∧ (s.poisoned = [] → w.sweepDone.store = s.store.settle true)) ∧
    (Ready s → s.store.epoch = .sweeping → (∃ p ∈ s.items, p.2.stamp < s.store.effect ∧ p.2.answered = false) →
      exec (.fpSweepComplete t) s = .next w)

/-! ### Clocks, power and control windows -/

/-- BLK_PORST_N resets the block but for the fuses and the test access port's register; its release starts power-on boot;
the count starts at 0 once, and reports every Drift port whose reference clock is absent; a lost PILOT_REFCLK stops the count and every
clock but the Drift PHYs', and asserts FAULT_N (R12, R370, R371, R404, R408, R410). -/
def Obligations.PilotDomainRows : Prop :=
  (∀ t s, ∃ u, exec (.blkPorstAssert t) s = .next u ∧ u.porst = true ∧ u.running = false ∧ u.count = 0 ∧ u.pilotFault = false ∧
    u.streams = [] ∧ u.items = [] ∧ u.ctxs = [] ∧ u.mem = [] ∧ u.lamp.held = false ∧ u.reports = [] ∧ u.insts = State.reset.insts ∧
    u.boot.phase = .inReset ∧ u.boot.active = [] ∧ u.fuses = s.fuses ∧ u.mgmt.jtag = s.mgmt.jtag ∧ u.pending = s.pending ∧ u.out = s.out) ∧
  (∀ t (s : State), s.porst = true →
    exec (.blkPorstRelease t) s = .next { s with porst := false, boot := { s.boot with phase := .waitCount } }) ∧
  (∀ t (s : State), Up s → s.running = false → s.boot.phase = .waitCount →
    (s.pins.driftRef = true →
      exec (.deviceCountStart t) s = .next { s with count := 0, running := true, boot := { s.boot with phase := .waitCommit } }) ∧
    (s.pins.driftRef = false → s.reports.length ≤ 253 →
      ∃ u, exec (.deviceCountStart t) s = .next u ∧ u.count = 0 ∧ u.running = true ∧ u.boot = { s.boot with phase := .waitCommit } ∧
        ∀ q, q < 3 → ∃ r ∈ u.reports, r.code = Rep.portDown ∧ r.detail = [16 + q, 0])) ∧
  (∀ t (s : State), Up s → ∃ u, exec (.pilotRefclkLoss t) s = .next u ∧
    u = { s.advance t with running := false, pilotFault := true, pins := { s.pins with faultN := true } } ∧
    ∀ k, (∀ q, k ≠ .driftPhy q) → u.clockRuns k = false)

/-- The Hearth rows: one that is not required powered, 200 µs without a packed slice, is gated, to ROW_OFF when no PLL must
stay locked; a waking row becomes ACTIVE; after 10 ms of an idle device DORMANT turns every row off, with every fast clock. An engine
of an ACTIVE row is clock-gated while it is not packed (R12, R135, R136, R372, R373, R375). -/
def Obligations.RowPowerRows : Prop :=
  (∀ t k (s : State) (r : Row), Ready s → s.rows[k]? = some r → r.power = .active → s.gateRows.contains k = false →
    s.warmSum < s.warmPowered.length → r.lastPacked + 20000 ≤ (s.advance t).count →
    exec (.rowPowerGate t k) s =
      .next { s.advance t with rows := lmod s.rows k fun x => { x with power := if s.rowsLocked then .offLocked else .off } }) ∧
  (∀ t k (s : State) (r : Row), Ready s → s.rows[k]? = some r → r.waking = true →
    ∃ u, exec (.rowWakeComplete t k) s = .next u ∧ u = { s.advance t with rows := u.rows } ∧
      u.rows[k]? = some ⟨.active, false, (s.advance t).count⟩ ∧ ∀ j, j ≠ k → u.rows[j]? = s.rows[j]?) ∧
  (∀ t (s : State), Ready s → s.power = .run → s.idleDevice = true → s.lastActivity + 1000000 ≤ (s.advance t).count →
    ∃ u, exec (.dormantEntry t) s = .next u ∧ u = { s.advance t with power := .dormant, rows := u.rows } ∧
      (∀ r ∈ u.rows, r.power = .off ∧ r.waking = false) ∧ (∀ e, u.hearthState e = .rowOff) ∧ u.fastClocks = false) ∧
  (∀ (s : State) e r, s.rows[e / 8]? = some r →
    (r.power = .active → s.packed e = true → s.hearthState e = .active) ∧
    (r.power = .active → s.packed e = false → s.hearthState e = .clockGated) ∧
    (r.power ≠ .active → s.hearthState e ≠ .active ∧ s.hearthState e ≠ .clockGated)) ∧
  (∀ (s : State) k, s.chains = [] → s.passes = [] → s.clockRuns (.arithRow k) = false ∧ s.clockRuns .arithFlue = false)

/-- CORE_VID moves one code toward its target, at least 100 µs after its last step (R380); a sample of the sensors stores the
readings and, at 115 °C, asserts THERM_TRIP_N and declares a device fault; 100 ms below 100 °C release it (R364, R365, R381). -/
def Obligations.VoltageAndTemperatureRows : Prop :=
  (∀ t (s : State), Up s → s.recovery = none → s.boot.phase = .done → s.mode = .normal →
    (∀ c, s.pins.vidAt = some c → c + 10000 ≤ (s.advance t).count) → s.pins.vid < s.vidTarget →
    exec (.vidStep t) s = .next { s.advance t with pins := { s.pins with vid := s.pins.vid + 1, vidAt := some (s.advance t).count } }) ∧
  (∀ t (s : State) v, Up s → (∀ k, k < 128 → siteReading (v.getD k (none, none)) < 1840) → v.length = 128 →
    ∃ u, exec (.sensorSample t v) s = .next u ∧ u = { s.advance t with pins := u.pins } ∧ u.pins.sites = v.map siteReading ∧
      u.pins.sampledAt = (s.advance t).count ∧ u.pins.thermTripN = s.pins.thermTripN ∧ u.pins.faultN = s.pins.faultN) ∧
  (∀ t (s : State) v k, Up s → s.mode = .normal → s.recovery = none → s.pins.thermTripN = false → k < 128 → v.length = 128 →
    1840 ≤ siteReading (v.getD k (none, none)) →
    ∃ u, exec (.sensorSample t v) s = .next u ∧ u.pins.thermTripN = true ∧ u.pins.tripAt = (s.advance t).count ∧
      u.mode = .recovering ∧ u.pins.faultN = true) ∧
  (∀ t (s : State) c, Up s → s.pins.thermTripN = true → s.pins.below100 = some c → c + 10000000 ≤ (s.advance t).count →
    ∃ u, exec (.thermalRelease t) s = .next u ∧ u.pins = { s.pins with thermTripN := false } ∧
      u = { s.advance t with pins := u.pins, reports := u.reports, reportsDropped := u.reportsDropped, reportSeq := u.reportSeq,
                             out := u.out, mgmt := u.mgmt })

/-- The Lamp operations: Table 13.4, against the Lamp as the operation finds it; a requester is a port and a domain, and owns the
Lamp when port, domain and OWNER_ID match. A grant sets GRANT and EXPIRY; a change of owner, and an expiry, queues a LAMP event
to every instance WINDOW_MASK grants; expiry does not free the Lamp, and EXPIRED reads 1 from then on; its event is queued once, before
an operation that finds the lease run out (R308). -/
def Obligations.LampRows : Prop :=
  (∀ t port ctl dom o (s w : State) i own expired lease (grant : Nat → Nat → State),
    Window s port ctl dom → w = (windowed s t).lampDue → i = Inst.mk ctl dom → lease = (s.inst i).lease →
    own = (s.lamp.held = true ∧ s.lamp.port = ctl ∧ s.lamp.domain = dom ∧ s.lamp.owner = o % 8) →
    expired = (s.lamp.held = true ∧ s.lamp.expiry ≤ w.count) →
    (∀ kind br l, l = ⟨true, ctl, dom, o % 8, w.count, w.count + lease * 100000, (s.lamp.breaks + br) % 2 ^ 32, ctl, false⟩ →
      grant kind br = ({ w with lamp := l }).lampEvent kind l w.count) →
    ((lease < 1 ∨ 10000 < lease) →
      exec (.acquire t port ctl o) s = .next (w.lampResult i 0 E.range) ∧
      exec (.breakLamp t port ctl o) s = .next (w.lampResult i 2 E.range)) ∧
    (1 ≤ lease → lease ≤ 10000 →
      (s.lamp.held = false → exec (.acquire t port ctl o) s = .next ((grant LampKind.granted 0).lampResult i 0 E.ok)) ∧
      (own → exec (.acquire t port ctl o) s = .next ((grant LampKind.renewed 0).lampResult i 0 E.ok)) ∧
      (s.lamp.held = true → ¬own → ¬expired → exec (.acquire t port ctl o) s = .next (w.lampResult i 0 E.busy)) ∧
      (s.lamp.held = true → ¬own → expired → exec (.acquire t port ctl o) s = .next (w.lampResult i 0 E.lamp)) ∧
      (expired → s.lamp.port ≠ ctl → exec (.breakLamp t port ctl o) s = .next ((grant LampKind.broken 1).lampResult i 2 E.ok)) ∧
      (s.lamp.held = true → ¬expired → exec (.breakLamp t port ctl o) s = .next (w.lampResult i 2 E.busy)) ∧
      (expired → s.lamp.port = ctl → exec (.breakLamp t port ctl o) s = .next (w.lampResult i 2 E.lamp)) ∧
      (s.lamp.held = false → exec (.breakLamp t port ctl o) s = .next (w.lampResult i 2 E.state))) ∧
    ((own ∨ (expired ∧ s.lamp.port = ctl)) → exec (.release t port ctl o) s = .next
      ((({ w with lamp := { w.lamp with held := false } }).lampEvent LampKind.released w.lamp w.count).lampResult i 1 E.ok)) ∧
    (s.lamp.held = false → exec (.release t port ctl o) s = .next (w.lampResult i 1 E.state)) ∧
    (s.lamp.held = true → ¬own → ¬(expired ∧ s.lamp.port = ctl) → exec (.release t port ctl o) s = .next (w.lampResult i 1 E.lamp)) ∧
    (s.insts.length = 8 → dom < 4 → ∀ op code, ((w.lampResult i op code).inst i).lampStatus = code ∧ ((w.lampResult i op code).inst i).lampOp = op)) ∧
  (∀ t (s w : State), Up s → w = s.advance t → s.lamp.held = true → s.lamp.expiry ≤ w.count → s.lamp.expiryPosted = false →
    exec (.lampExpiry t) s = .next (({ w with lamp := { s.lamp with expiryPosted := true } }).lampEvent LampKind.expired s.lamp s.lamp.expiry)) ∧
  (∀ kind l stamp (s : State), s.lampEvent kind l stamp = { s with
    insts := s.insts.mapIdx fun k x => if s.granted (k % 4) (if k < 4 then .A else .B) then x.event Ev.lamp 0 0xFFFF stamp s.count
      (leBytes 1 kind ++ leBytes 1 (portBit l.port) ++ leBytes 1 l.domain ++ leBytes 1 l.owner) else x }) ∧
  (∀ i (s : State), bit (s.plainRead i 0x108) 0 = s.lamp.held ∧
    (bit (s.plainRead i 0x108) 1 = true ↔ s.lamp.held = true ∧ s.lamp.expiry ≤ s.count))

/-- The ring pointers (R311, Table 13.4): a CMD_TAIL write forward by 1 to 16 - LEVEL slots moves the tail, a CPL_HEAD or
EVT_HEAD write forward by at most LEVEL entries moves the head, and the Foreman then fetches; any other CMD_TAIL value sets
DOORBELL_ERROR, any other head its own error bit, and moves nothing. -/
def Obligations.RingPointerRows : Prop :=
  ∀ t port ctl dom (v : Word) (s : State), Window s port ctl dom →
    (let q := (s.inst ⟨ctl, dom⟩).cmdQ
     let move := (v.toNat % 32 + 32 - q.wr) % 32
     (1 ≤ move → move ≤ 16 - q.level →
      ∃ w u, exec (.cmdTail t port ctl v) s = .next u ∧ SameButRings (windowed s t) w ∧ u = w.pump pumpFuel ∧ SameButRings w u ∧
        ((Inst.mk ctl dom).idx < s.insts.length → (w.inst ⟨ctl, dom⟩).cmdQ.wr = (q.wr + move) % q.span)) ∧
     (16 - q.level < move →
      exec (.cmdTail t port ctl v) s = .next ((windowed s t).modInst ⟨ctl, dom⟩ fun x => { x with doorbellErr := true }))) ∧
    (let q := (s.inst ⟨ctl, dom⟩).cplQ
     let move := (v.toNat % 32 + 32 - q.rd) % 32
     (move ≤ q.level →
      exec (.cplHead t port ctl v) s =
        .next (((windowed s t).modInst ⟨ctl, dom⟩ fun x => { x with cplQ := { q with rd := (q.rd + move) % q.span } }).pump pumpFuel)) ∧
     (q.level < move →
      exec (.cplHead t port ctl v) s = .next ((windowed s t).modInst ⟨ctl, dom⟩ fun x => { x with cplHeadErr := true }))) ∧
    (let q := (s.inst ⟨ctl, dom⟩).evtQ
     let move := (v.toNat % 512 + 512 - q.rd) % 512
     (move ≤ q.level →
      exec (.evtHead t port ctl v) s =
        .next ((windowed s t).modInst ⟨ctl, dom⟩ fun x => { x with evtQ := { q with rd := (q.rd + move) % q.span } })) ∧
     (q.level < move →
      exec (.evtHead t port ctl v) s = .next ((windowed s t).modInst ⟨ctl, dom⟩ fun x => { x with evtHeadErr := true })))

/-- Q_CTRL FLUSH sets FLUSH_PENDING; at the next packet boundary the queue is discarded by moving its read pointer, without a
crossing, and FLUSH_PENDING clears (R261). -/
def Obligations.FlushRows : Prop :=
  (∀ t port ctl dom k (s : State), Window s port ctl dom → k < 3 →
    exec (.flush t port ctl k) s = .next ((windowed s t).modInst ⟨ctl, dom⟩ (·.modQueue k fun q => { q with flush := true }))) ∧
  (∀ t (i : Inst) k (s : State), Up s → ((s.inst i).queue k).flush = true →
    exec (.flushDiscard t i k) s =
      .next (((s.advance t).modInst i (·.modQueue k fun q => { q with rd := q.wr, flush := false })).pump pumpFuel)) ∧
  (∀ (q : Queue), q.wr < q.span → ({ q with rd := q.wr, flush := false } : Queue).level = 0)

/-- A read of LEDGER_TOTAL captures the other four terms and LEDGER_STATUS into the instance's shadow; a read of a low word
captures its high word (R6, R269). -/
def Obligations.CapturingReads : Prop :=
  ∀ t port ctl dom (s : State), Window s port ctl dom →
    (∃ l : Ledger, l = (windowed s t).ledger ⟨ctl, dom⟩ (s.inst ⟨ctl, dom⟩).ledgerSel.toNat ∧
      exec (.ledgerTotalRead t port ctl) s = .next ((windowed s t).modInst ⟨ctl, dom⟩ fun x =>
        { x with ledgerShadow := some ⟨[l.free, l.held, l.transit, l.orphan], l.transit == 0 && l.orphan == 0, s.ledgerFault⟩
                 ledgerRead := [] })) ∧
    (∀ off v, (off, v) ∈ [(0x008, (s.advance t).count), (0x110, s.lamp.grant), (0x118, s.lamp.expiry)] →
      exec (.lowWordRead t port ctl off) s = .next ((windowed s t).modInst ⟨ctl, dom⟩ fun x =>
        { x with shadows := tset x.shadows (off + 4) (BitVec.ofNat 32 (v / 2 ^ 32)) }))

/-- Register writes act as their access codes say (R5, Tables 11.4, 11.7, 13.2, 13.3, 13.4a): ALERT_ENABLE and LAMP_LEASE take
the bits they have, W1C bits clear, read-only words and reserved addresses ignore the write. -/
def Obligations.RegisterWriteRow : Prop :=
  ∀ t port ctl dom (v : Word) (s : State), Window s port ctl dom →
    exec (.registerWrite t port ctl 0x014 v) s =
      .next ((windowed s t).modInst ⟨ctl, dom⟩ fun x => { x with alertEnable := v.toNat % 64 }) ∧
    exec (.registerWrite t port ctl 0x018 v) s =
      .next ((windowed s t).modInst ⟨ctl, dom⟩ fun x =>
        { x with lampEvent := x.lampEvent && !v.getLsbD 3, recovered := x.recovered && !v.getLsbD 5 }) ∧
    exec (.registerWrite t port ctl 0x104 v) s =
      .next ((windowed s t).modInst ⟨ctl, dom⟩ fun x => { x with lease := v.toNat % 16384 }) ∧
    exec (.registerWrite t port ctl 0x318 v) s =
      .next (if v.getLsbD 2 then { windowed s t with ledgerFault := false } else windowed s t) ∧
    (∀ off, off ∈ [0x000, 0x004, 0x008, 0x00C, 0x010, 0x01C, 0x108, 0x10C, 0x110, 0x114, 0x118, 0x11C, 0x120, 0x304, 0x44C, 0x450] →
      exec (.registerWrite t port ctl off v) s = .next (windowed s t))

/-! ### Tallies and the Shaft -/

/-- SIGNAL n raises COUNT by n, and without waiters that is all; at 0xFFFF_FFFF it saturates and OVERFLOW is set. CONSUME n is
done at once when nobody waits and COUNT reaches n; otherwise its issuer joins the tail of the wait list. A port of 130 to 150 only
SIGNALs (R264, Table 11.5). -/
def Obligations.TallyRows : Prop :=
  ∀ t foreman req ctx tally n (s : State) (x : Tally), Ready s → 1 ≤ n → n ≤ 65535 → req < (if foreman then 2 else 151) →
    s.tallyOf ctx tally = some x →
    (x.waiters = [] → x.count + n < 2 ^ 32 →
      exec (.signal t foreman req ctx tally n) s =
        .next { s.advance t with tallies := tset s.tallies tally { x with count := x.count + n } }) ∧
    (x.waiters = [] → 2 ^ 32 ≤ x.count + n →
      exec (.signal t foreman req ctx tally n) s =
        .next { s.advance t with tallies := tset s.tallies tally { x with count := 2 ^ 32 - 1, overflow := true } }) ∧
    ((foreman = true ∨ req < 130) → s.waiting foreman req = false → x.waiters = [] → n ≤ x.count →
      exec (.consume t foreman req ctx tally n) s =
        .next { s.advance t with tallies := tset s.tallies tally { x with count := x.count - n, consumed := x.consumed + n } }) ∧
    ((foreman = true ∨ req < 130) → s.waiting foreman req = false → (x.waiters ≠ [] ∨ x.count < n) →
      exec (.consume t foreman req ctx tally n) s =
        .next { s.advance t with tallies := tset s.tallies tally { x with waiters := x.waiters ++ [⟨foreman, req, ctx, n⟩] } })

/-- A SIGNAL serves waiters in arrival order and none overtakes the head (R264, R265): a prefix of the wait list is served,
its sum leaves COUNT, and the next waiter's n is more than what is left. -/
def Obligations.SignalServesInOrder : Prop :=
  ∀ (x : Tally) n, x.count + n < 2 ^ 32 →
    ∃ k, (x.signal n).waiters = x.waiters.drop k ∧
      (x.signal n).count + ((x.waiters.take k).map Waiter.n).sum = x.count + n ∧
      (x.signal n).consumed = x.consumed + ((x.waiters.take k).map Waiter.n).sum ∧
      (∀ w, (x.signal n).waiters.head? = some w → (x.signal n).count < w.n) ∧ (x.signal n).overflow = x.overflow

/-- Host memory transactions (R287): a READ of the host-directed region returns its bytes, a WRITE stores them, byte by byte
of a memory in canonical form (an invariant: StepKeepsInvariant), and nothing else changes but the port's activity and credits; a READ outside the address map is answered UNSUPPORTED and a
WRITE there is dropped, both counted. -/
def Obligations.HostMemoryRows : Prop :=
  ∀ t port (p : Bytes) (s : State) dom, Up s → s.portActive port = true → s.portDomain port = dom →
    s.creditShort dom 4 (1 + (p.length - 64 + 63) / 64) = false →
    (∀ a, Tx.op p = 0 → Tx.formOk dom 4 0 p = true → s.decodeAddr dom p = .region a → s.hostPoisoned a (Tx.length p) = false →
      ∃ u, exec (.read t port p) s = .next u ∧ u = { windowed s t with out := u.out, shaft := u.shaft, credits := u.credits } ∧
        u.out = s.out ++ [.memCpl port (Tx.tag p) 0 (memRead s.mem a (Tx.length p))]) ∧
    (∀ a, Tx.op p = 1 → Tx.formOk dom 4 (ceilDiv (Tx.length p) 64) p = true → s.decodeAddr dom p = .region a →
      Memory.wf s.mem = true → ∃ u, exec (.write t port p) s = .next u ∧ u = { windowed s t with mem := u.mem, shaft := u.shaft, credits := u.credits } ∧
        (∀ b, (b < a ∨ a + Tx.length p ≤ b) → memGet u.mem b = memGet s.mem b) ∧
        (∀ k, k < Tx.length p → memGet u.mem (a + k) = (Tx.data p).getD k 0)) ∧
    (Tx.op p = 0 → Tx.formOk dom 4 0 p = true → s.decodeAddr dom p = .none →
      ∃ u, exec (.read t port p) s = .next u ∧ u.mem = s.mem ∧ u.out = s.out ++ [.memCpl port (Tx.tag p) 1 []] ∧
        u.domCounters = (s.memError dom).domCounters) ∧
    (Tx.op p = 1 → Tx.formOk dom 4 (ceilDiv (Tx.length p) 64) p = true → s.decodeAddr dom p = .none →
      ∃ u, exec (.write t port p) s = .next u ∧ u.mem = s.mem ∧ u.out = s.out ∧ u.domCounters = (s.memError dom).domCounters)

/-- IDLE flits are discarded and change nothing; a packet with a bad header is discarded and counted in SHAFT_HEADER_ERROR;
freed credits go back in a CREDIT packet; a host's CREDIT raises the channels' balances (R279, R282, R285). -/
def Obligations.ShaftFlowRows : Prop :=
  (∀ t port p (s : State), Up s → s.linkUp port = true → Hdr.type p = 0 → Hdr.vc p = 7 → headerBad (s.portDomain port) p = false →
    exec (.idle t port p) s = .next (s.advance t)) ∧
  (∀ t port p (s : State) dom, Up s → s.linkUp port = true → s.portDomain port = dom → headerBad dom p = true →
    s.creditShort dom (Hdr.vc p) (p.length / 64) = false →
    ∃ u, exec (.shaftHeaderError t port p) s = .next u ∧ u.domCounters = (s.domCount dom Cnt.headerError).domCounters ∧
      u = { s.advance t with domCounters := u.domCounters, shaft := u.shaft, credits := u.credits, power := u.power, lastActivity := u.lastActivity }) ∧
  (∀ t dom q (s : State), Up s → s.lowestActive dom = some q → (s.credits.getD dom DomCredits.init).due (s.advance t).count = true →
    ∃ u, exec (.creditReturn t dom) s = .next u ∧ u = { s.advance t with out := u.out, shaft := u.shaft, credits := u.credits } ∧
      u.out = s.out ++ [.credit q false ((s.credits.getD dom DomCredits.init).freed ++ [0, 0, 0]) false] ∧
      (dom < s.credits.length → (u.credits.getD dom DomCredits.init).freed = [0, 0, 0, 0, 0])) ∧
  (∀ t port p (s : State) dom c, Up s → s.linkUp port = true → s.portDomain port = dom → Hdr.type p = 8 → Hdr.vc p = 7 →
    headerBad dom p = false → bit (field p 0x10 1) 0 = false → s.credits[dom]? = some c → s.queuedTx = [] → s.foreman.exec = none →
    c.memBal + creditEntry p 4 ≤ c.memAdv → c.relBal + creditEntry p 6 ≤ c.relAdv →
    ∃ u, exec (.credit t port p) s = .next u ∧ u = { windowed s t with shaft := u.shaft, credits := u.credits } ∧
      ∃ d, u.credits[dom]? = some d ∧ d.memBal = c.memBal + creditEntry p 4 ∧ d.relBal = c.relBal + creditEntry p 6)

/-- Bulk reads (R289, R271): a completion that fits gives the command its bytes; one that reports an error, and a read that
is not completed within 1.00 ms, end the command with E_TRANSFER. -/
def Obligations.BulkReadRows : Prop :=
  (∀ t port p (s : State) b c, Up s → s.portActive port = true → Tx.op p = 2 → Tx.domain p = s.portDomain port →
    (s.bulk.find? fun b => b.dom == s.portDomain port && b.tag == Tx.tag p) = some b → b.orphan = none →
    s.foreman.exec = some c → c.inst = b.inst → c.seq = b.seq →
    (Tx.address p % 4 = 0 → Tx.length p = b.len →
      ∃ u, exec (.completion t port p) s = .next (State.issueReads u) ∧
        u = { windowed s t with shaft := u.shaft, bulk := s.bulk.erase b, foreman := u.foreman } ∧
        u.foreman = { s.foreman with exec := some { c with got := c.got ++ [(b.off, slice (Tx.data p) 0 b.len)] } }) ∧
    (Tx.address p % 4 ≠ 0 →
      ∃ u, exec (.completion t port p) s = .next (State.complete c (Answer.fail E.transfer) u) ∧
        u = { windowed s t with shaft := u.shaft, bulk := s.bulk.filter fun x => !(x.inst == b.inst && x.seq == b.seq) })) ∧
  (∀ t dom tag (s : State) b c, Up s →
    (s.bulk.find? fun b => b.dom == dom && b.tag == tag && decide (b.issued + 100000 ≤ (s.advance t).count)) = some b →
    b.orphan = none → s.foreman.exec = some c → c.inst = b.inst → c.seq = b.seq →
    exec (.bulkReadTimeout t dom tag) s = .next (State.complete c (Answer.fail E.transfer)
      { s.advance t with bulk := s.bulk.filter fun x => !(x.inst == b.inst && x.seq == b.seq) }))

/-- Shaft links (R278, R280, R290 to R292): training starts on an enabled DOWN port with the map's domain; a trained port goes
ACTIVE once the host has advertised; RETRAIN pauses and counts; a retrain ends ACTIVE; a failure takes the port DOWN and is
reported; a pending correction sets REPAIR_PENDING, and after 10.00 µs of IDLE asks for an idle retrain; a host that has not advertised for 10.00 µs, and a domain without RELEASE
credit for 1.00 ms, are reported. -/
def Obligations.ShaftLinkRows : Prop :=
  (∀ t port p (s : State) d, Up s → s.shaft[port]? = some p → p.link = .down → s.domains.ports[port]? = some (d, true) → port < 16 →
    exec (.shaftTrainingStart t port) s = .next { s.advance t with
      shaft := s.shaft.set port { p with link := .training, domain := d, trained := none, reported := false, event := true } }) ∧
  (∀ t port p o (s : State), Up s → s.shaft[port]? = some p → p.link = .training → p.trained = none → o.up = true →
    (s.credits.getD p.domain DomCredits.init).initRx = true → s.queuedTx = [] →
    ∃ u, exec (.shaftTrainingComplete t port o) s = .next u ∧
      u = { s.advance t with shaft := u.shaft, credits := u.credits, out := u.out } ∧
      ∃ q, u.shaft[port]? = some q ∧ q.link = .active ∧ q.domain = p.domain ∧ q.x32 = o.degraded1 ∧ q.rate16 = o.degraded2) ∧
  (∀ t port p (s : State), Up s → s.shaft[port]? = some p → p.link = .active →
    exec (.shaftRetrain t port) s = .next { s.advance t with
      shaft := s.shaft.set port { p with link := .retrain, retrains := (p.retrains + 1) % 256, event := true } }) ∧
  (∀ t port p o (s : State), Up s → s.shaft[port]? = some p → p.link = .retrain → o.up = true → s.queuedTx = [] →
    exec (.shaftRetrainComplete t port ⟨o, 0, 0⟩) s = .next { s.advance t with
      shaft := s.shaft.set port { p with
        x32 := o.degraded1, rate16 := o.degraded2, calPass := o.calPass, repair := false, retrainReq := false, saved := true
        link := .active, event := true, lastBusy := (s.advance t).count } }) ∧
  (∀ t port p vc (s : State), Up s → s.shaft[port]? = some p → p.link = .active →
    exec (.shaftLinkFailure t port 0 vc) s = .next (State.report Rep.portDown [port, p.domain] { s.advance t with
      shaft := s.shaft.set port { p with link := .down, trained := none, event := true } })) ∧
  (∀ t port p (s : State), Up s → s.shaft[port]? = some p → p.link = .active → port < 16 →
    (p.lastBusy + 1000 ≤ (s.advance t).count →
      exec (.idleRetrainRequest t port) s = .next { s.advance t with
        shaft := s.shaft.set port { p with repair := true, retrainReq := true } }) ∧
    ((s.advance t).count < p.lastBusy + 1000 →
      exec (.idleRetrainRequest t port) s = .next { s.advance t with shaft := s.shaft.set port { p with repair := true } })) ∧
  (∀ t port p c (s : State), Up s → s.shaft[port]? = some p → p.link = .training → p.trained = some c → p.reported = false →
    c + 1000 ≤ (s.advance t).count →
    exec (.creditInitTimeout t port) s = .next (State.report Rep.portDown [port, p.domain] { s.advance t with
      shaft := s.shaft.set port { p with reported := true } })) ∧
  (∀ t dom q c (s : State), Ready s → s.credits[dom]? = some c → c.initRx = true → c.stalled = false → c.relBal = 0 →
    c.relLast + 100000 ≤ (s.advance t).count → s.queuedTx = [] → s.lowestActive dom = some q →
    exec (.shaftStall t dom) s = .next (State.report Rep.shaftStall [q, dom] { s.advance t with
      credits := s.credits.set dom { c with stalled := true } }))

/-! ### The Drift links -/

/-- Drift links (R291, R294, R295, R298, R404): training starts from DOWN with the routing table in force; its end gives 64
credits a class, sends HELLO and, with the peer's HELLO in, makes the port ACTIVE; a HELLO of another board holds the port
down; a correction sets REPAIR_PENDING; RETRAIN restores the credits; DARK discards what was in flight; the reference clock's loss and return are seen by every
port. -/
def Obligations.DriftLinkRows : Prop :=
  (∀ t q d (s : State), Up s → q < 3 → s.drift[q]? = some d → s.pins.driftRef = true → d.link = .down →
    exec (.driftTrainingStart t q) s = .next { s.advance t with
      drift := s.drift.set q { d with link := .training, trained := false, helloOk := false, event := true, route := s.routing } }) ∧
  (∀ t q d o (s : State), Up s → q < 3 → s.drift[q]? = some d → d.link = .training → d.trained = false → d.helloOk = false → o.up = true →
    exec (.driftTrainingComplete t q o) s = .next { s.advance t with
      out := s.out ++ [.driftLink q 1 [d.route.device, d.route.board, s.replicaEpoch]]
      drift := s.drift.set q { d with
        lanes2 := o.degraded1, calPass := o.calPass, repair := false, saved := true, trained := true, helloOk := false
        credits := [64, 64, 64], toReturn := [0, 0, 0], txSeq := 0, rxSeq := 0 } }) ∧
  (∀ t q d (s : State), Up s → q < 3 → s.drift[q]? = some d → d.link = .active →
    exec (.driftRetrain t q) s = .next { s.advance t with
      drift := s.drift.set q { d with link := .retrain, repair := false, retrains := (d.retrains + 1) % 256, event := true, credits := [64, 64, 64] } }) ∧
  (∀ t q d dev board epoch (s : State), Up s → q < 3 → s.drift[q]? = some d → d.link = .training → d.trained = true → d.waiting = [] →
    d.route.board = board → d.route.peers[q]? = some (dev, true) →
    ∃ u, exec (.hello t q dev board epoch) s = .next u ∧ u = { windowed s t with drift := u.drift } ∧
      ∃ e, u.drift[q]? = some e ∧ e.link = .active ∧ e.peer = dev ∧ e.lastEpoch = epoch) ∧
  (∀ t q d dev board epoch (s : State), Up s → q < 3 → s.drift[q]? = some d → d.link = .training → d.route.board ≠ board →
    ∃ u, exec (.hello t q dev board epoch) s = .next u ∧ ∃ e, u.drift[q]? = some e ∧ e.link = .heldDown) ∧
  (∀ t q d (s : State), Up s → q < 3 → s.drift[q]? = some d → d.link = .active →
    exec (.idleRetrainRequest t (16 + q)) s = .next { s.advance t with drift := s.drift.set q { d with repair := true } }) ∧
  (∀ t q d (s : State), Up s → q < 3 → s.drift[q]? = some d → d.link = .active →
    ∃ u, exec (.driftDark t q) s = .next u ∧ ∃ e, u.drift[q]? = some e ∧ e.link = .dark ∧ e.unacked = [] ∧ e.waiting = [] ∧
      e.rxXfers = [] ∧ e.credits = [64, 64, 64]) ∧
  (∀ t (s : State), Up s → s.drift.length = 3 →
    ∃ u, exec (.driftRefclkLoss t) s = .next u ∧ u.pins = { s.pins with driftRef := false } ∧
      ∀ d ∈ u.drift, d.link = .down ∨ d.link = .heldDown) ∧
  (∀ t (s : State), Up s → exec (.driftRefclkReturn t) s = .next { s.advance t with pins := { s.pins with driftRef := true } })

/-- Drift flow control (R296, R297): a CREDIT returns message credits, up to 64 a class; a NAK and 10.00 µs without ACK
progress replay what is unacknowledged; a receiver acknowledges with what it has to return; a bad message is counted and draws
a NAK that names the SEQ expected. -/
def Obligations.DriftFlowRows : Prop :=
  ∀ t q d (s : State), Ready s → q < 3 → s.drift[q]? = some d → d.link = .active →
    (∀ ack a b c x y z, d.waiting = [] → d.unacked = [] → d.credits = [a, b, c] →
      exec (.driftCredit t q ack ⟨[x, y, z], []⟩) s = .next { windowed s t with
        drift := s.drift.set q { d with credits := [min 64 (a + x), min 64 (b + y), min 64 (c + z)] } }) ∧
    (∀ seq, exec (.nak t q seq) s = .next { windowed s t with
      out := s.out ++ (d.unacked.filter fun m => !seqBefore m.seq seq).map fun m => .drift q m }) ∧
    (d.unacked ≠ [] → d.ackProgress + 1000 ≤ (s.advance t).count →
      exec (.ackTimeout t q) s = .next { s.advance t with
        out := s.out ++ d.unacked.map fun m => .drift q m
        drift := s.drift.set q { d with ackProgress := (s.advance t).count } }) ∧
    exec (.idleGapCredit t q) s = .next { s.advance t with
      out := s.out ++ [.driftLink q 2 (d.rxSeq :: d.toReturn)]
      drift := s.drift.set q { d with toReturn := [0, 0, 0], lastAckSent := (s.advance t).count } } ∧
    (∀ seq, exec (.driftError t q seq) s = .next { windowed s t with
      out := s.out ++ [.driftLink q 3 [d.rxSeq]], devCounters := lmod s.devCounters Cnt.driftError fun v => (v + 1) % 2 ^ 64 })

/-- Drift messages in order of their transfers (R299, R300): data opens a transfer and adds to it; a sealed checkpoint whose
bytes have all come is stored as the peer's replica while room is left, and refused otherwise; CKPT_DROP discards the replica and
the unsealed transfer. -/
def Obligations.DriftTransferRows : Prop :=
  ∀ t q d h (s : State), Ready s → q < 3 → s.drift[q]? = some d → d.link = .active → d.unacked = [] → h.seq = d.rxSeq →
    d.lastEpoch ≤ h.epoch →
    (∀ xfer len, (∀ x ∈ d.rxXfers, ¬(x.cls = 2 ∧ x.xfer = xfer)) →
      ∃ u, exec (.snapData t q h xfer 0 len) s = .next u ∧ u = { windowed s t with drift := u.drift } ∧
        ∃ e, u.drift[q]? = some e ∧ e.rxXfers = (d.rxXfers.filter fun x => decide (h.epoch ≤ x.epoch)) ++ [⟨2, xfer, h.epoch, 0, len⟩]) ∧
    (∀ xfer stream len, (∀ x ∈ d.rxXfers, ¬(x.cls = 3 ∧ x.xfer = xfer)) →
      ∃ u, exec (.ckptData t q h xfer stream 0 len) s = .next u ∧ u = { windowed s t with drift := u.drift } ∧
        ∃ e, u.drift[q]? = some e ∧ e.rxXfers = (d.rxXfers.filter fun x => decide (h.epoch ≤ x.epoch)) ++ [⟨3, xfer, h.epoch, stream, len⟩]) ∧
    (∀ xfer rep x, d.rxXfers = [x] → x.cls = 3 → x.xfer = xfer → h.epoch ≤ x.epoch → s.replicas = [] →
      (s.spareUsed.length + 2 + 4096 ≤ s.spareSpan.2 → 2 ≤ s.spareFree →
        ∃ u ps, exec (.ckptSeal t q h xfer x.bytes rep) s = .next u ∧ u = { windowed s t with drift := u.drift, replicas := u.replicas } ∧
          u.replicas = [{ rep with dev := d.peer, pages := ps }]) ∧
      (s.spareSpan.2 < s.spareUsed.length + 2 + 4096 →
        ∃ u, exec (.ckptSeal t q h xfer x.bytes rep) s = .next u ∧ u = { windowed s t with drift := u.drift, out := u.out } ∧
          u.out = s.out ++ [.driftLink q 10 [h.ctx]])) ∧
    (∀ stream,
      ∃ u, exec (.ckptDrop t q h stream) s = .next u ∧
        u.replicas = s.replicas.filter (fun r => !(r.dev == d.peer && r.stream == stream)) ∧
        ∃ e, u.drift[q]? = some e ∧ ∀ x ∈ e.rxXfers, ¬(x.cls = 3 ∧ x.stream = stream))

/-- SNAP_SEAL (R301): a migrated snapshot that has come whole, whose destination context is OPEN in the named domain, whose
pins the context has and for which there is room is stored; the outcome goes back either way: E_TRANSFER for one that came
short, E_CONTEXT for another destination. -/
def Obligations.SnapSealRow : Prop :=
  ∀ t q d h xfer (snap : Snapshot) dom ctx digests (s : State), Ready s → q < 3 → s.drift[q]? = some d → d.link = .active →
    d.unacked = [] → h.seq = d.rxSeq → d.lastEpoch ≤ h.epoch →
    (∀ x pins w, d.rxXfers = [x] → x.cls = 2 → x.xfer = xfer → h.epoch ≤ x.epoch → x.bytes = snap.bytes → ctx ≠ 0 →
      (s.ctx ctx).state = .opened → (s.ctx ctx).domain = dom → s.translatePins ctx digests = some pins →
      snap.bytes ≤ 1048576 → s.snapPages + pagesOf snap.bytes ≤ s.snapRoom → s.snapEntries < 131072 →
      (s.snapshots.find? fun m => snapKey m == (ctx, (s.ctx ctx).gen, snap.handle)) = none → w = (s.ctx ctx).gen →
      ∃ u ps, exec (.snapSeal t q h xfer snap dom ctx digests) s = .next u ∧
        u = { windowed s t with drift := u.drift, snapshots := u.snapshots, out := u.out } ∧
        u.snapshots = s.snapshots ++
          [{ snap with ctx := ctx, gen := w, imagePins := pins.1, adapterPins := pins.2, lastRestore := 0, readers := 0, pages := ps }] ∧
        u.out = s.out ++ [.driftLink q 8 [xfer, E.ok]]) ∧
    (∀ x, d.rxXfers = [x] → x.cls = 2 → x.xfer = xfer → h.epoch ≤ x.epoch → x.bytes ≠ snap.bytes →
      ∃ u, exec (.snapSeal t q h xfer snap dom ctx digests) s = .next u ∧
        u = { windowed s t with drift := u.drift, out := s.out ++ [.driftLink q 8 [xfer, E.transfer]] })

/-- Forwarded fingerprint epochs (R113): with the store idle a peer's records open its epoch and are staged; the commit with
the number of records that came commits it at this device's own count; the abort discards it. -/
def Obligations.ForwardedEpochRows : Prop :=
  ∀ t q d h epoch (s : State), Ready s → q < 3 → s.drift[q]? = some d → d.link = .active → d.unacked = [] → h.seq = d.rxSeq →
    d.lastEpoch ≤ h.epoch → s.poisoned = [] →
    (∀ recs, s.store.epoch = .idle → s.store.forwarded = [] →
      ∃ u, exec (.fpRecord t q h epoch recs) s = .next u ∧
        u = { windowed s t with drift := u.drift, store := u.store, freshCtr := u.freshCtr } ∧
        u.store.forwarded = [⟨d.peer, epoch, recs, none⟩] ∧ u.store.epoch = .opened ∧ u.store.fromPeer = true ∧
        u.storeEpoch = s.storeEpoch) ∧
    (∀ recs, s.store.epoch = .opened → s.store.fromPeer = true → s.store.forwarded = [⟨d.peer, epoch, recs, none⟩] →
      ∃ u, exec (.fpCommit t q h epoch recs.length) s = .next u ∧
        u = { windowed s t with drift := u.drift, store := u.store, storeEpoch := (s.storeEpoch + 1) % 2 ^ 32 } ∧
        u.store = { s.store with forwarded := [], epoch := .sweeping, effect := (s.advance t).count, peers := [], fromPeer := false }) ∧
    (∀ recs, s.store.epoch = .opened → s.store.fromPeer = true → s.store.forwarded = [⟨d.peer, epoch, recs, none⟩] →
      ∃ u, exec (.fpAbort t q h epoch) s = .next u ∧ u = { windowed s t with drift := u.drift, store := u.store } ∧
        u.store = { s.store.settle false with forwarded := [] } ∧ u.storeEpoch = s.storeEpoch)

/-! ### Management -/

/-- DOMAIN_MAP_SET, ROUTING_SET, POLICY_ROOT_SET and PORT_HOLD (R275, R295, R385) write what they carry and are answered OK; a
map that R275 forbids is answered E_STATE, reported, and changes nothing. -/
def Obligations.PlatformSettingRows : Prop :=
  (∀ t m (s : State), Requested s 0x10 m → mapForm (Msg.payload m) = true → s.mapRefused (mapOf (Msg.payload m)) = false →
    exec (.domainMapSet t m) s = .next { windowed s t with
      domains := mapOf (Msg.payload m), out := s.out ++ [.mgmt 0x10 0 (Msg.mseq m) []] }) ∧
  (∀ t m (s : State) u, Requested s 0x10 m → mapForm (Msg.payload m) = true → s.mapRefused (mapOf (Msg.payload m)) = true →
    exec (.domainMapSet t m) s = .next u → u.domains = s.domains ∧ (.mgmt 0x10 E.state (Msg.mseq m) []) ∈ u.out) ∧
  (∀ t m (s : State), Requested s 0x11 m → routingForm (Msg.payload m) = true → (routingOf (Msg.payload m)).bad = false →
    exec (.routingSet t m) s = .next { windowed s t with
      routing := routingOf (Msg.payload m), out := s.out ++ [.mgmt 0x11 0 (Msg.mseq m) []] }) ∧
  (∀ t m (s : State) i key, Requested s 0x13 m → (Msg.payload m).length = 104 → zeroRange (Msg.payload m) 2 6 = true →
    field (Msg.payload m) 1 1 < 16 → field (Msg.payload m) 0 1 = i + 1 → i < 4 → slice (Msg.payload m) 8 96 = key →
    (P384.onCurve (keyPoint key) = true ∨ key.all (· == 0) = true) →
    exec (.policyRootSet t m) s = .next { windowed s t with
      roots := s.roots.set i (if key.all (· == 0) then ⟨0, []⟩ else ⟨field (Msg.payload m) 1 1, key⟩)
      out := s.out ++ [.mgmt 0x13 0 (Msg.mseq m) []] }) ∧
  (∀ t m (s : State) port p, Requested s 0x12 m → (Msg.payload m).length = 2 → field (Msg.payload m) 0 1 = port → port < 16 →
    field (Msg.payload m) 1 1 = 1 → s.shaft[port]? = some p →
    exec (.portHold t ⟨m, 0, 0⟩) s = .next { windowed s t with
      shaft := s.shaft.set port { p with link := .heldDown, trained := none, event := true }
      out := s.out ++ [.mgmt 0x12 0 (Msg.mseq m) []] })

/-- ASHPIT_FETCH returns at most 4,096 bytes of a record from an offset (R351; the bytes captured are free, log 4); the response
to the report at the head of the queue removes it and the next is sent; an unanswered head is sent again after 100 ms (R385). -/
def Obligations.ReportRows : Prop :=
  (∀ t m (s : State) r off, Requested s 0x21 m → (Msg.payload m).length = 8 → field (Msg.payload m) 4 4 = off →
    (s.ashpit.find? fun r => r.num == field (Msg.payload m) 0 4) = some r → off < r.bytes →
    ∃ bytes u, bytes.length = min 4096 (r.bytes - off) ∧ exec (.ashpitFetch t m) s = .next u ∧
      u = { windowed s t with ashpit := u.ashpit, out := s.out ++ [.mgmt 0x21 0 (Msg.mseq m) (leBytes 4 r.bytes ++ bytes)] }) ∧
  (∀ t (s : State) r rest, Managed s → s.reports = r :: rest →
    ∃ u, exec (.reportResponse t r.mseq) s = .next u ∧ u.reports = rest ∧ u = { windowed s t with reports := rest, out := u.out, mgmt := u.mgmt } ∧
      (rest = [] → u.out = s.out) ∧ (∀ n l, rest = n :: l → u.out = s.out ++ [.report n, .ibi 0x5D])) ∧
  (∀ t (s : State) r rest, Up s → s.reports = r :: rest → s.mgmt.reportSent + 10000000 ≤ (s.advance t).count →
    ∃ u, exec (.reportResend t) s = .next u ∧ u = { s.advance t with out := u.out, mgmt := u.mgmt } ∧
      u.out = s.out ++ [.report r, .ibi 0x5D] ∧ u.mgmt.reportSent = (s.advance t).count)

/-- The end of power-on boot (R390): with the stacks calibrated and their capacity right DEVICE_MODE is NORMAL, the boot report
goes out, and the Foreman serves the rings; a failed calibration is Banked mode. -/
def Obligations.BootCompleteRow : Prop :=
  ∀ t (s : State), Up s → s.boot.phase = .committed → s.mode = .recovering → s.recovery = none →
    (∃ w : State, exec (.bootComplete t true true []) s = .next (w.pump pumpFuel) ∧ w.mode = .normal ∧ w.boot.phase = .done ∧ w.failed = [] ∧
      (s.reports.length < 256 → ∃ r ∈ w.reports, r.code = Rep.boot ∧ r.detail = [0, s.boot.status])) ∧
    (∃ u : State, exec (.bootComplete t false true []) s = .next u ∧ u.mode = .banked ∧ u.boot.status = E.internal ∧ u.boot.phase = .done)

/-- The end of device recovery, with the stacks calibrated, a unit of every kind working and a signed bundle (R360, R361):
RECOVERIES counts, REPLICA_EPOCH rises, DEVICE_MODE is NORMAL and FAULT_N is released. -/
def Obligations.RecoveryCompleteRow : Prop :=
  ∀ t failed bad (s : State) r, Up s → s.recovery = some r → s.pins.thermTripN = false → s.pins.warmN = false → s.boot.phase = .done →
    lastFailed failed = false → s.foremanStart.2 = true →
    ∃ u, exec (.recoveryComplete t true failed bad) s = .next u ∧ u.recoveries = (s.recoveries + 1) % 2 ^ 32 ∧
      u.replicaEpoch = (s.replicaEpoch + 1) % 2 ^ 32 ∧ u.mode = .normal ∧ u.recovery = none ∧ u.pins = { s.pins with faultN := false }

/-- Firmware bundles (R385, R386, R388): BUNDLE_WRITE at offset 0 begins and at the end appends; BUNDLE_COMMIT of a bundle that
passes the checks marks it COMMITTED; BUNDLE_STATUS reports. -/
def Obligations.BundleRows : Prop :=
  (∀ t m (s : State) len, Requested s 0x01 m → field (Msg.payload m) 0 4 = 0 → field (Msg.payload m) 4 2 = len →
    (Msg.payload m).length = 8 + len → zeroRange (Msg.payload m) 6 2 = true → 4 ≤ len → len ≤ 1024 → len % 4 = 0 →
    exec (.bundleWrite t m) s = .next { windowed s t with
      boot := { s.boot with staged := .writing, stagedBytes := (Msg.payload m).drop 8, stagedFw := [], stagedStoker := [] }
      out := s.out ++ [.mgmt 0x01 0 (Msg.mseq m) []] }) ∧
  (∀ t m (s : State) off len, Requested s 0x01 m → field (Msg.payload m) 0 4 = off → field (Msg.payload m) 4 2 = len →
    (Msg.payload m).length = 8 + len → zeroRange (Msg.payload m) 6 2 = true → 4 ≤ len → len ≤ 1024 → len % 4 = 0 → off ≠ 0 →
    off = s.boot.stagedBytes.length → off + len ≤ 1048576 →
    exec (.bundleWrite t m) s = .next { windowed s t with
      boot := { s.boot with staged := .writing, stagedBytes := s.boot.stagedBytes ++ (Msg.payload m).drop 8 }
      out := s.out ++ [.mgmt 0x01 0 (Msg.mseq m) []] }) ∧
  (∀ t m (s : State), Requested s 0x02 m → Msg.payload m = [] → s.boot.phase = .done → s.boot.staged = .writing →
    s.bundleSigOk s.boot.stagedBytes = true → s.bundleComboOk s.boot.stagedBytes = true →
    s.abiOffender (comboRow s.fuses.b0 (Img.version (bundleHalves s.boot.stagedBytes).1)) = none →
    exec (.bundleCommit t m) s = .next { windowed s t with
      boot := { s.boot with staged := .committed, stagedFw := Img.version (bundleHalves s.boot.stagedBytes).1
                            stagedStoker := Img.version (bundleHalves s.boot.stagedBytes).2 }
      out := s.out ++ [.mgmt 0x02 0 (Msg.mseq m) []] }) ∧
  (∀ t m (s : State), Requested s 0x03 m → Msg.payload m = [] →
    exec (.bundleStatus t m) s = .next { windowed s t with
      out := s.out ++ [.mgmt 0x03 0 (Msg.mseq m) (tripleBytes s.boot.activeFw ++ tripleBytes s.boot.activeStoker ++
        leBytes 1 s.boot.staged.code ++ [0, 0, 0] ++ leBytes 4 s.boot.stagedBytes.length ++ leBytes 1 s.boot.status)] })

/-- SPDM (R392 to R394; the message codes are the model's, log 22): versions, capabilities and algorithms are negotiated in that
order; a request before its time is answered with an ERROR; digests, certificate, challenge, measurements and chunks follow. -/
def Obligations.SpdmRows : Prop :=
  ∀ t (s : State), Managed s →
    (∀ v, exec (.getVersion t v) s = .next { windowed s t with
      mgmt := { s.mgmt with spdmVersion := true, spdmCaps := false, spdmAlgs := false, spdmVer := 0 }
      out := s.out ++ [.spdm 0x04 0 0 [0, 2, 0x00, 0x11, 0x00, 0x12]] }) ∧
    (∀ v, (v = 0x11 ∨ v = 0x12) → s.mgmt.spdmVersion = true →
      exec (.getCapabilities t v) s = .next { windowed s t with
        mgmt := { s.mgmt with spdmCaps := true, spdmAlgs := false, spdmVer := v }
        out := s.out ++ [.spdm 0x61 0 0 (leBytes 4 (0x16 + if v = 0x12 then 0x20000 else 0))] }) ∧
    (∀ v, (v = 0x11 ∨ v = 0x12) → s.mgmt.spdmVersion = false →
      exec (.getCapabilities t v) s = .next { windowed s t with out := s.out ++ [.spdm 0x7F 0x04 0 []] }) ∧
    (∀ v asym hash, (v = 0x11 ∨ v = 0x12) → s.mgmt.spdmCaps = true → bit asym 7 = true → bit hash 1 = true →
      exec (.negotiateAlgorithms t v asym hash) s = .next { windowed s t with
        mgmt := { s.mgmt with spdmAlgs := true }, out := s.out ++ [.spdm 0x63 0 0 (leBytes 4 0x80 ++ leBytes 4 0x02)] }) ∧
    (∀ v, (v = 0x11 ∨ v = 0x12) → s.mgmt.spdmAlgs = true →
      exec (.getDigests t v) s = .next { windowed s t with out := s.out ++ [.spdm 0x01 0 1 (sha384 Config.certChain)] } ∧
      (∀ off len n, off < Config.certChain.length → n = min len (Config.certChain.length - off) →
        exec (.getCertificate t v 0 off len) s = .next { windowed s t with
          out := s.out ++ [.spdm 0x02 0 0 (leBytes 2 n ++ leBytes 2 (Config.certChain.length - off - n) ++
            (Config.certChain.drop off).take len)] }) ∧
      (∀ nonce, nonce.length = 32 →
        exec (.challenge t v 0 nonce) s = .next { windowed s t with
          freshCtr := s.freshCtr + 1, out := s.out ++ [.spdm 0x03 0 1 (sha384 Config.certChain ++ s.spdmSign)] }) ∧
      (∀ nonce, exec (.getMeasurements t v 0 false nonce) s = .next { windowed s t with
        out := s.out ++ [.spdm 0x60 (((List.range 6).filter fun i => ((windowed s t).measurement i).isSome).length) 0 [0]] }) ∧
      (∀ seq, 4096 * seq < s.mgmt.large.length →
        exec (.chunkGet t v s.mgmt.largeHandle seq) s = .next { windowed s t with
          out := s.out ++ [.spdm 0x06 (if s.mgmt.large.length ≤ 4096 * (seq + 1) then 1 else 0) s.mgmt.largeHandle
            (leBytes 2 seq ++ (s.mgmt.large.drop (4096 * seq)).take 4096)] }))

/-- MCTP control and I3C (R383; the message codes are the model's, log 22). -/
def Obligations.EndpointRows : Prop :=
  ∀ t (s : State), Managed s →
    (∀ op eid, op ≤ 1 → 8 ≤ eid → eid ≤ 254 →
      exec (.setEndpointId t op eid) s = .next { windowed s t with
        mgmt := { s.mgmt with eid := eid }, out := s.out ++ [.mctp 1 0 [0, BitVec.ofNat 8 eid, 0]] }) ∧
    exec (.getEndpointId t) s = .next { windowed s t with out := s.out ++ [.mctp 2 0 [BitVec.ofNat 8 s.mgmt.eid, 0, 0]] } ∧
    (∀ k, (k = 0xFF ∨ k = 0) →
      exec (.getMctpVersionSupport t k) s = .next { windowed s t with out := s.out ++ [.mctp 4 0 [1, 0xF1, 0xF3, 0xFF, 0]] }) ∧
    exec (.getMessageTypeSupport t) s = .next { windowed s t with out := s.out ++ [.mctp 5 0 [3, 0x00, 0x05, 0x7F]] } ∧
    exec (.getVendorDefinedMessageSupport t 0) s = .next { windowed s t with
      out := s.out ++ [.mctp 6 0 [0xFF, 1, 0x00, 0x00, 0xE3, 0xC9]] } ∧
    (∀ a, s.mgmt.i3cAddr = none →
      exec (.entdaa t a) s = .next { windowed s t with
        mgmt := { s.mgmt with i3cAddr := some a }, out := s.out ++ [.i3c a (leBytes 4 s.fuses.serial.toNat)] } ∧
      exec (.setdasa t 0x3A a) s = .next { windowed s t with
        mgmt := { s.mgmt with i3cAddr := some a }, out := s.out ++ [.i3c a []] })

/-- The test access port (R411): its resets select IDCODE; IDCODE shifts out the identification register; BYPASS selects the
bypass register; SAMPLE/PRELOAD samples the boundary register; EXTEST acts only while BLK_PORST_N is asserted and otherwise
selects bypass. The order of the boundary cells is free (log 4). -/
def Obligations.TestPortRows : Prop :=
  ∀ t (s : State),
    exec (.trstN t) s = .next { s.advance t with mgmt := { s.mgmt with jtag := "IDCODE" } } ∧
    exec (.testLogicReset t) s = .next { s.advance t with mgmt := { s.mgmt with jtag := "IDCODE" } } ∧
    exec (.idcode t) s = .next { s.advance t with
      mgmt := { s.mgmt with jtag := "IDCODE" }
      out := s.out ++ [.tdo "IDCODE" (some (if s.fuses.b0 then 0x26D4034B#32 else 0x16D4034B#32))] } ∧
    exec (.bypass t) s = .next { s.advance t with mgmt := { s.mgmt with jtag := "BYPASS" }, out := s.out ++ [.tdo "BYPASS" none] } ∧
    (∃ v, exec (.samplePreload t) s = .next { s.advance t with
      mgmt := { s.mgmt with jtag := "SAMPLE/PRELOAD" }, out := s.out ++ [.tdo "SAMPLE/PRELOAD" (some v)] }) ∧
    exec (.extest t) s = .next { s.advance t with
      mgmt := { s.mgmt with jtag := if s.porst then "EXTEST" else "BYPASS" }
      out := s.out ++ [.tdo (if s.porst then "EXTEST" else "BYPASS") none] }
end

