-- ==== Sys2Proof/Laws/Frame.lean ====
section
/-! SUPPORT. Frames: one lemma per operation and per row that says what of the device as a whole it leaves as it was. -/

namespace Sys2Proof.Machine

/-- The part of the state that belongs to the device as a whole and that the work of the planes never touches. -/
structure Core where
  pending : List Instr
  count : Nat
  running : Bool
  porst : Bool
  pilotFault : Bool
  fuses : Fuses
  roots : List PolicyRoot
  routing : Routing
  domains : DomainMap
  layoutRec : List Nat
  layout : List Nat
  mem : List Host.Cell
  recoveries : Nat
  replicaEpoch : Nat
  lamp : Lamp
  threshold : Nat
  boot : Boot

/-- With it DEVICE_MODE, the recovery in progress and the pins, which only a device fault, a boot or a recovery and the
commands of the pins change. -/
structure Base where
  core : Core
  mode : Mode
  recovery : Option Recovery
  pins : Pins

def State.base (s : State) : Base :=
  ⟨⟨s.pending, s.count, s.running, s.porst, s.pilotFault, s.fuses, s.roots, s.routing, s.domains, s.layoutRec, s.layout, s.mem, s.recoveries, s.replicaEpoch, s.lamp, s.threshold, s.boot⟩, s.mode, s.recovery, s.pins⟩

@[simp] theorem base_mk (x0 x1 x2 x3 x4 x5 x6 x7 x8 x9 x10 x11 x12 x13 x14 x15 x16 x17 x18 x19 x20 x21 x22 x23 x24 x25 x26 x27 x28 x29
    x30 x31 x32 x33 x34 x35 x36 x37 x38 x39 x40 x41 x42 x43 x44 x45 x46 x47 x48 x49 x50 x51 x52 x53 x54 x55 x56 x57
    x58 x59 x60 x61 x62 x63 x64 x65 x66 x67 x68 x69 x70 x71 x72 x73) :
    State.base ⟨x0, x1, x2, x3, x4, x5, x6, x7, x8, x9, x10, x11, x12, x13, x14, x15, x16, x17, x18, x19, x20, x21, x22, x23,
    x24, x25, x26, x27, x28, x29, x30, x31, x32, x33, x34, x35, x36, x37, x38, x39, x40, x41, x42, x43, x44, x45,
    x46, x47, x48, x49, x50, x51, x52, x53, x54, x55, x56, x57, x58, x59, x60, x61, x62, x63, x64, x65, x66, x67,
    x68, x69, x70, x71, x72, x73⟩ =
    ⟨⟨x0, x5, x6, x7, x8, x30, x15, x14, x13, x17, x18, x53, x29, x21, x12, x20, x31⟩, x9, x32, x33⟩ := rfl

theorem core_eta (s : State) :
    (⟨s.pending, s.count, s.running, s.porst, s.pilotFault, s.fuses, s.roots, s.routing, s.domains, s.layoutRec,
    s.layout, s.mem, s.recoveries, s.replicaEpoch, s.lamp, s.threshold, s.boot⟩ : Core) = s.base.core := rfl

@[simp] theorem base_eta (s : State) :
    (⟨⟨s.pending, s.count, s.running, s.porst, s.pilotFault, s.fuses, s.roots, s.routing, s.domains, s.layoutRec,
    s.layout, s.mem, s.recoveries, s.replicaEpoch, s.lamp, s.threshold, s.boot⟩, s.mode, s.recovery, s.pins⟩ : Base) = s.base := rfl

@[simp] theorem base_ite (c : Prop) [Decidable c] (a b : State) : (if c then a else b).base = if c then a.base else b.base :=
  apply_ite State.base c a b

@[simp] theorem base_foldl {α : Type} (f : State → α → State) (l : List α) (s : State) (h : ∀ s a, (f s a).base = s.base) :
    (l.foldl f s).base = s.base := by
  induction l generalizing s with
  | nil => rfl
  | cons a l ih => simp [ih, h]

@[simp] theorem base_foldl_snd {α β : Type} (f : β × State → α → β × State) (l : List α) (a : β × State)
    (h : ∀ a x, (f a x).2.base = a.2.base) : (l.foldl f a).2.base = a.2.base := by
  induction l generalizing a with
  | nil => rfl
  | cons x l ih => simp [ih, h]

@[simp] theorem State.fresh_base : ∀ a0, (State.fresh a0).base = State.base a0 := by
  intros; rfl

@[simp] theorem State.active_base : ∀ a0, (State.active a0).base = State.base a0 := by
  intros; rfl

@[simp] theorem State.emit_base : ∀ a0 a1, (State.emit a0 a1).base = State.base a1 := by
  intros; rfl

@[simp] theorem State.report_base : ∀ a0 a1 a2, (State.report a0 a1 a2).base = State.base a2 := by
  intros; unfold State.report; simp

@[simp] theorem State.domCount_base : ∀ a0 a1 a2, (State.domCount a0 a1 a2).base = State.base a2 := by
  intros; rfl

@[simp] theorem State.devCount_base : ∀ a0 a1 a2, (State.devCount a0 a1 a2).base = State.base a2 := by
  intros; rfl

@[simp] theorem State.modCtx_base : ∀ a0 a1 a2, (State.modCtx a0 a1 a2).base = State.base a2 := by
  intros; rfl

@[simp] theorem State.setCtx_base : ∀ a0 a1 a2, (State.setCtx a0 a1 a2).base = State.base a2 := by
  intros; rfl

@[simp] theorem State.ctxCountBy_base : ∀ a0 a1 a2 a3, (State.ctxCountBy a0 a1 a2 a3).base = State.base a3 := by
  intros; rfl

@[simp] theorem State.ctxCount_base : ∀ a0 a1 a2, (State.ctxCount a0 a1 a2).base = State.base a2 := by
  intros; rfl

@[simp] theorem State.modInst_base : ∀ a0 a1 a2, (State.modInst a0 a1 a2).base = State.base a2 := by
  intros; rfl

@[simp] theorem State.event_base : ∀ a0 a1 a2 a3 a4 a5 a6, (State.event a0 a1 a2 a3 a4 a5 a6).base = State.base a6 := by
  intros; rfl

@[simp] theorem State.eventAll_base : ∀ a0 a1 a2 a3, (State.eventAll a0 a1 a2 a3).base = State.base a3 := by
  intros; rfl

@[simp] theorem State.postCompletion_base : ∀ a0 a1 a2, (State.postCompletion a0 a1 a2).base = State.base a2 := by
  intros; rfl

@[simp] theorem State.sendOn_base : ∀ a0 a1 a2, (State.sendOn a0 a1 a2).base = State.base a2 := by
  intros; rfl

@[simp] theorem State.issueReads_base : ∀ a0, (State.issueReads a0).base = State.base a0 := by
  intros; unfold State.issueReads; split <;> simp

@[simp] theorem State.fetch_base : ∀ a0 a1, (State.fetch a0 a1).base = State.base a1 := by
  intros; unfold State.fetch; simp

@[simp] theorem State.pump_base : ∀ a0 a1, (State.pump a0 a1).base = State.base a1 := by
  intro n
  induction n with
  | zero => intro s; rfl
  | succ n ih => intro s; unfold State.pump; (repeat' split) <;> simp [ih]

@[simp] theorem State.complete_base : ∀ a0 a1 a2, (State.complete a0 a1 a2).base = State.base a2 := by
  intros; unfold State.complete; simp

@[simp] theorem State.endWork_base : ∀ a0 a1 a2, (State.endWork a0 a1 a2).base = State.base a2 := by
  intros; unfold State.endWork; split <;> simp

@[simp] theorem State.bumpConfig_base : ∀ a0, (State.bumpConfig a0).base = State.base a0 := by
  intros; rfl

theorem State.finish_base (c : ExecCmd) (e : Nat) (ok : State → State × Bytes × Option Bytes) (l g : Bool) (s : State)
    (h : ∀ s, (ok s).1.base = s.base) : (s.finish c e ok l g).base = s.base := by
  unfold State.finish
  split
  · simp
  · simp only [State.complete_base]; split <;> simp [h]

theorem State.command_base (op : Nat) (i : Inst) (f : ExecCmd → State → State) (s : State) (h : ∀ c s, (f c s).base = s.base) :
    (s.command op i f).base = s.base := by
  unfold State.command
  split
  · rfl
  · (repeat' split) <;> simp [h]

@[simp] theorem State.newWrite_base : ∀ a0 a1 a2 a3 a4, (State.newWrite a0 a1 a2 a3 a4).base = State.base a4 := by
  intros; rfl

@[simp] theorem State.newXfer_base : ∀ a0 a1 a2 a3, (State.newXfer a0 a1 a2 a3).base = State.base a3 := by
  intros; rfl

@[simp] theorem State.orphanWhere_base : ∀ a0 a1 a2, (State.orphanWhere a0 a1 a2).base = State.base a2 := by
  intros; rfl

@[simp] theorem State.orphanStream_base : ∀ a0 a1 a2, (State.orphanStream a0 a1 a2).base = State.base a2 := by
  intros; rfl

@[simp] theorem State.dropQueuedCtx_base : ∀ a0 a1, (State.dropQueuedCtx a0 a1).base = State.base a1 := by
  intros; rfl

@[simp] theorem State.dropQueuedStream_base : ∀ a0 a1, (State.dropQueuedStream a0 a1).base = State.base a1 := by
  intros; rfl

@[simp] theorem State.retireTo_base : ∀ a0 a1 a2, (State.retireTo a0 a1 a2).base = State.base a2 := by
  intro p q s; unfold State.retireTo; split
  · split
    · rfl
    · exact State.report_base _ _ _
  · exact State.report_base _ _ _

@[simp] theorem State.retirePage_base : ∀ a0 a1, (State.retirePage a0 a1).base = State.base a1 :=
  fun _ _ => State.retireTo_base ..

@[simp] theorem State.releasePages_base : ∀ a0 a1, (State.releasePages a0 a1).base = State.base a1 := by
  intros; unfold State.releasePages; simp

@[simp] theorem State.failWork_base : ∀ a0 a1 a2, (State.failWork a0 a1 a2).base = State.base a2 := by
  intros; unfold State.failWork; simp

@[simp] theorem State.mapSaves_base : ∀ a0, (State.mapSaves a0).base = State.base a0 := by
  intro s; unfold State.mapSaves
  extract_lets fill s1
  have h1 : s1.base = s.base := base_foldl _ _ _ fun s p => by split <;> first | rfl | (dsimp only; split <;> rfl)
  refine (base_foldl _ _ _ fun s k => ?_).trans h1
  split <;> first | rfl | (dsimp only; split <;> rfl)

@[simp] theorem State.releaseSeam_base : ∀ a0 a1, (State.releaseSeam a0 a1).base = State.base a0 := by
  intros; rfl

@[simp] theorem State.releaseInstalls_base : ∀ a0 a1, (State.releaseInstalls a0 a1).base = State.base a1 := by
  intros; unfold State.releaseInstalls; simp

@[simp] theorem State.retireInstalls_base : ∀ a0 a1, (State.retireInstalls a0 a1).base = State.base a1 := by
  intros; unfold State.retireInstalls; simp

@[simp] theorem State.retireAdapters_base : ∀ a0, (State.retireAdapters a0).base = State.base a0 := by
  intros; unfold State.retireAdapters; simp

@[simp] theorem State.retireSet_base : ∀ a0 a1, (State.retireSet a0 a1).base = State.base a1 := by
  intros; unfold State.retireSet; simp

@[simp] theorem State.meetAshpit_base : ∀ a0 a1, (State.meetAshpit a0 a1).base = State.base a1 := by
  intros; rfl

@[simp] theorem State.retryRetire_base : ∀ a0, (State.retryRetire a0).base = State.base a0 := by
  intros; unfold State.retryRetire; simp

@[simp] theorem State.modStream_base : ∀ a0 a1 a2, (State.modStream a0 a1 a2).base = State.base a2 := by
  intros; rfl

@[simp] theorem State.modEntry_base : ∀ a0 a1 a2, (State.modEntry a0 a1 a2).base = State.base a2 := by
  intros; rfl

@[simp] theorem State.drain_base : ∀ a0 a1 a2, (State.drain a0 a1 a2).base = State.base a2 := by
  intros; rfl

@[simp] theorem State.fault_base : ∀ a0 a1 a2 a3, (State.fault a0 a1 a2 a3).base = State.base a3 := by
  intros; unfold State.fault; (repeat' split) <;> simp

@[simp] theorem State.capture_base : ∀ a0 a1, (State.capture a0 a1).base = State.base a1 := by
  intros; unfold State.capture; (repeat' split) <;> simp

@[simp] theorem State.captureIfDue_base : ∀ a0 a1, (State.captureIfDue a0 a1).base = State.base a1 := by
  intros; unfold State.captureIfDue; split <;> simp

@[simp] theorem State.drainTx_base : ∀ a0 a1 a2, (State.drainTx a0 a1 a2).base = State.base a2 := by
  intro d n
  induction n with
  | zero => intro s; rfl
  | succ n ih => intro s; unfold State.drainTx; simp only []; (repeat' split) <;> simp [ih]

@[simp] theorem State.handOff_base : ∀ a0 a1, (State.handOff a0 a1).base = State.base a1 := by
  intros; unfold State.handOff; simp

@[simp] theorem State.tryFree_base : ∀ a0 a1, (State.tryFree a0 a1).base = State.base a1 := by
  intros; unfold State.tryFree; simp

@[simp] theorem State.endXfer_base : ∀ a0 a1, (State.endXfer a0 a1).base = State.base a1 := by
  intros; unfold State.endXfer; (repeat' split) <;> simp

@[simp] theorem State.driftDrain_base : ∀ a0 a1 a2, (State.driftDrain a0 a1 a2).base = State.base a2 := by
  intro d n
  induction n with
  | zero => intro s; rfl
  | succ n ih => intro s; unfold State.driftDrain; simp only []; (repeat' split) <;> simp [ih]

@[simp] theorem State.driftFlush_base : ∀ a0 a1, (State.driftFlush a0 a1).base = State.base a1 := by
  intros; unfold State.driftFlush; simp

@[simp] theorem State.driftSend_base : ∀ a0 a1 a2, (State.driftSend a0 a1 a2).base = State.base a2 := by
  intros; unfold State.driftSend; simp

@[simp] theorem State.orphanBulk_base : ∀ a0 a1, (State.orphanBulk a0 a1).base = State.base a1 := by
  intros; rfl

@[simp] theorem State.cutExec_base : ∀ a0 a1, (State.cutExec a0 a1).base = State.base a1 := by
  intros; unfold State.cutExec; (repeat' split) <;> simp

@[simp] theorem State.tryQuarantine_base : ∀ a0 a1, (State.tryQuarantine a0 a1).base = State.base a1 := by
  intros; unfold State.tryQuarantine; simp

@[simp] theorem State.freeStream_base : ∀ a0 a1, (State.freeStream a0 a1).base = State.base a1 := by
  intro q s; unfold State.freeStream
  split
  · rfl
  · extract_lets s1 s2 mask s3
    have h2 : s2.base = s.base := (show s2.base = s1.base from rfl).trans (State.event_base ..)
    have h3 : s3.base = s2.base := base_foldl _ _ _ fun s d => by split <;> first | rfl | (split <;> simp)
    rw [State.tryQuarantine_base, State.retireSet_base, State.retireAdapters_base, State.retireInstalls_base, h3, h2]

@[simp] theorem State.ashpitRecord_base : ∀ a0 a1 a2, (State.ashpitRecord a0 a1 a2).base = State.base a2 := by
  intros; rfl

@[simp] theorem State.abandonOne_base : ∀ a0 a1 a2, (State.abandonOne a0 a1 a2).base = State.base a2 := by
  intros; unfold State.abandonOne; split <;> simp

@[simp] theorem State.abandonCommands_base : ∀ a0 a1, (State.abandonCommands a0 a1).base = State.base a1 := by
  intros; unfold State.abandonCommands; simp only []; (repeat' split) <;> simp

@[simp] theorem State.poison_base : ∀ a0 a1, (State.poison a0 a1).base = State.base a1 := by
  intros; rfl

@[simp] theorem State.poisonSeam_base : ∀ a0 a1 a2, (State.poisonSeam a0 a1 a2).base = State.base a2 := by
  intros; rfl

@[simp] theorem State.meet_base : ∀ a0 a1 a2, (State.meet a0 a1 a2).base = State.base a2 := by
  intros; unfold State.meet; (repeat' split) <;> simp

@[simp] theorem State.memError_base : ∀ a0 a1, (State.memError a0 a1).base = State.base a1 := by
  intros; rfl

@[simp] theorem State.lampEvent_base : ∀ a0 a1 a2 a3, (State.lampEvent a0 a1 a2 a3).base = State.base a3 := by
  intros; rfl

@[simp] theorem State.lampResult_base : ∀ a0 a1 a2 a3, (State.lampResult a0 a1 a2 a3).base = State.base a3 := by
  intros; rfl

@[simp] theorem State.doorbell_base : ∀ a0 a1 a2 a3, (State.doorbell a0 a1 a2 a3).base = State.base a3 := by
  intros; unfold State.doorbell; simp

@[simp] theorem State.cplHeadWrite_base : ∀ a0 a1 a2, (State.cplHeadWrite a0 a1 a2).base = State.base a2 := by
  intros; unfold State.cplHeadWrite; simp

@[simp] theorem State.evtHeadWrite_base : ∀ a0 a1 a2, (State.evtHeadWrite a0 a1 a2).base = State.base a2 := by
  intros; unfold State.evtHeadWrite; simp

@[simp] theorem State.flushReq_base : ∀ a0 a1 a2, (State.flushReq a0 a1 a2).base = State.base a2 := by
  intros; rfl

@[simp] theorem State.ledgerTotal_base : ∀ a0 a1, (State.ledgerTotal a0 a1).1.base = State.base a1 := by
  intros; rfl

@[simp] theorem State.ledgerWord_base : ∀ a0 a1 a2, (State.ledgerWord a0 a1 a2).1.base = State.base a2 := by
  intros; unfold State.ledgerWord; simp only []; (repeat' split) <;> simp

@[simp] theorem State.lowRead_base : ∀ a0 a1 a2 a3, (State.lowRead a0 a1 a2 a3).1.base = State.base a3 := by
  intros; rfl

@[simp] theorem State.highRead_base : ∀ a0 a1 a2 a3, (State.highRead a0 a1 a2 a3).1.base = State.base a3 := by
  intros; unfold State.highRead; split <;> simp

@[simp] theorem State.readReg_base : ∀ a0 a1 a2, (State.readReg a0 a1 a2).1.base = State.base a2 := by
  intros; unfold State.readReg; (repeat' split) <;> simp

@[simp] theorem State.respond_base : ∀ a0 a1 a2 a3 a4, (State.respond a0 a1 a2 a3 a4).base = State.base a4 := by
  intros; rfl

@[simp] theorem State.spdmError_base : ∀ a0 a1, (State.spdmError a0 a1).base = State.base a1 := by
  intros; rfl

@[simp] theorem State.spdmAnswer_base : ∀ a0 a1 a2 a3 a4, (State.spdmAnswer a0 a1 a2 a3 a4).base = State.base a4 := by
  intros; unfold State.spdmAnswer; simp

@[simp] theorem State.lockRows_base : ∀ a0, (State.lockRows a0).base = State.base a0 := by
  intros; unfold State.lockRows; simp

@[simp] theorem State.wakeRow_base : ∀ a0 a1, (State.wakeRow a0 a1).base = State.base a1 := by
  intros; rfl

@[simp] theorem State.keepRows_base : ∀ a0, (State.keepRows a0).base = State.base a0 := by
  intros; unfold State.keepRows; simp

@[simp] theorem State.wakeAll_base : ∀ a0, (State.wakeAll a0).base = State.base a0 := by
  intros; exact base_foldl _ _ _ fun s r => by simp

@[simp] theorem State.tap_base : ∀ a0 a1 a2, (State.tap a0 a1 a2).base = State.base a2 := by
  intros; rfl

@[simp] theorem State.tapReset_base : ∀ a0, (State.tapReset a0).base = State.base a0 := by
  intros; rfl

@[simp] theorem State.setTally_base : ∀ a0 a1 a2, (State.setTally a0 a1 a2).base = State.base a2 := by
  intros; rfl

@[simp] theorem State.modShaft_base : ∀ a0 a1 a2, (State.modShaft a0 a1 a2).base = State.base a2 := by
  intros; rfl

@[simp] theorem State.modCredits_base : ∀ a0 a1 a2, (State.modCredits a0 a1 a2).base = State.base a2 := by
  intros; rfl

@[simp] theorem State.creditError_base : ∀ a0 a1, (State.creditError a0 a1).base = State.base a1 := by
  intros; unfold State.creditError; simp

@[simp] theorem State.dropShort_base : ∀ a0 a1 a2, (State.dropShort a0 a1 a2).base = State.base a2 := by
  intros; rfl

@[simp] theorem State.activatePorts_base : ∀ a0 a1, (State.activatePorts a0 a1).base = State.base a1 := by
  intros; rfl

@[simp] theorem State.creditInit_base : ∀ a0 a1 a2 a3, (State.creditInit a0 a1 a2 a3).base = State.base a3 := by
  intros; unfold State.creditInit; simp

@[simp] theorem State.creditReturned_base : ∀ a0 a1 a2 a3, (State.creditReturned a0 a1 a2 a3).base = State.base a3 := by
  intros; unfold State.creditReturned; simp

@[simp] theorem State.memCpl_base : ∀ a0 a1 a2 a3 a4, (State.memCpl a0 a1 a2 a3 a4).base = State.base a4 := by
  intros; rfl

@[simp] theorem State.failTransfer_base : ∀ a0 a1, (State.failTransfer a0 a1).base = State.base a1 := by
  intros; unfold State.failTransfer; split <;> simp

@[simp] theorem State.absorbBulk_base : ∀ a0 a1 a2, (State.absorbBulk a0 a1 a2).base = State.base a2 := by
  intros; unfold State.absorbBulk; simp

@[simp] theorem State.startTraining_base : ∀ a0 a1, (State.startTraining a0 a1).base = State.base a1 := by
  intros; rfl

@[simp] theorem State.shaftDown_base : ∀ a0 a1, (State.shaftDown a0 a1).base = State.base a1 := by
  intros; unfold State.shaftDown; simp

@[simp] theorem State.shaftFailed_base : ∀ a0 a1, (State.shaftFailed a0 a1).base = State.base a1 := by
  intros; unfold State.shaftFailed; simp

@[simp] theorem State.initCredits_base : ∀ a0 a1 a2, (State.initCredits a0 a1 a2).base = State.base a2 := by
  intros; unfold State.initCredits; simp

@[simp] theorem State.cutTraffic_base : ∀ a0 a1 a2 a3, (State.cutTraffic a0 a1 a2 a3).base = State.base a3 := by
  intros; unfold State.cutTraffic; (repeat' split) <;> simp

@[simp] theorem State.holdShaft_base : ∀ a0 a1 a2 a3 a4, (State.holdShaft a0 a1 a2 a3 a4).base = State.base a4 := by
  intros; unfold State.holdShaft; simp

@[simp] theorem State.deleteSnapshot_base : ∀ a0 a1, (State.deleteSnapshot a0 a1).base = State.base a1 := by
  intros; unfold State.deleteSnapshot; simp

@[simp] theorem State.makeRoom_base : ∀ a0 a1 a2, (State.makeRoom a0 a1 a2).2.base = State.base a2 := by
  intro n f
  induction f with
  | zero => intro s; rfl
  | succ f ih =>
    intro s
    unfold State.makeRoom
    split
    · rfl
    · split
      · rfl
      · rw [ih, State.deleteSnapshot_base]

@[simp] theorem State.fitSnapshot_base : ∀ a0 a1, (State.fitSnapshot a0 a1).2.base = State.base a1 := by
  intros; unfold State.fitSnapshot; split
  · rfl
  · exact State.makeRoom_base _ _ _

@[simp] theorem State.putSnapshot_base : ∀ a0 a1, (State.putSnapshot a0 a1).base = State.base a1 := by
  intros; unfold State.putSnapshot; split <;> simp

@[simp] theorem State.reading_base : ∀ a0 a1 a2, (State.reading a0 a1 a2).base = State.base a2 := by
  intros; rfl

@[simp] theorem State.restored_base : ∀ a0 a1, (State.restored a0 a1).base = State.base a1 := by
  intros; rfl

@[simp] theorem State.losePage_base : ∀ a0 a1, (State.losePage a0 a1).base = State.base a1 := by
  intros; unfold State.losePage; simp

@[simp] theorem State.meetStore_base : ∀ a0 a1, (State.meetStore a0 a1).base = State.base a1 := by
  intros; unfold State.meetStore; simp

@[simp] theorem State.meetFps_base : ∀ a0 a1, (State.meetFps a0 a1).base = State.base a1 := by
  intros; unfold State.meetFps; simp

@[simp] theorem State.storeRecord_base : ∀ a0 a1 a2, (State.storeRecord a0 a1 a2).1.base = State.base a2 := by
  intros; unfold State.storeRecord; simp

@[simp] theorem State.storeRecords_base : ∀ a0 a1, (State.storeRecords a0 a1).1.base = State.base a1 := by
  intro rs s; unfold State.storeRecords
  have h : ∀ (l : List Bytes) (a : State × List FpOutcome),
      (l.foldl (fun (a : State × List FpOutcome) r => let x := a.1.storeRecord (s.freshCtr + a.2.length) r; (x.1, a.2 ++ [x.2])) a).1.base = a.1.base := by
    intro l
    induction l with
    | nil => intro a; rfl
    | cons r l ih => intro a; rw [List.foldl_cons, ih]; exact State.storeRecord_base _ _ _
  exact h rs (s, [])

@[simp] theorem State.storeSettle_base : ∀ a0 a1, (State.storeSettle a0 a1).base = State.base a1 := by
  intros; unfold State.storeSettle; simp

@[simp] theorem State.modDrift_base : ∀ a0 a1 a2, (State.modDrift a0 a1 a2).base = State.base a2 := by
  intros; rfl

@[simp] theorem State.endDrift_base : ∀ a0 a1, (State.endDrift a0 a1).base = State.base a1 := by
  intros; unfold State.endDrift
  refine base_foldl _ _ _ fun s m => ?_
  split <;> simp

@[simp] theorem State.startReplica_base : ∀ a0 a1 a2, (State.startReplica a0 a1 a2).base = State.base a2 := by
  intros; unfold State.startReplica; split <;> simp

@[simp] theorem State.replicate_base : ∀ a0 a1 a2, (State.replicate a0 a1 a2).base = State.base a2 := by
  intros; unfold State.replicate; split <;> simp

@[simp] theorem State.startPending_base : ∀ a0 a1, (State.startPending a0 a1).base = State.base a1 := by
  intros; unfold State.startPending; split <;> simp

@[simp] theorem State.replicateCapture_base : ∀ a0 a1, (State.replicateCapture a0 a1).base = State.base a1 := by
  intros; unfold State.replicateCapture; split <;> simp

@[simp] theorem State.driftAck_base : ∀ a0 a1 a2, (State.driftAck a0 a1 a2).base = State.base a2 := by
  intros; unfold State.driftAck; simp

@[simp] theorem State.nakBack_base : ∀ a0 a1, (State.nakBack a0 a1).base = State.base a1 := by
  intros; rfl

@[simp] theorem State.replayFrom_base : ∀ a0 a1 a2, (State.replayFrom a0 a1 a2).base = State.base a2 := by
  intros; rfl

@[simp] theorem State.driftActivate_base : ∀ a0 a1, (State.driftActivate a0 a1).base = State.base a1 := by
  intros; unfold State.driftActivate; simp

@[simp] theorem State.driftDown_base : ∀ a0 a1, (State.driftDown a0 a1).base = State.base a1 := by
  intros; unfold State.driftDown; simp

@[simp] theorem State.fpCommit_base : ∀ a0, (State.fpCommit a0).base = State.base a0 := by
  intros; rfl

@[simp] theorem State.startForwarded_base : ∀ a0, (State.startForwarded a0).base = State.base a0 := by
  intros; unfold State.startForwarded; split <;> simp

@[simp] theorem State.dropForwarded_base : ∀ a0 a1, (State.dropForwarded a0 a1).base = State.base a1 := by
  intros; unfold State.dropForwarded; simp

@[simp] theorem State.failForwarded_base : ∀ a0 a1, (State.failForwarded a0 a1).base = State.base a1 := by
  intros; unfold State.failForwarded; simp

@[simp] theorem State.cutForwarded_base : ∀ a0 a1, (State.cutForwarded a0 a1).base = State.base a1 := by
  intros; unfold State.cutForwarded; simp

@[simp] theorem State.driftCut_base : ∀ a0 a1, (State.driftCut a0 a1).base = State.base a1 := by
  intro q s; unfold State.driftCut
  extract_lets d s0 s1 s2 s3
  have h0 : s0.base = s.base := by simp only [s0]; split <;> rfl
  have h3 : s3.base = s.base := by
    simp only [s3, s2, s1, State.cutForwarded_base, State.endDrift_base, State.modDrift_base, h0]
  refine (base_foldl _ _ _ fun s k => ?_).trans h3
  dsimp only
  split
  · split
    · simp
    · rfl
  · rfl

@[simp] theorem State.holdDrift_base : ∀ a0 a1 a2, (State.holdDrift a0 a1 a2).base = State.base a2 := by
  intros; unfold State.holdDrift; simp

@[simp] theorem State.addData_base : ∀ a0 a1 a2 a3 a4 a5 a6 a7, (State.addData a0 a1 a2 a3 a4 a5 a6 a7).base = State.base a7 := by
  intros; rfl

@[simp] theorem State.takeXfer_base : ∀ a0 a1 a2 a3 a4, (State.takeXfer a0 a1 a2 a3 a4).1.base = State.base a4 := by
  intros; rfl

@[simp] theorem State.acceptSnapshot_base : ∀ a0 a1 a2 a3 a4, (State.acceptSnapshot a0 a1 a2 a3 a4).1.base = State.base a4 := by
  intros; unfold State.acceptSnapshot; dsimp only
  split
  · rfl
  · split
    · rfl
    · split <;> simp

@[simp] theorem State.dropReplicas_base : ∀ a0 a1, (State.dropReplicas a0 a1).base = State.base a1 := by
  intros; unfold State.dropReplicas; simp

@[simp] theorem State.storeReplica_base : ∀ a0 a1, (State.storeReplica a0 a1).1.base = State.base a1 := by
  intro r s; unfold State.storeReplica
  extract_lets same s1
  generalize (4096 : Nat) = n
  generalize State.allocate s s.spareSpan 2 = l
  split
  · exact State.dropReplicas_base _ s
  · rfl

@[simp] theorem State.rehomeGrate_base : ∀ a0 a1, (State.rehomeGrate a0 a1).base = State.base a1 := by
  intros; unfold State.rehomeGrate; simp

@[simp] theorem State.rehomeFlues_base : ∀ a0, (State.rehomeFlues a0).base = State.base a0 := by
  intros; rfl

@[simp] theorem State.withHangs_base : ∀ a0, (State.withHangs a0).base = State.base a0 := by
  intros; rfl

@[simp] theorem State.reportShort_base : ∀ a0 a1, (State.reportShort a0 a1).base = State.base a1 := by
  intros; unfold State.reportShort; simp

@[simp] theorem State.takeHot_base : ∀ a0 a1, (State.takeHot a0 a1).base = State.base a1 := by
  intros; rfl

@[simp] theorem State.admitStream_base : ∀ a0 a1, (State.admitStream a0 a1).1.base = State.base a1 := by
  intros; unfold State.admitStream
  split
  · rfl
  · simp only []
    split
    · rfl
    · rw [State.newXfer_base, State.reading_base]; rfl

@[simp] theorem State.cancelTallies_base : ∀ a0 a1, (State.cancelTallies a0 a1).base = State.base a1 := by
  intros; rfl

@[simp] theorem State.dropWork_base : ∀ a0 a1, (State.dropWork a0 a1).base = State.base a1 := by
  intros; rfl

@[simp] theorem State.cutItems_base : ∀ a0 a1 a2, (State.cutItems a0 a1 a2).base = State.base a2 := by
  intros; rfl

theorem State.meetPages_base (sid : Nat) (ks : List Nat) (s u : State) (h : s.meetPages sid ks = some u) : u.base = s.base := by
  unfold State.meetPages at h
  split at h
  · cases h
  · dsimp only at h
    generalize (_ ++ _ : List Nat) = bad at h
    split at h
    · cases h
    · rw [← Option.some.inj h]
      split <;> simp

@[simp] theorem State.cutCommands_base : ∀ a0 a1, (State.cutCommands a0 a1).base = State.base a1 := by
  intro c s; unfold State.cutCommands
  extract_lets s1
  have h : s1.base = s.base := base_foldl _ _ _ fun s k => by split <;> first | rfl | (split <;> simp)
  rw [State.cutExec_base, h]

@[simp] theorem State.resetContext_base : ∀ a0 a1 a2, (State.resetContext a0 a1 a2).base = State.base a2 := by
  intros; unfold State.resetContext
  extract_lets s1 s2 s3
  have h : s3.base = s2.base := base_foldl _ _ _ fun s p => by simp
  rw [State.tryQuarantine_base, h, State.cutCommands_base, State.dropWork_base, State.cancelTallies_base, State.modCtx_base]

@[simp] theorem State.faultReset_base : ∀ a0 a1 a2, (State.faultReset a0 a1 a2).base = State.base a2 := by
  intros; unfold State.faultReset; simp

@[simp] theorem State.suspectReset_base : ∀ a0 a1, (State.suspectReset a0 a1).base = State.base a1 := by
  intros; rfl

@[simp] theorem State.recordEvents_base : ∀ a0 a1 a2 a3 a4 a5, (State.recordEvents a0 a1 a2 a3 a4 a5).base = State.base a5 := by
  intros; unfold State.recordEvents; simp

@[simp] theorem State.windowEvent_base : ∀ a0 a1 a2 a3 a4 a5 a6, (State.windowEvent a0 a1 a2 a3 a4 a5 a6).base = State.base a6 := by
  intros; rfl

@[simp] theorem State.countContext_base : ∀ a0 a1 a2 a3 a4, (State.countContext a0 a1 a2 a3 a4).base = State.base a4 := by
  intros; unfold State.countContext; simp

@[simp] theorem State.countContexts_base : ∀ a0 a1 a2 a3 a4, (State.countContexts a0 a1 a2 a3 a4).base = State.base a4 := by
  intros; unfold State.countContexts
  refine base_foldl _ _ _ fun s a => ?_
  split
  · split <;> simp
  · rfl

@[simp] theorem State.modItem_base : ∀ a0 a1 a2, (State.modItem a0 a1 a2).base = State.base a2 := by
  intros; rfl

@[simp] theorem State.modChunk_base : ∀ a0 a1 a2, (State.modChunk a0 a1 a2).base = State.base a2 := by
  intros; rfl

@[simp] theorem State.modCand_base : ∀ a0 a1 a2, (State.modCand a0 a1 a2).base = State.base a2 := by
  intros; rfl

@[simp] theorem State.calc_base {α : Type} (c : Nat) (m : Calc α) (s : State) : (s.calc c m).2.base = s.base := by
  unfold State.calc; simp

@[simp] theorem State.startRequest_base : ∀ a0 a1 a2 a3, (State.startRequest a0 a1 a2 a3).base = State.base a3 := by
  intros; unfold State.startRequest; (repeat' split) <;> simp

@[simp] theorem State.reqTrigger_base : ∀ a0 a1 a2, (State.reqTrigger a0 a1 a2).base = State.base a2 := by
  intros; unfold State.reqTrigger; (repeat' split) <;> simp

@[simp] theorem State.accumulate_base : ∀ a0 a1 a2, (State.accumulate a0 a1 a2).base = State.base a2 := by
  intros; unfold State.accumulate; (repeat' split) <;> simp

@[simp] theorem State.trailScore_base : ∀ a0 a1 a2 a3, (State.trailScore a0 a1 a2 a3).base = State.base a3 := by
  intros; rfl

@[simp] theorem State.closeTrail_base : ∀ a0 a1, (State.closeTrail a0 a1).base = State.base a1 := by
  intros; unfold State.closeTrail; (repeat' split) <;> simp

@[simp] theorem State.assess_base (n tok : Nat) (s : State) : (s.assess n tok).2.base = s.base := by
  unfold State.assess; (repeat' split) <;> simp

@[simp] theorem State.reevaluate_base : ∀ a0 a1 a2, (State.reevaluate a0 a1 a2).base = State.base a2 := by
  intros; unfold State.reevaluate; dsimp only; (repeat' split) <;> simp

@[simp] theorem State.evaluate_base (n tok : Nat) (s : State) : (s.evaluate n tok).2.base = s.base := by
  unfold State.evaluate
  split
  · rfl
  · simp only []
    (repeat' split) <;> simp

@[simp] theorem State.loseRewind_base : ∀ a0 a1, (State.loseRewind a0 a1).base = State.base a1 := by
  intros; unfold State.loseRewind; split <;> simp

@[simp] theorem State.touch_base : ∀ a0 a1, (State.touch a0 a1).base = State.base a1 := by
  intros; unfold State.touch; simp

@[simp] theorem State.dropItem_base : ∀ a0 a1, (State.dropItem a0 a1).base = State.base a1 := by
  intros; unfold State.dropItem; split <;> simp

@[simp] theorem State.countLate_base : ∀ a0 a1, (State.countLate a0 a1).base = State.base a1 := by
  intros; unfold State.countLate; split <;> simp

@[simp] theorem State.sendIn_base : ∀ a0 a1 a2, (State.sendIn a0 a1 a2).base = State.base a2 := by
  intros; unfold State.sendIn; simp

@[simp] theorem State.refuseChunks_base : ∀ a0 a1, (State.refuseChunks a0 a1).base = State.base a1 := by
  intros; rfl

@[simp] theorem State.blockStream_base : ∀ a0 a1 a2, (State.blockStream a0 a1 a2).base = State.base a2 := by
  intros; rfl

@[simp] theorem State.giveUpSave_base : ∀ a0 a1 a2, (State.giveUpSave a0 a1 a2).base = State.base a2 := by
  intros; unfold State.giveUpSave; (repeat' split) <;> simp

@[simp] theorem State.saveSnapshot_base : ∀ a0 a1 a2 a3, (State.saveSnapshot a0 a1 a2 a3).base = State.base a3 := by
  intros; unfold State.saveSnapshot
  split
  · rfl
  · dsimp only
    split
    · simp
    · split <;> simp

@[simp] theorem State.chunkReleased_base : ∀ a0 a1 a2 a3 a4 a5, (State.chunkReleased a0 a1 a2 a3 a4 a5).base = State.base a5 := by
  intros; unfold State.chunkReleased; split <;> simp

@[simp] theorem State.turnGenerating_base : ∀ a0 a1, (State.turnGenerating a0 a1).base = State.base a1 := by
  intros; unfold State.turnGenerating; split <;> simp

@[simp] theorem State.answerChunk_base : ∀ a0 a1 a2, (State.answerChunk a0 a1 a2).base = State.base a2 := by
  intros; unfold State.answerChunk; (repeat' split) <;> simp

@[simp] theorem State.reportChunk_base : ∀ a0 a1, (State.reportChunk a0 a1).base = State.base a1 := by
  intros; unfold State.reportChunk; (repeat' split) <;> simp

@[simp] theorem State.lateChunk_base : ∀ a0 a1, (State.lateChunk a0 a1).base = State.base a1 := by
  intros; unfold State.lateChunk; simp only []; (repeat' split) <;> simp

@[simp] theorem State.plainIn_base : ∀ a0 a1 a2 a3, (State.plainIn a0 a1 a2 a3).base = State.base a3 := by
  intro n it b s; unfold State.plainIn
  extract_lets base s0
  have h : s0.base = s.base := by simp only [s0]; split <;> simp
  clear_value s0
  (repeat' split) <;> simp [h]

@[simp] theorem State.sendOut_base : ∀ a0 a1 a2, (State.sendOut a0 a1 a2).base = State.base a2 := by
  intros; unfold State.sendOut; simp

@[simp] theorem State.sendDraft_base : ∀ a0 a1 a2, (State.sendDraft a0 a1 a2).base = State.base a2 := by
  intro it b s; unfold State.sendDraft
  split
  · split
    · rfl
    · extract_lets s0 s1 src c pkt
      have h0 : s0.base = s.base := by simp only [s0]; split <;> simp
      have h1 : s1.base = s.base := by simp only [s1]; split <;> simp [h0]
      clear_value s1
      split
      · exact h1
      · split <;> simp [h1]
  · rfl

@[simp] theorem State.commitOut_base : ∀ a0 a1 a2 a3 a4 a5, (State.commitOut a0 a1 a2 a3 a4 a5).base = State.base a5 := by
  intros; unfold State.commitOut; split <;> simp

@[simp] theorem State.answerCand_base : ∀ a0 a1 a2, (State.answerCand a0 a1 a2).base = State.base a2 := by
  intros; unfold State.answerCand; (repeat' split) <;> simp

@[simp] theorem State.reportCand_base : ∀ a0 a1, (State.reportCand a0 a1).base = State.base a1 := by
  intros; unfold State.reportCand; (repeat' split) <;> simp

@[simp] theorem State.lateCand_base : ∀ a0 a1, (State.lateCand a0 a1).base = State.base a1 := by
  intros; unfold State.lateCand; simp only []; (repeat' split) <;> simp

@[simp] theorem State.refusedOut_base : ∀ a0 a1 a2 a3, (State.refusedOut a0 a1 a2 a3).base = State.base a3 := by
  intros; unfold State.refusedOut; simp

@[simp] theorem State.plainOut_base : ∀ a0 a1 a2 a3, (State.plainOut a0 a1 a2 a3).base = State.base a3 := by
  intros; unfold State.plainOut; (repeat' split) <;> simp

@[simp] theorem State.sendRunEnd_base : ∀ a0 a1 a2 a3, (State.sendRunEnd a0 a1 a2 a3).base = State.base a3 := by
  intros; unfold State.sendRunEnd; simp

@[simp] theorem State.followMove_base : ∀ a0 a1, (State.followMove a0 a1).base = State.base a1 := by
  intros; unfold State.followMove; split <;> simp

@[simp] theorem State.movePins_base : ∀ a0 a1 a2, (State.movePins a0 a1 a2).base = State.base a2 := by
  intros; rfl

@[simp] theorem State.endRun_base : ∀ a0 a1 a2 a3 a4, (State.endRun a0 a1 a2 a3 a4).base = State.base a4 := by
  intros; rfl

@[simp] theorem State.addItem_base : ∀ a0 a1, (State.addItem a0 a1).base = State.base a1 := by
  intros; rfl

@[simp] theorem State.verifyChunk_base : ∀ a0 a1 a2 a3, (State.verifyChunk a0 a1 a2 a3).base = State.base a3 := by
  intros; unfold State.verifyChunk; simp only []; (repeat' split) <;> simp

@[simp] theorem State.acceptChunk_base : ∀ a0 a1 a2 a3, (State.acceptChunk a0 a1 a2 a3).base = State.base a3 := by
  intros; unfold State.acceptChunk; simp only []; (repeat' split) <;> simp

@[simp] theorem State.expire_base : ∀ a0 a1 a2 a3, (State.expire a0 a1 a2 a3).base = State.base a3 := by
  intros; rfl

@[simp] theorem State.firstHot_base : ∀ a0 a1, (State.firstHot a0 a1).base = State.base a1 := by
  intros; unfold State.firstHot; split <;> simp

@[simp] theorem State.takeChunk_base : ∀ a0 a1 a2 a3, (State.takeChunk a0 a1 a2 a3).base = State.base a3 := by
  intros; unfold State.takeChunk; simp only []; (repeat' split) <;> simp

@[simp] theorem State.beginChunk_base : ∀ a0 a1, (State.beginChunk a0 a1).base = State.base a1 := by
  intros; unfold State.beginChunk; simp only []; (repeat' split) <;> simp

@[simp] theorem State.blockChunk_base : ∀ a0 a1, (State.blockChunk a0 a1).base = State.base a1 := by
  intros; unfold State.blockChunk; split <;> simp

@[simp] theorem State.holdChunk_base : ∀ a0 a1, (State.holdChunk a0 a1).base = State.base a1 := by
  intros; unfold State.holdChunk; (repeat' split) <;> simp

@[simp] theorem State.intakeTask_base : ∀ a0 a1 a2 a3, (State.intakeTask a0 a1 a2 a3).base = State.base a3 := by
  intros; unfold State.intakeTask; simp only []; (repeat' split) <;> simp

@[simp] theorem State.afterHits_base : ∀ a0 a1 a2 a3, (State.afterHits a0 a1 a2 a3).base = State.base a3 := by
  intros; rfl

@[simp] theorem State.applyLookup_base : ∀ a0 a1 a2, (State.applyLookup a0 a1 a2).base = State.base a2 := by
  intros; unfold State.applyLookup; (repeat' split) <;> simp

@[simp] theorem State.settleLookups_base : ∀ a0 a1, (State.settleLookups a0 a1).base = State.base a1 := by
  intros; unfold State.settleLookups
  refine base_foldl_snd _ _ _ fun a p => ?_
  split
  · rfl
  · refine base_foldl_snd _ _ _ fun a l => ?_
    split
    · rfl
    · split <;> simp

@[simp] theorem State.lateSummary_base : ∀ a0 a1, (State.lateSummary a0 a1).base = State.base a1 := by
  intros; unfold State.lateSummary; (repeat' split) <;> simp

@[simp] theorem State.runSlice_base : ∀ a0 a1 a2 a3, (State.runSlice a0 a1 a2 a3).base = State.base a3 := by
  intros; unfold State.runSlice; (repeat' split) <;> simp

@[simp] theorem State.wakeWaiting_base : ∀ a0, (State.wakeWaiting a0).base = State.base a0 := by
  intros; unfold State.wakeWaiting; split <;> simp

@[simp] theorem State.fireHearths_base : ∀ a0, (State.fireHearths a0).base = State.base a0 := by
  intro s; unfold State.fireHearths
  extract_lets s1 p2 used s2 s3
  have h1 : s1.base = s.base := base_foldl _ _ _ fun s c => base_foldl _ _ _ fun s q => State.runSlice_base ..
  have h3 : s3.base = s2.base := base_foldl _ _ _ fun s c => base_foldl _ _ _ fun s q => State.modChunk_base ..
  have h2 : s2.base = s.base := h1
  split
  · rw [State.wakeAll_base, h3, h2]
  · rw [h3, h2]

@[simp] theorem State.acceptCand_base : ∀ a0 a1 a2, (State.acceptCand a0 a1 a2).base = State.base a2 := by
  intros; unfold State.acceptCand; simp

@[simp] theorem State.takeCandidates_base : ∀ a0 a1 a2 a3, (State.takeCandidates a0 a1 a2 a3).base = State.base a3 := by
  intros; unfold State.takeCandidates; simp only []; (repeat' split) <;> simp

@[simp] theorem State.beginCand_base : ∀ a0 a1, (State.beginCand a0 a1).base = State.base a1 := by
  intros; unfold State.beginCand
  split
  · rfl
  · split
    · dsimp only; split <;> simp
    · rfl

@[simp] theorem State.lookahead_base : ∀ a0 a1 a2 a3 a4, (State.lookahead a0 a1 a2 a3 a4).base = State.base a4 := by
  intros; unfold State.lookahead; (repeat' split) <;> simp

@[simp] theorem State.meetSubst_base : ∀ a0 a1 a2 a3 a4, (State.meetSubst a0 a1 a2 a3 a4).base = State.base a4 := by
  intros; unfold State.meetSubst; (repeat' split) <;> simp

@[simp] theorem State.decidePos_base : ∀ a0 a1, (State.decidePos a0 a1).base = State.base a1 := by
  intros; unfold State.decidePos
  split
  · rfl
  · split
    · split
      · rfl
      · split
        · rfl
        · extract_lets pos stages surv s1 b1
          have h : s1.base = _ := base_foldl _ _ _ fun s q => by split <;> simp
          clear_value s1
          split
          · simp [h]
          · split <;>
              (simp only [State.modCand_base, State.modStream_base]; exact (State.calc_base ..).trans h)
    · rfl

@[simp] theorem State.deliver_base : ∀ a0 a1 a2 a3 a4, (State.deliver a0 a1 a2 a3 a4).base = State.base a4 := by
  intros; unfold State.deliver; simp

@[simp] theorem State.draftPassed_base : ∀ a0 a1, (State.draftPassed a0 a1).base = State.base a1 := by
  intros; unfold State.draftPassed; (repeat' split) <;> simp

@[simp] theorem State.runPosition_base : ∀ a0 a1 a2, (State.runPosition a0 a1 a2).base = State.base a2 := by
  intros; unfold State.runPosition; split <;> simp

@[simp] theorem State.completePasses_base : ∀ a0 a1, (State.completePasses a0 a1).base = State.base a1 := by
  intros; unfold State.completePasses; simp

@[simp] theorem State.startFlue_base : ∀ a0 a1 a2, (State.startFlue a0 a1 a2).base = State.base a2 := by
  intros; unfold State.startFlue; simp only []; (repeat' split) <;> simp

@[simp] theorem State.enqueue_base : ∀ a0 a1, (State.enqueue a0 a1).base = State.base a1 := by
  intros; rfl

@[simp] theorem State.startFlues_base : ∀ a0, (State.startFlues a0).base = State.base a0 :=
  fun _ => base_foldl _ _ _ fun _ _ => State.startFlue_base ..

@[simp] theorem State.endFluePass_base : ∀ a0 a1 a2 a3, (State.endFluePass a0 a1 a2 a3).base = State.base a3 := by
  intros; unfold State.endFluePass; split <;> simp

@[simp] theorem State.gateTick_base : ∀ a0 a1, (State.gateTick a0 a1).base = State.base a1 := by
  intros; unfold State.gateTick; simp only []; (repeat' split) <;> simp

@[simp] theorem State.takeToken_base : ∀ a0 a1 a2 a3 a4 a5, (State.takeToken a0 a1 a2 a3 a4 a5).base = State.base a5 := by
  intros; unfold State.takeToken
  split
  · rfl
  · refine base_foldl _ _ _ fun s m => ?_
    split
    · rfl
    · simp only []; split <;> simp

@[simp] theorem State.endTokens_base : ∀ a0 a1 a2 a3 a4, (State.endTokens a0 a1 a2 a3 a4).base = State.base a4 := by
  intros; unfold State.endTokens
  split
  · rfl
  · refine base_foldl _ _ _ fun s m => ?_
    split
    · rfl
    · simp only []; split <;> simp

@[simp] theorem State.runProbe_base : ∀ a0 a1 a2 a3, (State.runProbe a0 a1 a2 a3).base = State.base a3 := by
  intros; unfold State.runProbe; (repeat' split) <;> simp

@[simp] theorem State.closeWaits_base : ∀ a0 a1, (State.closeWaits a0 a1).base = State.base a1 := by
  intros; unfold State.closeWaits; (repeat' split) <;> simp

@[simp] theorem State.settleProbes_base : ∀ a0 a1 a2 a3, (State.settleProbes a0 a1 a2 a3).base = State.base a3 := by
  intro sid u n
  induction n with
  | zero => intro s; exact State.closeWaits_base ..
  | succ n ih =>
    intro s; unfold State.settleProbes
    split
    · exact State.closeWaits_base ..
    · rw [ih, State.runProbe_base]

@[simp] theorem State.calTap_base : ∀ a0 a1 a2, (State.calTap a0 a1 a2).1.base = State.base a2 := by
  intro dom c s; unfold State.calTap
  have h : ∀ (l : List TapSlot) (a : State × List (TapSlot × Bool)),
      (l.foldl (fun (a : State × List (TapSlot × Bool)) v =>
        let k := (a.1.norm dom v.slot).cal v
        ({ a.1 with norms := tset a.1.norms (normKey dom v.slot) k.1 }, a.2 ++ [(v, k.2)])) a).1.base = a.1.base := by
    intro l
    induction l with
    | nil => intro a; rfl
    | cons r l ih => intro a; rw [List.foldl_cons, ih]; rfl
  exact h _ (s, [])

@[simp] theorem State.stageSlot_base : ∀ a0 a1 a2 a3 a4, (State.stageSlot a0 a1 a2 a3 a4).base = State.base a4 := by
  intros; unfold State.stageSlot; split <;> simp

@[simp] theorem State.takeTap_base : ∀ a0 a1 a2 a3, (State.takeTap a0 a1 a2 a3).base = State.base a3 := by
  intro dom c vs s; unfold State.takeTap
  split
  · rfl
  · extract_lets ctx taken w came fresh s1 need s2
    have h1 : s1.base = s.base := by simp only [s1]; split <;> simp
    have h2 : s2.base = s.base := (base_foldl _ _ _ fun s q => State.stageSlot_base ..).trans h1
    clear_value s1 s2
    (repeat' split) <;> simp [h1, h2]

@[simp] theorem State.receiveTap_base : ∀ a0 a1 a2, (State.receiveTap a0 a1 a2).base = State.base a2 := by
  intros; unfold State.receiveTap; dsimp only
  split
  · split <;> simp
  · (repeat' split) <;> simp

@[simp] theorem State.applyEffect_base : ∀ a0 a1 a2 a3 a4 a5 a6, (State.applyEffect a0 a1 a2 a3 a4 a5 a6).base = State.base a6 := by
  intros; unfold State.applyEffect; simp only []; (repeat' split) <;> simp

@[simp] theorem State.commitFp_base : ∀ a0 a1 a2 a3 a4 a5 a6, (State.commitFp a0 a1 a2 a3 a4 a5 a6).base = State.base a6 := by
  intros; unfold State.commitFp; (repeat' split) <;> simp

@[simp] theorem State.commitToken_base : ∀ a0 a1 a2 a3 a4, (State.commitToken a0 a1 a2 a3 a4).base = State.base a4 := by
  intros; unfold State.commitToken; simp only []; (repeat' split) <;> simp

@[simp] theorem State.presentEnd_base (sid item tok stamp : Nat) (pins : List Nat) (s : State) :
    (s.presentEnd sid item tok stamp pins).2.base = s.base := by
  unfold State.presentEnd
  split
  · rfl
  · simp only [State.endTokens_base, State.modStream_base]
    refine base_foldl_snd _ _ _ fun a p => ?_
    simp only []
    split <;> simp

@[simp] theorem State.presentRunEnd_base : ∀ a0 a1, (State.presentRunEnd a0 a1).base = State.base a1 := by
  intros; unfold State.presentRunEnd; (repeat' split) <;> simp

@[simp] theorem State.commitTail_base : ∀ a0 a1 a2, (State.commitTail a0 a1 a2).base = State.base a2 := by
  intro n k s; unfold State.commitTail
  split
  · rfl
  · split
    · extract_lets sid c sets stop part hold far hold' ends unreleased firstByte e blocked point es s1 s2 s3 s4 s5
      have he : e.2.base = s.base := by
        simp only [e]
        split
        · exact State.presentEnd_base ..
        · rfl
      have h1 : s1.base = s.base := (State.modItem_base ..).trans he
      have h2 : s2.base = s.base := by
        simp only [s2]
        split
        · exact (State.ctxCount_base ..).trans h1
        · exact h1
      have h3 : s3.base = s.base := (State.modStream_base ..).trans h2
      have h4 : s4.base = s.base := by
        simp only [s4]
        split
        · exact h3
        · exact (State.ctxCountBy_base ..).trans h3
      rw [State.startFlues_base, State.settleProbes_base]
      exact h4
    · rfl

@[simp] theorem State.commitStep_base : ∀ a0 a1 a2, (State.commitStep a0 a1 a2).base = State.base a2 := by
  intros; unfold State.commitStep; simp only []; (repeat' split) <;> simp

theorem State.neural_base (it : Item) (m : Model) (k : Nat) (s : State) : (s.neural it m k).2.base = s.base := by
  unfold State.neural
  split
  · rfl
  · extract_lets st
    split
    · rfl
    · exact (State.modStream_base ..).trans ((State.calc_base ..).trans (State.fresh_base ..))

@[simp] theorem State.startDraft_base : ∀ a0 a1, (State.startDraft a0 a1).base = State.base a1 := by
  intros; unfold State.startDraft; dsimp only; (repeat' split) <;> simp

@[simp] theorem State.propose_base : ∀ a0 a1 a2, (State.propose a0 a1 a2).base = State.base a2 := by
  intro n k s; unfold State.propose
  split
  · rfl
  · split
    · split
      · rfl
      · extract_lets mode c size held wanted copies useNeural engines nr decide_ tick pass src r toks lost
        have hn : nr.2.base = s.base := by
          simp only [nr]
          split
          · rfl
          · exact State.neural_base ..
        exact (State.modCand_base ..).trans hn
    · rfl

@[simp] theorem State.serveInput_base : ∀ a0 a1 a2, (State.serveInput a0 a1 a2).base = State.base a2 := by
  intros; unfold State.serveInput; (repeat' split) <;> simp

@[simp] theorem State.beginItem_base : ∀ a0 a1 a2, (State.beginItem a0 a1 a2).base = State.base a2 := by
  intros; unfold State.beginItem; simp

theorem State.tryBegin_base (sid : Nat) (x : Stream) (s u : State) (h : s.tryBegin sid x = some u) : u.base = s.base := by
  unfold State.tryBegin at h
  split at h
  · cases h
  · split at h
    · cases h; simp
    · cases h

theorem State.tryRefuse_base (sid : Nat) (x : Stream) (s u : State) (h : s.tryRefuse sid x = some u) : u.base = s.base := by
  unfold State.tryRefuse at h
  split at h
  · obtain ⟨p, -, rfl⟩ := Option.map_eq_some_iff.1 h; simp
  · cases h

theorem State.tryEnd_base (sid : Nat) (x : Stream) (s u : State) (h : s.tryEnd sid x = some u) : u.base = s.base := by
  unfold State.tryEnd at h
  split at h
  · cases h
  · split at h
    · cases h; simp
    · cases h

theorem State.tryFinalChunk_base (sid : Nat) (s u : State) (h : s.tryFinalChunk sid = some u) : u.base = s.base := by
  obtain ⟨p, -, rfl⟩ := Option.map_eq_some_iff.1 h; simp

theorem State.tryAccumulate_base (sid : Nat) (s u : State) (h : s.tryAccumulate sid = some u) : u.base = s.base := by
  obtain ⟨p, -, rfl⟩ := Option.map_eq_some_iff.1 h; simp

@[simp] theorem State.tokenFinal_base : ∀ a0 a1 a2, (State.tokenFinal a0 a1 a2).base = State.base a2 := by
  intros; unfold State.tokenFinal; simp

theorem State.tryToken_base (sid : Nat) (x : Stream) (s u : State) (h : s.tryToken sid x = some u) : u.base = s.base := by
  obtain ⟨p, -, h⟩ := Option.bind_eq_some_iff.1 h
  obtain ⟨k, -, rfl⟩ := Option.map_eq_some_iff.1 h; simp

theorem State.tryFinalCand_base (sid : Nat) (s u : State) (h : s.tryFinalCand sid = some u) : u.base = s.base := by
  obtain ⟨p, -, rfl⟩ := Option.map_eq_some_iff.1 h; simp

@[simp] theorem State.plainAnswer_base : ∀ a0 a1 a2, (State.plainAnswer a0 a1 a2).base = State.base a2 := by
  intros; unfold State.plainAnswer; split <;> simp

@[simp] theorem State.finalAnswer_base : ∀ a0 a1 a2 a3, (State.finalAnswer a0 a1 a2 a3).base = State.base a3 := by
  intros; unfold State.finalAnswer; simp

theorem State.answerOr_base (n : Nat) (it : Item) (f : State → State) (s : State) (hf : ∀ s, (f s).base = s.base) :
    (s.answerOr n it f).base = s.base := by
  unfold State.answerOr
  split
  · exact hf s
  · rename_i h
    have h := State.meetPages_base _ _ _ _ h
    split <;> simp [h]

@[simp] theorem State.clearLate_base : ∀ a0 a1, (State.clearLate a0 a1).base = State.base a1 := by
  intros; unfold State.clearLate; simp

@[simp] theorem State.latePolicy_base : ∀ a0 a1 a2, (State.latePolicy a0 a1 a2).base = State.base a2 := by
  intros; unfold State.latePolicy; simp

theorem State.tryAnswer_base (sid : Nat) (x : Stream) (s u : State) (h : s.tryAnswer sid x = some u) : u.base = s.base := by
  obtain ⟨p, -, rfl⟩ := Option.map_eq_some_iff.1 h
  simp only [State.clearLate_base]
  split
  · simp
  · exact State.answerOr_base _ _ _ _ fun s => by simp

theorem State.tryReport_base (sid : Nat) (s u : State) (h : s.tryReport sid = some u) : u.base = s.base := by
  obtain ⟨p, -, rfl⟩ := Option.map_eq_some_iff.1 h
  (repeat' split) <;> simp

theorem State.tryRunEnd_base (sid : Nat) (x : Stream) (s u : State) (h : s.tryRunEnd sid x = some u) : u.base = s.base := by
  unfold State.tryRunEnd at h
  split at h
  · cases h
  · split at h
    · cases h; simp
    · cases h

theorem base_orElse (a : Option State) (f : Unit → Option State) (s u : State) (ha : ∀ v, a = some v → v.base = s.base)
    (hf : ∀ v, f () = some v → v.base = s.base) (h : a.orElse f = some u) : u.base = s.base := by
  cases a with
  | none => exact hf u h
  | some v => cases h; exact ha _ rfl

theorem State.progressStep_base (sid : Nat) (s u : State) (h : s.progressStep sid = some u) : u.base = s.base := by
  unfold State.progressStep at h
  split at h
  · cases h
  · split at h
    · exact State.tryAnswer_base _ _ _ _ h
    · refine base_orElse _ _ s u (State.tryRefuse_base _ _ _) (fun v h => ?_) h
      refine base_orElse _ _ s v (State.tryBegin_base _ _ _) (fun v h => ?_) h
      refine base_orElse _ _ s v (State.tryEnd_base _ _ _) (fun v h => ?_) h
      refine base_orElse _ _ s v (State.tryFinalChunk_base _ _) (fun v h => ?_) h
      refine base_orElse _ _ s v (State.tryAccumulate_base _ _) (fun v h => ?_) h
      refine base_orElse _ _ s v (State.tryToken_base _ _ _) (fun v h => ?_) h
      refine base_orElse _ _ s v (State.tryFinalCand_base _ _) (fun v h => ?_) h
      refine base_orElse _ _ s v (State.tryAnswer_base _ _ _) (fun v h => ?_) h
      exact base_orElse _ _ s v (State.tryReport_base _ _) (State.tryRunEnd_base _ _ _) h

@[simp] theorem State.progressLoop_base : ∀ a0 a1 a2, (State.progressLoop a0 a1 a2).base = State.base a2 := by
  intro sid n
  induction n with
  | zero => intro s; rfl
  | succ n ih =>
    intro s; unfold State.progressLoop
    split
    · rfl
    · rename_i h; rw [ih]; exact State.progressStep_base _ _ _ h

@[simp] theorem State.drainProgress_base : ∀ a0 a1, (State.drainProgress a0 a1).base = State.base a1 := by
  intros; unfold State.drainProgress; split <;> simp

@[simp] theorem State.progress_base : ∀ a0 a1, (State.progress a0 a1).base = State.base a1 := by
  intros; unfold State.progress; simp

@[simp] theorem State.progressAll_base : ∀ a0 a1, (State.progressAll a0 a1).base = State.base a1 := by
  intros; unfold State.progressAll; simp

@[simp] theorem State.progressCtx_base : ∀ a0 a1, (State.progressCtx a0 a1).base = State.base a1 := by
  intros; unfold State.progressCtx; simp

@[simp] theorem State.progressEvery_base : ∀ a0, (State.progressEvery a0).base = State.base a0 := by
  intros; unfold State.progressEvery; simp

@[simp] theorem State.placeGates_base : ∀ a0 a1, (State.placeGates a0 a1).base = State.base a1 := by
  intros; unfold State.placeGates; simp

@[simp] theorem State.startReset_base : ∀ a0 a1, (State.startReset a0 a1).base = State.base a1 := by
  intros; unfold State.startReset; simp

@[simp] theorem State.waitBehind_base : ∀ a0 a1 a2, (State.waitBehind a0 a1 a2).base = State.base a2 := by
  intros; unfold State.waitBehind; simp

@[simp] theorem State.releaseTime_base : ∀ a0 a1 a2, (State.releaseTime a0 a1 a2).base = State.base a2 := by
  intros; unfold State.releaseTime
  split
  · rfl
  · extract_lets carries prefixed
    split
    · (repeat' split) <;> simp
    · split
      · simp
      · refine State.answerOr_base _ _ _ _ fun s => ?_
        split <;> simp

@[simp] theorem State.releaseRow_base : ∀ a0 a1 a2, (State.releaseRow a0 a1 a2).base = State.base a2 := by
  intros; unfold State.releaseRow; split <;> simp

@[simp] theorem State.runEndRow_base : ∀ a0 a1, (State.runEndRow a0 a1).base = State.base a1 := by
  intros; unfold State.runEndRow
  split
  · rfl
  · split
    · rename_i h; rw [State.progress_base, State.tryRunEnd_base _ _ _ _ h]
    · rfl

@[simp] theorem State.handFirst_base : ∀ a0 a1 a2 a3, (State.handFirst a0 a1 a2 a3).base = State.base a3 := by
  intros; unfold State.handFirst; simp

@[simp] theorem State.imageError_base : ∀ a0 a1, (State.imageError a0 a1).base = State.base a1 := by
  intros; unfold State.imageError; simp

@[simp] theorem State.evaluated_base : ∀ a0 a1 a2 a3, (State.evaluated a0 a1 a2 a3).base = State.base a3 := by
  intros; unfold State.evaluated; simp

@[simp] theorem State.resolverScore_base : ∀ a0 a1 a2 a3 a4, (State.resolverScore a0 a1 a2 a3 a4).base = State.base a4 := by
  intros; unfold State.resolverScore; simp only []; (repeat' split) <;> simp

@[simp] theorem State.endXferOf_base : ∀ a0 a1 a2, (State.endXferOf a0 a1 a2).base = State.base a2 := by
  intros; unfold State.endXferOf; split <;> simp

@[simp] theorem State.requestBlock_base : ∀ a0 a1, (State.requestBlock a0 a1).base = State.base a1 := by
  intros; rfl

@[simp] theorem State.requestDone_base : ∀ a0 a1, (State.requestDone a0 a1).base = State.base a1 := by
  intros; unfold State.requestDone; (repeat' split) <;> simp

@[simp] theorem State.startWrite_base : ∀ a0 a1, (State.startWrite a0 a1).base = State.base a1 := by
  intros; unfold State.startWrite; split <;> simp

@[simp] theorem State.ckptWritten_base : ∀ a0 a1, (State.ckptWritten a0 a1).base = State.base a1 := by
  intros; unfold State.ckptWritten; (repeat' split) <;> simp

@[simp] theorem State.endSave_base : ∀ a0 a1 a2, (State.endSave a0 a1 a2).base = State.base a2 := by
  intros; unfold State.endSave; split <;> simp

@[simp] theorem State.shiftChunks_base : ∀ a0 a1 a2, (State.shiftChunks a0 a1 a2).base = State.base a2 := by
  intros; rfl

@[simp] theorem State.prefixRestored_base : ∀ a0 a1 a2, (State.prefixRestored a0 a1 a2).base = State.base a2 := by
  intros; unfold State.prefixRestored; simp

@[simp] theorem State.restoreFailed_base : ∀ a0 a1 a2, (State.restoreFailed a0 a1 a2).base = State.base a2 := by
  intros; unfold State.restoreFailed; simp only []; (repeat' split) <;> simp

@[simp] theorem State.stackZeroed_base : ∀ a0 a1, (State.stackZeroed a0 a1).base = State.base a1 := by
  intros; unfold State.stackZeroed; simp

theorem State.underReplay_base (c : Bool) (sid pos : Nat) (f : Nat → State → State) (s : State)
    (hf : ∀ n s, (f n s).base = s.base) : (s.underReplay c sid pos f).base = s.base := by
  unfold State.underReplay
  split
  · rfl
  · simp only [base_mk, base_eta, base_ite]
    split <;> simp [hf]

@[simp] theorem State.replayOutput_base : ∀ a0 a1 a2 a3 a4, (State.replayOutput a0 a1 a2 a3 a4).base = State.base a4 := by
  intros; unfold State.replayOutput
  simp only [State.modStream_base]
  exact State.underReplay_base _ _ _ _ _ fun n s => by simp

@[simp] theorem State.replayPrompt_base : ∀ a0 a1 a2 a3 a4, (State.replayPrompt a0 a1 a2 a3 a4).base = State.base a4 := by
  intros; unfold State.replayPrompt; split
  · dsimp only; simp
  · rfl

@[simp] theorem State.promptOpens_base : ∀ a0 a1 a2, (State.promptOpens a0 a1 a2).base = State.base a2 := by
  intros; unfold State.promptOpens; (repeat' split) <;> simp

@[simp] theorem State.promptCloses_base : ∀ a0 a1, (State.promptCloses a0 a1).base = State.base a1 := by
  intros; unfold State.promptCloses; (repeat' split) <;> simp

@[simp] theorem State.replayEnd_base : ∀ a0 a1 a2, (State.replayEnd a0 a1 a2).base = State.base a2 := by
  intros; unfold State.replayEnd
  split
  · rfl
  · exact State.underReplay_base _ _ _ _ _ fun n s => by simp

@[simp] theorem State.replayTurn_base : ∀ a0 a1, (State.replayTurn a0 a1).base = State.base a1 := by
  intros; unfold State.replayTurn; split <;> simp

theorem State.replayToken_base (v : Vocab) (sid : Nat) (a : Option Bool × State) (k : Nat × Nat) :
    (State.replayToken v sid a k).2.base = a.2.base := by
  unfold State.replayToken
  simp only []
  split <;> simp <;> split <;> simp

@[simp] theorem State.replay_base : ∀ a0 a1 a2, (State.replay a0 a1 a2).base = State.base a2 := by
  intros; unfold State.replay
  split
  · rfl
  · split
    · rfl
    · simp only []
      have h : ∀ (l : List (Nat × Nat)) v sid s, (l.foldl (State.replayToken v sid) (none, s)).2.base = s.base :=
        fun l v sid s => base_foldl_snd _ _ _ fun a p => State.replayToken_base ..
      split <;> simp [h]

@[simp] theorem State.restoreFrom_base : ∀ a0 a1 a2 a3, (State.restoreFrom a0 a1 a2 a3).base = State.base a3 := by
  intros; unfold State.restoreFrom; (repeat' split) <;> simp

@[simp] theorem State.setStage_base : ∀ a0 a1 a2 a3, (State.setStage a0 a1 a2 a3).base = State.base a3 := by
  intros; unfold State.setStage; simp

@[simp] theorem State.startWork_base : ∀ a0 a1 a2, (State.startWork a0 a1 a2).base = State.base a2 := by
  intros; unfold State.startWork; simp

@[simp] theorem State.startInstall_base : ∀ a0 a1, (State.startInstall a0 a1).base = State.base a1 := by
  intros; unfold State.startInstall; simp

@[simp] theorem State.makeAvailable_base : ∀ a0 a1 a2 a3, (State.makeAvailable a0 a1 a2 a3).base = State.base a3 := by
  intros; unfold State.makeAvailable
  rw [State.keepRows_base, State.retireInstalls_base, State.modCtx_base]

@[simp] theorem State.publish_base : ∀ a0 a1 a2, (State.publish a0 a1 a2).base = State.base a2 := by
  intros; unfold State.publish; simp

@[simp] theorem State.loadComplete_base : ∀ a0 a1, (State.loadComplete a0 a1).base = State.base a1 := by
  intros; unfold State.loadComplete; (repeat' split) <;> simp

@[simp] theorem State.emptyLost_base : ∀ a0 a1, (State.emptyLost a0 a1).base = State.base a1 := by
  intro p s; unfold State.emptyLost; split <;> rfl

@[simp] theorem State.replaceLost_base : ∀ a0 a1, (State.replaceLost a0 a1).base = State.base a1 := by
  intros; unfold State.replaceLost; simp

@[simp] theorem State.toPeers_base : ∀ a0 a1, (State.toPeers a0 a1).base = State.base a1 := by
  intros; unfold State.toPeers; simp

@[simp] theorem State.sweepDone_base : ∀ a0, (State.sweepDone a0).base = State.base a0 := by
  intros; unfold State.sweepDone; simp

@[simp] theorem State.takeForwarded_base : ∀ a0 a1 a2, (State.takeForwarded a0 a1 a2).base = State.base a2 := by
  intros; unfold State.takeForwarded; simp

@[simp] theorem State.stageRecords_base : ∀ a0 a1 a2 a3, (State.stageRecords a0 a1 a2 a3).base = State.base a3 := by
  intros; unfold State.stageRecords; simp only []; (repeat' split) <;> simp

@[simp] theorem State.forwardedCommit_base : ∀ a0 a1 a2 a3, (State.forwardedCommit a0 a1 a2 a3).base = State.base a3 := by
  intros; unfold State.forwardedCommit; simp only []; (repeat' split) <;> simp

@[simp] theorem State.setDead_base : ∀ a0 a1 a2, (State.setDead a0 a1 a2).base = State.base a2 := by
  intros; rfl

@[simp] theorem State.forget_base : ∀ a0 a1, (State.forget a0 a1).base = State.base a1 := by
  intros; unfold State.forget; simp

@[simp] theorem State.startMigrate_base : ∀ a0 a1 a2, (State.startMigrate a0 a1 a2).base = State.base a2 := by
  intros; unfold State.startMigrate; simp only []; (repeat' split) <;> simp

@[simp] theorem State.takeOver_base : ∀ a0 a1 a2, (State.takeOver a0 a1 a2).1.base = State.base a2 := by
  intros; unfold State.takeOver
  extract_lets a sid toks s1 s2
  have h1 : s1.base = a.1.base := State.modStream_base ..
  have h2 : s2.base = s1.base := State.restoreFrom_base ..
  rw [State.dropReplicas_base, h2, h1]
  exact State.admitStream_base ..

@[simp] theorem State.modHang_base : ∀ a0 a1 a2, (State.modHang a0 a1 a2).base = State.base a2 := by
  intros; rfl

@[simp] theorem State.hangReport_base : ∀ a0 a1 a2, (State.hangReport a0 a1 a2).base = State.base a2 := by
  intros; unfold State.hangReport; simp

@[simp] theorem State.hangAgain_base : ∀ a0 a1 a2, (State.hangAgain a0 a1 a2).base = State.base a2 := by
  intros; unfold State.hangAgain; split <;> simp

@[simp] theorem State.newHang_base : ∀ a0 a1 a2 a3, (State.newHang a0 a1 a2 a3).base = State.base a3 := by
  intros; unfold State.newHang; simp

@[simp] theorem State.mergeHang_base : ∀ a0 a1 a2 a3 a4 a5, (State.mergeHang a0 a1 a2 a3 a4 a5).base = State.base a5 := by
  intros; unfold State.mergeHang; simp

@[simp] theorem State.captured_base : ∀ a0 a1 a2, (State.captured a0 a1 a2).base = State.base a2 := by
  intro r b s; unfold State.captured
  extract_lets n size len s1
  exact base_foldl _ _ _ fun s p => State.retirePage_base ..

@[simp] theorem State.rewindDraws_base : ∀ a0 a1, (State.rewindDraws a0 a1).base = State.base a1 := by
  intros; unfold State.rewindDraws; (repeat' split) <;> simp

@[simp] theorem State.rerun_base : ∀ a0 a1, (State.rerun a0 a1).base = State.base a1 := by
  intros; unfold State.rerun; (repeat' split) <;> simp

@[simp] theorem State.restartItems_base : ∀ a0 a1, (State.restartItems a0 a1).base = State.base a1 := by
  intros; unfold State.restartItems; simp

@[simp] theorem State.rejoin_base : ∀ a0 a1, (State.rejoin a0 a1).base = State.base a1 := by
  intros; unfold State.rejoin; (repeat' split) <;> simp

@[simp] theorem State.endHang_base : ∀ a0 a1 a2, (State.endHang a0 a1 a2).base = State.base a2 := by
  intros; unfold State.endHang
  simp only []
  refine (base_foldl _ _ _ fun s u => ?_).trans (by simp)
  split <;> simp

@[simp] theorem State.nextReplay_base : ∀ a0 a1, (State.nextReplay a0 a1).base = State.base a1 := by
  intros; unfold State.nextReplay; (repeat' split) <;> simp

@[simp] theorem State.replayPass_base : ∀ a0 a1 a2, (State.replayPass a0 a1 a2).base = State.base a2 := by
  intros; unfold State.replayPass; simp

@[simp] theorem State.resetSuspect_base : ∀ a0 a1 a2, (State.resetSuspect a0 a1 a2).base = State.base a1 := by
  intros; unfold State.resetSuspect; split <;> simp

@[simp] theorem State.fenceHearth_base : ∀ a0 a1, (State.fenceHearth a0 a1).base = State.base a1 := by
  intros; unfold State.fenceHearth; simp

@[simp] theorem State.fenceFlue_base : ∀ a0 a1, (State.fenceFlue a0 a1).base = State.base a1 := by
  intros; rfl

@[simp] theorem State.fenceDamper_base : ∀ a0 a1, (State.fenceDamper a0 a1).base = State.base a1 := by
  intros; unfold State.fenceDamper; simp

@[simp] theorem State.fence_base : ∀ a0 a1, (State.fence a0 a1).base = State.base a1 := by
  intros; unfold State.fence; split <;> simp

@[simp] theorem State.regate_base : ∀ a0 a1, (State.regate a0 a1).base = State.base a1 := by
  intros; unfold State.regate; simp

@[simp] theorem State.rehome_base : ∀ a0 a1, (State.rehome a0 a1).base = State.base a1 := by
  intro n s; unfold State.rehome
  extract_lets s0 s1
  have h0 : s0.base = s.base := (base_foldl _ _ _ fun s q => State.modStream_base ..).trans (State.rehomeFlues_base _)
  exact (base_foldl _ _ _ fun s f => State.startFlue_base ..).trans h0

@[simp] theorem State.remapped_base : ∀ a0 a1, (State.remapped a0 a1).base = State.base a1 := by
  intros; unfold State.remapped; split <;> simp

@[simp] theorem State.reload_base : ∀ a0 a1, (State.reload a0 a1).base = State.base a1 := by
  intros; unfold State.reload; simp

@[simp] theorem State.unitTest_base : ∀ a0 a1, (State.unitTest a0 a1).base = State.base a1 := by
  intros; unfold State.unitTest; simp

@[simp] theorem State.rebuildLedgers_base : ∀ a0, (State.rebuildLedgers a0).base = State.base a0 := by
  intros; rfl

@[simp] theorem State.settleStore_base : ∀ a0, (State.settleStore a0).base = State.base a0 := by
  intros; unfold State.settleStore; split <;> simp

@[simp] theorem State.restartRings_base : ∀ a0, (State.restartRings a0).base = State.base a0 := by
  intros; rfl

@[simp] theorem State.closeFault_base : ∀ a0 a1, (State.closeFault a0 a1).base = State.base a1 := by
  intros; unfold State.closeFault; simp

@[simp] theorem State.recoverStream_base : ∀ a0 a1, (State.recoverStream a0 a1).base = State.base a0 := by
  intro s sid; unfold State.recoverStream
  have h : ∀ l : List Nat, ((s.meetPages sid l).getD s).base = s.base := fun l => by
    cases h : s.meetPages sid l with
    | none => rfl
    | some u => simpa using State.meetPages_base _ _ _ _ h
  simp only []
  (repeat' split) <;> simp [h]

@[simp] theorem State.finishTeardown_base : ∀ a0, (State.finishTeardown a0).base = State.base a0 := by
  intros; unfold State.finishTeardown; simp


/-- A command moved the block from `s` to `u` without touching the base, but for the count's advance to `t`. -/
def Kept (t : Nat) (s u : State) : Prop := u.base = s.base ∨ u.base = (s.advance t).base

theorem kept_next (t : Nat) (s v : State) (h : Kept t s v) : ∀ u, done v = .next u → Kept t s u := by
  intro u hu; cases hu; exact h

theorem State.live_kept (t : Nat) (s : State) (f : State → State) (h : ∀ s, (f s).base = s.base) : Kept t s (s.live t f) := by
  unfold State.live
  split
  · exact .inl rfl
  · exact .inr (h _)

theorem State.run_kept (t : Nat) (s : State) (f : State → State) (h : ∀ s, (f s).base = s.base) : Kept t s (s.run t f) :=
  State.live_kept t s _ fun s => by split <;> simp [h]

theorem State.window_kept (t port : Nat) (ctl : CtlPort) (s : State) (f : Inst → State → State)
    (h : ∀ i s, (f i s).base = s.base) : Kept t s (s.window t port ctl f) :=
  State.live_kept t s _ fun s => by
    split
    · rfl
    · simp only []; split <;> simp [h]

theorem State.managed_kept (t : Nat) (s : State) (f : State → State) (h : ∀ s, (f s).base = s.base) :
    Kept t s (s.managed t f) :=
  State.live_kept t s _ fun s => by split <;> simp [h]

theorem State.request_base (code : Nat) (m : Bytes) (ok : Bytes → Bool) (f : Bytes → State → State) (s : State)
    (h : ∀ p s, (f p s).base = s.base) : (s.request code m ok f).base = s.base := by
  unfold State.request
  (repeat' split) <;> simp [h]

theorem State.spdm_kept (t ver : Nat) (s : State) (r : State → Bool) (f : State → State) (h : ∀ s, (f s).base = s.base) :
    Kept t s (s.spdm t ver r f) :=
  State.managed_kept t s _ fun s => by (repeat' split) <;> simp [h]

theorem State.inbound_base (ty port : Nat) (p : Bytes) (f : Nat → State → State) (s : State) (h : ∀ d s, (f d s).base = s.base) :
    (s.inbound ty port p f).base = s.base := by
  unfold State.inbound
  extract_lets dom n vc s1 s2
  have h1 : s1.base = s.base := by simp only [s1]; split <;> simp
  have h2 : s2.base = s1.base := by simp only [s2]; split <;> simp
  split
  · simp [h1]
  · split <;> simp [h, h1, h2]

theorem State.packet_kept (t ty port : Nat) (p : Bytes) (s : State) (f : Nat → State → State) (h : ∀ d s, (f d s).base = s.base) :
    Kept t s (s.packet t ty port p f) :=
  State.run_kept t s _ fun s => by
    split
    · exact State.inbound_base _ _ _ _ _ h
    · rfl

theorem State.transaction_kept (t port : Nat) (p : Bytes) (s : State) (f : Nat → State → State)
    (h : ∀ d s, (f d s).base = s.base) : Kept t s (s.transaction t port p f) :=
  State.live_kept t s _ fun s => by
    split
    · simp only []; split <;> simp [h]
    · rfl

theorem State.itemWork_base (n : Nat) (s : State) (f : Item → State → State) (h : ∀ i s, (f i s).base = s.base) :
    (s.itemWork n f).base = s.base := by
  unfold State.itemWork
  split
  · rfl
  · split <;> simp [h]

theorem State.driftIn_kept (t q cls : Nat) (h : DriftHdr) (s : State) (f : State → State) (hf : ∀ s, (f s).base = s.base) :
    Kept t s (s.driftIn t q cls h f) :=
  State.run_kept t s _ fun s => by
    simp only []
    split
    · rfl
    · split
      · simp
      · split <;> simp [hf]

theorem State.opcode_kept (t op : Nat) (i : Inst) (s : State) (e : ExecCmd → State → Nat)
    (ok : ExecCmd → State → State × Bytes × Option Bytes) (l g : Bool) (h : ∀ c s, (ok c s).1.base = s.base) :
    ∀ u, s.opcode t op i e ok l g = .next u → Kept t s u :=
  kept_next t s _ (State.live_kept t s _ fun s => State.command_base _ _ _ _ fun c s => State.finish_base _ _ _ _ _ _ (h c))


/-! ### Rows that leave it all but the count -/

theorem execCmdTail_kept : ∀ a0 a1 a2 a3 a4 u, execCmdTail a0 a1 a2 a3 a4 = .next u → Kept a0 a4 u := by
  intro a0 a1 a2 a3 a4; unfold execCmdTail
  refine kept_next _ _ _ (State.window_kept _ _ _ _ _ fun i s => ?_); simp

theorem execCplHead_kept : ∀ a0 a1 a2 a3 a4 u, execCplHead a0 a1 a2 a3 a4 = .next u → Kept a0 a4 u := by
  intro a0 a1 a2 a3 a4; unfold execCplHead
  refine kept_next _ _ _ (State.window_kept _ _ _ _ _ fun i s => ?_); simp

theorem execEvtHead_kept : ∀ a0 a1 a2 a3 a4 u, execEvtHead a0 a1 a2 a3 a4 = .next u → Kept a0 a4 u := by
  intro a0 a1 a2 a3 a4; unfold execEvtHead
  refine kept_next _ _ _ (State.window_kept _ _ _ _ _ fun i s => ?_); simp

theorem execFlush_kept : ∀ a0 a1 a2 a3 a4 u, execFlush a0 a1 a2 a3 a4 = .next u → Kept a0 a4 u := by
  intro a0 a1 a2 a3 a4; unfold execFlush
  refine kept_next _ _ _ (State.window_kept _ _ _ _ _ fun i s => ?_); rfl

theorem execFlushDiscard_kept : ∀ a0 a1 a2 a3 u, execFlushDiscard a0 a1 a2 a3 = .next u → Kept a0 a3 u := by
  intro a0 a1 a2 a3; unfold execFlushDiscard
  refine kept_next _ _ _ (State.live_kept _ _ _ fun s => ?_); simp

theorem execLedgerTotalRead_kept : ∀ a0 a1 a2 a3 u, execLedgerTotalRead a0 a1 a2 a3 = .next u → Kept a0 a3 u := by
  intro a0 a1 a2 a3; unfold execLedgerTotalRead
  refine kept_next _ _ _ (State.window_kept _ _ _ _ _ fun i s => ?_); rfl

theorem execLowWordRead_kept : ∀ a0 a1 a2 a3 a4 u, execLowWordRead a0 a1 a2 a3 a4 = .next u → Kept a0 a4 u := by
  intro a0 a1 a2 a3 a4; unfold execLowWordRead
  refine kept_next _ _ _ (State.window_kept _ _ _ _ _ fun i s => ?_); split <;> simp

theorem execBundleStatus_kept : ∀ a0 a1 a2 u, execBundleStatus a0 a1 a2 = .next u → Kept a0 a2 u := by
  intro a0 a1 a2; unfold execBundleStatus
  refine kept_next _ _ _ (State.managed_kept _ _ _ fun s => State.request_base _ _ _ _ _ fun p s => ?_); rfl

theorem execAshpitFetch_kept : ∀ a0 a1 a2 u, execAshpitFetch a0 a1 a2 = .next u → Kept a0 a2 u := by
  intro a0 a1 a2; unfold execAshpitFetch
  refine kept_next _ _ _ (State.managed_kept _ _ _ fun s => State.request_base _ _ _ _ _ fun p s => ?_); split <;> simp

theorem execReportResponse_kept : ∀ a0 a1 a2 u, execReportResponse a0 a1 a2 = .next u → Kept a0 a2 u := by
  intro a0 a1 a2; unfold execReportResponse
  refine kept_next _ _ _ (State.managed_kept _ _ _ fun s => ?_); (repeat' split) <;> simp

theorem execReportResend_kept : ∀ a0 a1 u, execReportResend a0 a1 = .next u → Kept a0 a1 u := by
  intro a0 a1; unfold execReportResend
  refine kept_next _ _ _ (State.live_kept _ _ _ fun s => ?_); split <;> simp

theorem execGetVersion_kept : ∀ a0 a1 a2 u, execGetVersion a0 a1 a2 = .next u → Kept a0 a2 u := by
  intro a0 a1 a2; unfold execGetVersion
  refine kept_next _ _ _ (State.managed_kept _ _ _ fun s => ?_); rfl

theorem execGetCapabilities_kept : ∀ a0 a1 a2 u, execGetCapabilities a0 a1 a2 = .next u → Kept a0 a2 u := by
  intro a0 a1 a2; unfold execGetCapabilities
  refine kept_next _ _ _ (State.spdm_kept _ _ _ _ _ fun s => ?_); rfl

theorem execNegotiateAlgorithms_kept : ∀ a0 a1 a2 a3 a4 u, execNegotiateAlgorithms a0 a1 a2 a3 a4 = .next u → Kept a0 a4 u := by
  intro a0 a1 a2 a3 a4; unfold execNegotiateAlgorithms
  refine kept_next _ _ _ (State.spdm_kept _ _ _ _ _ fun s => ?_); simp

theorem execGetDigests_kept : ∀ a0 a1 a2 u, execGetDigests a0 a1 a2 = .next u → Kept a0 a2 u := by
  intro a0 a1 a2; unfold execGetDigests
  refine kept_next _ _ _ (State.spdm_kept _ _ _ _ _ fun s => ?_); rfl

theorem execGetCertificate_kept : ∀ a0 a1 a2 a3 a4 a5 u, execGetCertificate a0 a1 a2 a3 a4 a5 = .next u → Kept a0 a5 u := by
  intro a0 a1 a2 a3 a4 a5; unfold execGetCertificate
  refine kept_next _ _ _ (State.spdm_kept _ _ _ _ _ fun s => ?_); simp

theorem execChallenge_kept : ∀ a0 a1 a2 a3 a4 u, execChallenge a0 a1 a2 a3 a4 = .next u → Kept a0 a4 u := by
  intro a0 a1 a2 a3 a4; unfold execChallenge
  refine kept_next _ _ _ (State.spdm_kept _ _ _ _ _ fun s => ?_); simp

theorem execGetMeasurements_kept : ∀ a0 a1 a2 a3 a4 a5 u, execGetMeasurements a0 a1 a2 a3 a4 a5 = .next u → Kept a0 a5 u := by
  intro a0 a1 a2 a3 a4 a5; unfold execGetMeasurements
  refine kept_next _ _ _ (State.spdm_kept _ _ _ _ _ fun s => ?_); simp

theorem execChunkGet_kept : ∀ a0 a1 a2 a3 a4 u, execChunkGet a0 a1 a2 a3 a4 = .next u → Kept a0 a4 u := by
  intro a0 a1 a2 a3 a4; unfold execChunkGet
  refine kept_next _ _ _ (State.spdm_kept _ _ _ _ _ fun s => ?_); simp

theorem execSetEndpointId_kept : ∀ a0 a1 a2 a3 u, execSetEndpointId a0 a1 a2 a3 = .next u → Kept a0 a3 u := by
  intro a0 a1 a2 a3; unfold execSetEndpointId
  refine kept_next _ _ _ (State.managed_kept _ _ _ fun s => ?_); simp

theorem execGetEndpointId_kept : ∀ a0 a1 u, execGetEndpointId a0 a1 = .next u → Kept a0 a1 u := by
  intro a0 a1; unfold execGetEndpointId
  refine kept_next _ _ _ (State.managed_kept _ _ _ fun s => ?_); rfl

theorem execGetMctpVersionSupport_kept : ∀ a0 a1 a2 u, execGetMctpVersionSupport a0 a1 a2 = .next u → Kept a0 a2 u := by
  intro a0 a1 a2; unfold execGetMctpVersionSupport
  refine kept_next _ _ _ (State.managed_kept _ _ _ fun s => ?_); simp

theorem execGetMessageTypeSupport_kept : ∀ a0 a1 u, execGetMessageTypeSupport a0 a1 = .next u → Kept a0 a1 u := by
  intro a0 a1; unfold execGetMessageTypeSupport
  refine kept_next _ _ _ (State.managed_kept _ _ _ fun s => ?_); rfl

theorem execGetVendorDefinedMessageSupport_kept : ∀ a0 a1 a2 u, execGetVendorDefinedMessageSupport a0 a1 a2 = .next u → Kept a0 a2 u := by
  intro a0 a1 a2; unfold execGetVendorDefinedMessageSupport
  refine kept_next _ _ _ (State.managed_kept _ _ _ fun s => ?_); simp

theorem execEntdaa_kept : ∀ a0 a1 a2 u, execEntdaa a0 a1 a2 = .next u → Kept a0 a2 u := by
  intro a0 a1 a2; unfold execEntdaa
  refine kept_next _ _ _ (State.managed_kept _ _ _ fun s => ?_); simp

theorem execSetdasa_kept : ∀ a0 a1 a2 a3 u, execSetdasa a0 a1 a2 a3 = .next u → Kept a0 a3 u := by
  intro a0 a1 a2 a3; unfold execSetdasa
  refine kept_next _ _ _ (State.managed_kept _ _ _ fun s => ?_); simp

theorem execShaftHeaderError_kept : ∀ a0 a1 a2 a3 u, execShaftHeaderError a0 a1 a2 a3 = .next u → Kept a0 a3 u := by
  intro a0 a1 a2 a3; unfold execShaftHeaderError
  refine kept_next _ _ _ (State.live_kept _ _ _ fun s => ?_)
  split
  · exact State.inbound_base _ _ _ _ _ fun _ _ => rfl
  · rfl

theorem execIdle_kept : ∀ a0 a1 a2 a3 u, execIdle a0 a1 a2 a3 = .next u → Kept a0 a3 u := by
  intro a0 a1 a2 a3; unfold execIdle
  refine kept_next _ _ _ (State.live_kept _ _ _ fun s => ?_)
  split
  · exact State.inbound_base _ _ _ _ _ fun _ _ => rfl
  · rfl

theorem execCredit_kept : ∀ a0 a1 a2 a3 u, execCredit a0 a1 a2 a3 = .next u → Kept a0 a3 u := by
  intro a0 a1 a2 a3; unfold execCredit
  refine kept_next _ _ _ (State.live_kept _ _ _ fun s => ?_)
  split
  · exact State.inbound_base _ _ _ _ _ fun _ _ => by split <;> simp
  · rfl

theorem execCreditReturn_kept : ∀ a0 a1 a2 u, execCreditReturn a0 a1 a2 = .next u → Kept a0 a2 u := by
  intro a0 a1 a2; unfold execCreditReturn
  refine kept_next _ _ _ (State.live_kept _ _ _ fun s => ?_); split <;> simp

theorem execShaftStall_kept : ∀ a0 a1 a2 u, execShaftStall a0 a1 a2 = .next u → Kept a0 a2 u := by
  intro a0 a1 a2; unfold execShaftStall
  refine kept_next _ _ _ (State.run_kept _ _ _ fun s => ?_); simp

theorem execRead_kept : ∀ a0 a1 a2 a3 u, execRead a0 a1 a2 a3 = .next u → Kept a0 a3 u := by
  intro a0 a1 a2 a3; unfold execRead
  refine kept_next _ _ _ (State.transaction_kept _ _ _ _ _ fun d s => ?_); (repeat' split) <;> simp

theorem execCompletion_kept : ∀ a0 a1 a2 a3 u, execCompletion a0 a1 a2 a3 = .next u → Kept a0 a3 u := by
  intro a0 a1 a2 a3; unfold execCompletion
  refine kept_next _ _ _ (State.live_kept _ _ _ fun s => ?_); simp only []; (repeat' split) <;> simp

theorem execBulkReadTimeout_kept : ∀ a0 a1 a2 a3 u, execBulkReadTimeout a0 a1 a2 a3 = .next u → Kept a0 a3 u := by
  intro a0 a1 a2 a3; unfold execBulkReadTimeout
  refine kept_next _ _ _ (State.live_kept _ _ _ fun s => ?_); (repeat' split) <;> simp

theorem execShaftTrainingStart_kept : ∀ a0 a1 a2 u, execShaftTrainingStart a0 a1 a2 = .next u → Kept a0 a2 u := by
  intro a0 a1 a2; unfold execShaftTrainingStart
  refine kept_next _ _ _ (State.live_kept _ _ _ fun s => ?_); simp

theorem execShaftTrainingComplete_kept : ∀ a0 a1 a2 a3 u, execShaftTrainingComplete a0 a1 a2 a3 = .next u → Kept a0 a3 u := by
  intro a0 a1 a2 a3; unfold execShaftTrainingComplete
  refine kept_next _ _ _ (State.live_kept _ _ _ fun s => ?_); simp

theorem execCreditInitTimeout_kept : ∀ a0 a1 a2 u, execCreditInitTimeout a0 a1 a2 = .next u → Kept a0 a2 u := by
  intro a0 a1 a2; unfold execCreditInitTimeout
  refine kept_next _ _ _ (State.live_kept _ _ _ fun s => ?_); simp only []; (repeat' split) <;> simp

theorem execShaftRetrain_kept : ∀ a0 a1 a2 u, execShaftRetrain a0 a1 a2 = .next u → Kept a0 a2 u := by
  intro a0 a1 a2; unfold execShaftRetrain
  refine kept_next _ _ _ (State.live_kept _ _ _ fun s => ?_); simp

theorem execShaftRetrainComplete_kept : ∀ a0 a1 a2 a3 u, execShaftRetrainComplete a0 a1 a2 a3 = .next u → Kept a0 a3 u := by
  intro a0 a1 a2 a3; unfold execShaftRetrainComplete
  refine kept_next _ _ _ (State.live_kept _ _ _ fun s => ?_)
  dsimp only
  split
  · rfl
  · split <;> simp

theorem execIdleRetrainRequest_kept : ∀ a0 a1 a2 u, execIdleRetrainRequest a0 a1 a2 = .next u → Kept a0 a2 u := by
  intro a0 a1 a2; unfold execIdleRetrainRequest
  refine kept_next _ _ _ (State.live_kept _ _ _ fun s => ?_); simp

theorem execShaftLinkFailure_kept : ∀ a0 a1 a2 a3 a4 u, execShaftLinkFailure a0 a1 a2 a3 a4 = .next u → Kept a0 a4 u := by
  intro a0 a1 a2 a3 a4; unfold execShaftLinkFailure
  refine kept_next _ _ _ (State.live_kept _ _ _ fun s => ?_); simp

theorem execRowPowerGate_kept : ∀ a0 a1 a2 u, execRowPowerGate a0 a1 a2 = .next u → Kept a0 a2 u := by
  intro a0 a1 a2; unfold execRowPowerGate
  refine kept_next _ _ _ (State.run_kept _ _ _ fun s => ?_); split <;> simp

theorem execRowWakeComplete_kept : ∀ a0 a1 a2 u, execRowWakeComplete a0 a1 a2 = .next u → Kept a0 a2 u := by
  intro a0 a1 a2; unfold execRowWakeComplete
  refine kept_next _ _ _ (State.run_kept _ _ _ fun s => ?_); rfl

theorem execDormantEntry_kept : ∀ a0 a1 u, execDormantEntry a0 a1 = .next u → Kept a0 a1 u := by
  intro a0 a1; unfold execDormantEntry
  refine kept_next _ _ _ (State.run_kept _ _ _ fun s => ?_); simp

theorem execTrstN_kept : ∀ a0 a1 u, execTrstN a0 a1 = .next u → Kept a0 a1 u := by
  intro a0 a1; unfold execTrstN
  refine kept_next _ _ _ (.inr ?_)
  rfl

theorem execTestLogicReset_kept : ∀ a0 a1 u, execTestLogicReset a0 a1 = .next u → Kept a0 a1 u := by
  intro a0 a1; unfold execTestLogicReset
  refine kept_next _ _ _ (.inr ?_)
  rfl

theorem execIdcode_kept : ∀ a0 a1 u, execIdcode a0 a1 = .next u → Kept a0 a1 u := by
  intro a0 a1; unfold execIdcode
  refine kept_next _ _ _ (.inr ?_)
  rfl

theorem execBypass_kept : ∀ a0 a1 u, execBypass a0 a1 = .next u → Kept a0 a1 u := by
  intro a0 a1; unfold execBypass
  refine kept_next _ _ _ (.inr ?_)
  rfl

theorem execSamplePreload_kept : ∀ a0 a1 u, execSamplePreload a0 a1 = .next u → Kept a0 a1 u := by
  intro a0 a1; unfold execSamplePreload
  refine kept_next _ _ _ (.inr ?_)
  rfl

theorem execExtest_kept : ∀ a0 a1 u, execExtest a0 a1 = .next u → Kept a0 a1 u := by
  intro a0 a1; unfold execExtest
  refine kept_next _ _ _ (.inr ?_)
  rfl

theorem execAdmit_kept : ∀ a0 a1 a2 a3 u, execAdmit a0 a1 a2 a3 = .next u → Kept a0 a3 u := by
  intro a0 a1 a2 a3; unfold execAdmit
  refine kept_next _ _ _ (State.packet_kept _ _ _ _ _ _ fun d s => ?_); simp

theorem execStreamAdmit_kept : ∀ a0 a1 a2 u, execStreamAdmit a0 a1 a2 = .next u → Kept a0 a2 u := by
  intro a0 a1 a2; unfold execStreamAdmit
  refine State.opcode_kept _ _ _ _ _ _ _ _ fun c s => ?_
  generalize ha : State.admitStream (AdmitReq.ofSlot a1 c.slot) s = a
  have h := State.admitStream_base (AdmitReq.ofSlot a1 c.slot) s
  rw [ha] at h
  exact h

theorem execSignal_kept : ∀ a0 a1 a2 a3 a4 a5 a6 u, execSignal a0 a1 a2 a3 a4 a5 a6 = .next u → Kept a0 a6 u := by
  intro a0 a1 a2 a3 a4 a5 a6; unfold execSignal
  refine kept_next _ _ _ (State.run_kept _ _ _ fun s => ?_); (repeat' split) <;> simp

theorem execConsume_kept : ∀ a0 a1 a2 a3 a4 a5 a6 u, execConsume a0 a1 a2 a3 a4 a5 a6 = .next u → Kept a0 a6 u := by
  intro a0 a1 a2 a3 a4 a5 a6; unfold execConsume
  refine kept_next _ _ _ (State.run_kept _ _ _ fun s => ?_); (repeat' split) <;> simp

theorem execChunk_kept : ∀ a0 a1 a2 a3 u, execChunk a0 a1 a2 a3 = .next u → Kept a0 a3 u := by
  intro a0 a1 a2 a3; unfold execChunk
  refine kept_next _ _ _ (State.packet_kept _ _ _ _ _ _ fun d s => ?_); simp

theorem execCandidates_kept : ∀ a0 a1 a2 a3 u, execCandidates a0 a1 a2 a3 = .next u → Kept a0 a3 u := by
  intro a0 a1 a2 a3; unfold execCandidates
  refine kept_next _ _ _ (State.packet_kept _ _ _ _ _ _ fun d s => ?_); simp

theorem execTap_kept : ∀ a0 a1 a2 a3 u, execTap a0 a1 a2 a3 = .next u → Kept a0 a3 u := by
  intro a0 a1 a2 a3; unfold execTap
  refine kept_next _ _ _ (State.packet_kept _ _ _ _ _ _ fun d s => ?_); simp

theorem execChunkReleaseTime_kept : ∀ a0 a1 a2 u, execChunkReleaseTime a0 a1 a2 = .next u → Kept a0 a2 u := by
  intro a0 a1 a2; unfold execChunkReleaseTime
  refine kept_next _ _ _ (State.run_kept _ _ _ fun s => ?_); simp

theorem execCandidatesReleaseTime_kept : ∀ a0 a1 a2 u, execCandidatesReleaseTime a0 a1 a2 = .next u → Kept a0 a2 u := by
  intro a0 a1 a2; unfold execCandidatesReleaseTime
  refine kept_next _ _ _ (State.run_kept _ _ _ fun s => ?_)
  rw [State.releaseRow_base]
  split
  · split <;> simp
  · rfl

theorem execRunEnd_kept : ∀ a0 a1 a2 u, execRunEnd a0 a1 a2 = .next u → Kept a0 a2 u := by
  intro a0 a1 a2; unfold execRunEnd
  refine kept_next _ _ _ (State.run_kept _ _ _ fun s => ?_)
  rw [State.runEndRow_base]
  split
  · split
    · split <;> simp
    · rfl
  · rfl

theorem execTapSkewDeadline_kept : ∀ a0 a1 a2 a3 u, execTapSkewDeadline a0 a1 a2 a3 = .next u → Kept a0 a3 u := by
  intro a0 a1 a2 a3; unfold execTapSkewDeadline
  refine kept_next _ _ _ (State.run_kept _ _ _ fun s => ?_); (repeat' split) <;> simp

theorem execDeviceQuery_kept : ∀ a0 a1 a2 u, execDeviceQuery a0 a1 a2 = .next u → Kept a0 a2 u := by
  intro a0 a1 a2; unfold execDeviceQuery
  exact State.opcode_kept _ _ _ _ _ _ _ _ (by intros; rfl)

theorem execContextCreate_kept : ∀ a0 a1 a2 u, execContextCreate a0 a1 a2 = .next u → Kept a0 a2 u := by
  intro a0 a1 a2; unfold execContextCreate
  exact State.opcode_kept _ _ _ _ _ _ _ _ (by intros; simp)

theorem execContextClose_kept : ∀ a0 a1 a2 u, execContextClose a0 a1 a2 = .next u → Kept a0 a2 u := by
  intro a0 a1 a2; unfold execContextClose
  exact State.opcode_kept _ _ _ _ _ _ _ _ (by intros; simp)

theorem execContextReset_kept : ∀ a0 a1 a2 u, execContextReset a0 a1 a2 = .next u → Kept a0 a2 u := by
  intro a0 a1 a2; unfold execContextReset
  refine kept_next _ _ _ (State.live_kept _ _ _ fun s => State.command_base _ _ _ _ fun c s => ?_); simp

theorem execContextSet_kept : ∀ a0 a1 a2 u, execContextSet a0 a1 a2 = .next u → Kept a0 a2 u := by
  intro a0 a1 a2; unfold execContextSet
  exact State.opcode_kept _ _ _ _ _ _ _ _ (by intros; simp)

theorem execContextQuery_kept : ∀ a0 a1 a2 u, execContextQuery a0 a1 a2 = .next u → Kept a0 a2 u := by
  intro a0 a1 a2; unfold execContextQuery
  exact State.opcode_kept _ _ _ _ _ _ _ _ (by intros; rfl)

theorem execCapacitySet_kept : ∀ a0 a1 a2 u, execCapacitySet a0 a1 a2 = .next u → Kept a0 a2 u := by
  intro a0 a1 a2; unfold execCapacitySet
  exact State.opcode_kept _ _ _ _ _ _ _ _ (by intros; simp)

theorem execDriftError_kept : ∀ a0 a1 a2 a3 u, execDriftError a0 a1 a2 a3 = .next u → Kept a0 a3 u := by
  intro a0 a1 a2 a3; unfold execDriftError
  refine kept_next _ _ _ (State.run_kept _ _ _ fun s => ?_); simp

theorem execDriftCredit_kept : ∀ a0 a1 a2 a3 a4 u, execDriftCredit a0 a1 a2 a3 a4 = .next u → Kept a0 a4 u := by
  intro a0 a1 a2 a3 a4; unfold execDriftCredit
  refine kept_next _ _ _ (State.run_kept _ _ _ fun s => ?_)
  split
  · rfl
  · rw [State.driftFlush_base, State.driftAck_base, State.modDrift_base]
    exact (base_foldl _ _ _ fun s c => State.ctxCount_base ..).trans (State.active_base _)

theorem execNak_kept : ∀ a0 a1 a2 a3 u, execNak a0 a1 a2 a3 = .next u → Kept a0 a3 u := by
  intro a0 a1 a2 a3; unfold execNak
  refine kept_next _ _ _ (State.run_kept _ _ _ fun s => ?_); simp

theorem execAckTimeout_kept : ∀ a0 a1 a2 u, execAckTimeout a0 a1 a2 = .next u → Kept a0 a2 u := by
  intro a0 a1 a2; unfold execAckTimeout
  refine kept_next _ _ _ (State.run_kept _ _ _ fun s => ?_); simp

theorem execIdleGapCredit_kept : ∀ a0 a1 a2 u, execIdleGapCredit a0 a1 a2 = .next u → Kept a0 a2 u := by
  intro a0 a1 a2; unfold execIdleGapCredit
  refine kept_next _ _ _ (State.run_kept _ _ _ fun s => ?_); simp

theorem execDriftTrainingStart_kept : ∀ a0 a1 a2 u, execDriftTrainingStart a0 a1 a2 = .next u → Kept a0 a2 u := by
  intro a0 a1 a2; unfold execDriftTrainingStart
  refine kept_next _ _ _ (State.live_kept _ _ _ fun s => ?_); simp

theorem execDriftTrainingComplete_kept : ∀ a0 a1 a2 a3 u, execDriftTrainingComplete a0 a1 a2 a3 = .next u → Kept a0 a3 u := by
  intro a0 a1 a2 a3; unfold execDriftTrainingComplete
  refine kept_next _ _ _ (State.live_kept _ _ _ fun s => ?_); simp

theorem execDriftRetrain_kept : ∀ a0 a1 a2 u, execDriftRetrain a0 a1 a2 = .next u → Kept a0 a2 u := by
  intro a0 a1 a2; unfold execDriftRetrain
  refine kept_next _ _ _ (State.live_kept _ _ _ fun s => ?_); simp

theorem execHello_kept : ∀ a0 a1 a2 a3 a4 a5 u, execHello a0 a1 a2 a3 a4 a5 = .next u → Kept a0 a5 u := by
  intro a0 a1 a2 a3 a4 a5; unfold execHello
  refine kept_next _ _ _ (State.live_kept _ _ _ fun s => ?_); simp

theorem execDriftDark_kept : ∀ a0 a1 a2 u, execDriftDark a0 a1 a2 = .next u → Kept a0 a2 u := by
  intro a0 a1 a2; unfold execDriftDark
  refine kept_next _ _ _ (State.live_kept _ _ _ fun s => ?_); simp

theorem execPortHold_kept : ∀ a0 a1 a2 u, execPortHold a0 a1 a2 = .next u → Kept a0 a2 u := by
  intro a0 a1 a2; unfold execPortHold
  refine kept_next _ _ _ (State.managed_kept _ _ _ fun s => State.request_base _ _ _ _ _ fun p s => ?_)
  dsimp only
  split
  · simp
  · rw [State.respond_base]; split <;> simp

theorem execSnapData_kept : ∀ a0 a1 a2 a3 a4 a5 a6 u, execSnapData a0 a1 a2 a3 a4 a5 a6 = .next u → Kept a0 a6 u := by
  intro a0 a1 a2 a3 a4 a5 a6; unfold execSnapData
  refine kept_next _ _ _ (State.driftIn_kept _ _ _ _ _ _ fun s => ?_); rfl

theorem execCkptData_kept : ∀ a0 a1 a2 a3 a4 a5 a6 a7 u, execCkptData a0 a1 a2 a3 a4 a5 a6 a7 = .next u → Kept a0 a7 u := by
  intro a0 a1 a2 a3 a4 a5 a6 a7; unfold execCkptData
  refine kept_next _ _ _ (State.driftIn_kept _ _ _ _ _ _ fun s => ?_); rfl

theorem execSnapSeal_kept : ∀ a0 a1 a2 a3 a4 a5 a6 a7 a8 u, execSnapSeal a0 a1 a2 a3 a4 a5 a6 a7 a8 = .next u → Kept a0 a8 u := by
  intro a0 a1 a2 a3 a4 a5 a6 a7 a8; unfold execSnapSeal
  refine kept_next _ _ _ (State.driftIn_kept _ _ _ _ _ _ fun s => ?_); simp only []; (repeat' split) <;> simp

theorem execCkptSeal_kept : ∀ a0 a1 a2 a3 a4 a5 a6 u, execCkptSeal a0 a1 a2 a3 a4 a5 a6 = .next u → Kept a0 a6 u := by
  intro a0 a1 a2 a3 a4 a5 a6; unfold execCkptSeal
  refine kept_next _ _ _ (State.driftIn_kept _ _ _ _ _ _ fun s => ?_); simp

theorem execCkptDrop_kept : ∀ a0 a1 a2 a3 a4 u, execCkptDrop a0 a1 a2 a3 a4 = .next u → Kept a0 a4 u := by
  intro a0 a1 a2 a3 a4; unfold execCkptDrop
  refine kept_next _ _ _ (State.driftIn_kept _ _ _ _ _ _ fun s => ?_); simp

theorem execTallyAlloc_kept : ∀ a0 a1 a2 u, execTallyAlloc a0 a1 a2 = .next u → Kept a0 a2 u := by
  intro a0 a1 a2; unfold execTallyAlloc
  exact State.opcode_kept _ _ _ _ _ _ _ _ (by intros; simp)

theorem execTallyFree_kept : ∀ a0 a1 a2 u, execTallyFree a0 a1 a2 = .next u → Kept a0 a2 u := by
  intro a0 a1 a2; unfold execTallyFree
  exact State.opcode_kept _ _ _ _ _ _ _ _ (by intros; rfl)

theorem execTallySet_kept : ∀ a0 a1 a2 u, execTallySet a0 a1 a2 = .next u → Kept a0 a2 u := by
  intro a0 a1 a2; unfold execTallySet
  exact State.opcode_kept _ _ _ _ _ _ _ _ (by intros; rfl)

theorem execTallyRead_kept : ∀ a0 a1 a2 u, execTallyRead a0 a1 a2 = .next u → Kept a0 a2 u := by
  intro a0 a1 a2; unfold execTallyRead
  exact State.opcode_kept _ _ _ _ _ _ _ _ (by intros; rfl)

theorem execFaultQuery_kept : ∀ a0 a1 a2 u, execFaultQuery a0 a1 a2 = .next u → Kept a0 a2 u := by
  intro a0 a1 a2; unfold execFaultQuery
  exact State.opcode_kept _ _ _ _ _ _ _ _ (by intros; rfl)

theorem execAshpitRead_kept : ∀ a0 a1 a2 u, execAshpitRead a0 a1 a2 = .next u → Kept a0 a2 u := by
  intro a0 a1 a2; unfold execAshpitRead
  exact State.opcode_kept _ _ _ _ _ _ _ _ (by intros; rfl)

theorem execCounterRead_kept : ∀ a0 a1 a2 u, execCounterRead a0 a1 a2 = .next u → Kept a0 a2 u := by
  intro a0 a1 a2; unfold execCounterRead
  exact State.opcode_kept _ _ _ _ _ _ _ _ (by intros; rfl)

theorem execTelemetryRead_kept : ∀ a0 a1 a2 u, execTelemetryRead a0 a1 a2 = .next u → Kept a0 a2 u := by
  intro a0 a1 a2; unfold execTelemetryRead
  exact State.opcode_kept _ _ _ _ _ _ _ _ (by intros; rfl)

theorem execFpSetDefine_kept : ∀ a0 a1 a2 u, execFpSetDefine a0 a1 a2 = .next u → Kept a0 a2 u := by
  intro a0 a1 a2; unfold execFpSetDefine
  exact State.opcode_kept _ _ _ _ _ _ _ _ (by intros; rfl)

theorem execFpEpochOpen_kept : ∀ a0 a1 a2 u, execFpEpochOpen a0 a1 a2 = .next u → Kept a0 a2 u := by
  intro a0 a1 a2; unfold execFpEpochOpen
  exact State.opcode_kept _ _ _ _ _ _ _ _ (by intros; simp)

theorem execFpUpdate_kept : ∀ a0 a1 a2 u, execFpUpdate a0 a1 a2 = .next u → Kept a0 a2 u := by
  intro a0 a1 a2; unfold execFpUpdate
  exact State.opcode_kept _ _ _ _ _ _ _ _ (by intros; simp)

theorem execFpEpochCommit_kept : ∀ a0 a1 a2 u, execFpEpochCommit a0 a1 a2 = .next u → Kept a0 a2 u := by
  intro a0 a1 a2; unfold execFpEpochCommit
  exact State.opcode_kept _ _ _ _ _ _ _ _ (by intros; simp)

theorem execFpEpochAbort_kept : ∀ a0 a1 a2 u, execFpEpochAbort a0 a1 a2 = .next u → Kept a0 a2 u := by
  intro a0 a1 a2; unfold execFpEpochAbort
  exact State.opcode_kept _ _ _ _ _ _ _ _ (by intros; simp)

theorem execFpQuery_kept : ∀ a0 a1 a2 u, execFpQuery a0 a1 a2 = .next u → Kept a0 a2 u := by
  intro a0 a1 a2; unfold execFpQuery
  exact State.opcode_kept _ _ _ _ _ _ _ _ (by intros; rfl)

theorem execFpSweepComplete_kept : ∀ a0 a1 u, execFpSweepComplete a0 a1 = .next u → Kept a0 a1 u := by
  intro a0 a1; unfold execFpSweepComplete
  refine kept_next _ _ _ (State.run_kept _ _ _ fun s => ?_); simp

theorem execFpRecord_kept : ∀ a0 a1 a2 a3 a4 a5 u, execFpRecord a0 a1 a2 a3 a4 a5 = .next u → Kept a0 a5 u := by
  intro a0 a1 a2 a3 a4 a5; unfold execFpRecord
  refine kept_next _ _ _ (State.driftIn_kept _ _ _ _ _ _ fun s => ?_); simp

theorem execFpCommit_kept : ∀ a0 a1 a2 a3 a4 a5 u, execFpCommit a0 a1 a2 a3 a4 a5 = .next u → Kept a0 a5 u := by
  intro a0 a1 a2 a3 a4 a5; unfold execFpCommit
  refine kept_next _ _ _ (State.driftIn_kept _ _ _ _ _ _ fun s => ?_); simp

theorem execFpAbort_kept : ∀ a0 a1 a2 a3 a4 u, execFpAbort a0 a1 a2 a3 a4 = .next u → Kept a0 a4 u := by
  intro a0 a1 a2 a3 a4; unfold execFpAbort
  refine kept_next _ _ _ (State.driftIn_kept _ _ _ _ _ _ fun s => ?_); split <;> simp

theorem execCheckpointWriteComplete_kept : ∀ a0 a1 a2 u, execCheckpointWriteComplete a0 a1 a2 = .next u → Kept a0 a2 u := by
  intro a0 a1 a2; unfold execCheckpointWriteComplete
  refine kept_next _ _ _ (State.run_kept _ _ _ fun s => ?_)
  extract_lets ks
  clear_value ks
  rw [State.progress_base]
  cases h : s.meetPages a1 ks with
  | none => exact State.ckptWritten_base ..
  | some v => exact State.meetPages_base _ _ _ _ h

theorem execSnapshotWriteComplete_kept : ∀ a0 a1 a2 a3 u, execSnapshotWriteComplete a0 a1 a2 a3 = .next u → Kept a0 a3 u := by
  intro a0 a1 a2 a3; unfold execSnapshotWriteComplete
  refine kept_next _ _ _ (State.run_kept _ _ _ fun s => ?_); split <;> simp

theorem execWarmIn_kept : ∀ a0 a1 a2 u, execWarmIn a0 a1 a2 = .next u → Kept a0 a2 u := by
  intro a0 a1 a2; unfold execWarmIn
  refine kept_next _ _ _ (State.run_kept _ _ _ fun s => ?_); split <;> simp

theorem execCoolTime_kept : ∀ a0 a1 a2 u, execCoolTime a0 a1 a2 = .next u → Kept a0 a2 u := by
  intro a0 a1 a2; unfold execCoolTime
  refine kept_next _ _ _ (State.run_kept _ _ _ fun s => ?_); split <;> simp

theorem execStreamClosed_kept : ∀ a0 a1 a2 u, execStreamClosed a0 a1 a2 = .next u → Kept a0 a2 u := by
  intro a0 a1 a2; unfold execStreamClosed
  refine kept_next _ _ _ (State.run_kept _ _ _ fun s => ?_); split <;> simp

theorem execTransferAbsorbed_kept : ∀ a0 a1 a2 u, execTransferAbsorbed a0 a1 a2 = .next u → Kept a0 a2 u := by
  intro a0 a1 a2; unfold execTransferAbsorbed
  refine kept_next _ _ _ (State.run_kept _ _ _ fun s => ?_); simp

theorem execZeroingComplete_kept : ∀ a0 a1 a2 u, execZeroingComplete a0 a1 a2 = .next u → Kept a0 a2 u := by
  intro a0 a1 a2; unfold execZeroingComplete
  refine kept_next _ _ _ (State.run_kept _ _ _ fun s => ?_); simp

theorem execStreamRestoreComplete_kept : ∀ a0 a1 a2 u, execStreamRestoreComplete a0 a1 a2 = .next u → Kept a0 a2 u := by
  intro a0 a1 a2; unfold execStreamRestoreComplete
  refine kept_next _ _ _ (State.run_kept _ _ _ fun s => ?_)
  split
  · rfl
  · split
    · rfl
    · rename_i x _ _ k _
      split
      · cases h : s.meetPages a1 (12 :: slotPages x.validB) with
        | none => simp
        | some v => exact State.meetPages_base _ _ _ _ h
      · rfl

theorem execAshpitCaptureComplete_kept : ∀ a0 a1 a2 a3 u, execAshpitCaptureComplete a0 a1 a2 a3 = .next u → Kept a0 a3 u := by
  intro a0 a1 a2 a3; unfold execAshpitCaptureComplete
  refine kept_next _ _ _ (State.run_kept _ _ _ fun s => ?_); simp

theorem execSuspectResetComplete_kept : ∀ a0 a1 a2 u, execSuspectResetComplete a0 a1 a2 = .next u → Kept a0 a2 u := by
  intro a0 a1 a2; unfold execSuspectResetComplete
  refine kept_next _ _ _ (State.run_kept _ _ _ fun s => ?_); split <;> simp

theorem execReplayPass_kept : ∀ a0 a1 a2 u, execReplayPass a0 a1 a2 = .next u → Kept a0 a2 u := by
  intro a0 a1 a2; unfold execReplayPass
  refine kept_next _ _ _ (State.run_kept _ _ _ fun s => ?_); (repeat' split) <;> simp

theorem execReplayTimeout_kept : ∀ a0 a1 a2 u, execReplayTimeout a0 a1 a2 = .next u → Kept a0 a2 u := by
  intro a0 a1 a2; unfold execReplayTimeout
  refine kept_next _ _ _ (State.run_kept _ _ _ fun s => ?_); split <;> simp

theorem execContextResetComplete_kept : ∀ a0 a1 a2 u, execContextResetComplete a0 a1 a2 = .next u → Kept a0 a2 u := by
  intro a0 a1 a2; unfold execContextResetComplete
  refine kept_next _ _ _ (State.live_kept _ _ _ fun s => ?_)
  split
  · extract_lets s1
    have h : s1.base = s.base := base_foldl _ _ _ fun s k => by split <;> first | rfl | (split <;> simp)
    clear_value s1
    split
    · rw [base_foldl _ _ _ fun s k => State.resetSuspect_base ..]; exact h
    · exact h
  · rfl

theorem execImageStage_kept : ∀ a0 a1 a2 u, execImageStage a0 a1 a2 = .next u → Kept a0 a2 u := by
  intro a0 a1 a2; unfold execImageStage
  exact State.opcode_kept _ _ _ _ _ _ _ _ (by intros; simp)

theorem execImageInstall_kept : ∀ a0 a1 a2 u, execImageInstall a0 a1 a2 = .next u → Kept a0 a2 u := by
  intro a0 a1 a2; unfold execImageInstall
  refine kept_next _ _ _ (State.live_kept _ _ _ fun s => ?_)
  refine State.command_base _ _ _ _ fun c s => ?_
  split
  · exact State.complete_base ..
  · exact State.startInstall_base ..

theorem execImageLoadComplete_kept : ∀ a0 a1 a2 u, execImageLoadComplete a0 a1 a2 = .next u → Kept a0 a2 u := by
  intro a0 a1 a2; unfold execImageLoadComplete
  refine kept_next _ _ _ (State.live_kept _ _ _ fun s => ?_); simp

theorem execImageQuery_kept : ∀ a0 a1 a2 u, execImageQuery a0 a1 a2 = .next u → Kept a0 a2 u := by
  intro a0 a1 a2; unfold execImageQuery
  exact State.opcode_kept _ _ _ _ _ _ _ _ (by intros; rfl)

theorem execVocabLoad_kept : ∀ a0 a1 a2 u, execVocabLoad a0 a1 a2 = .next u → Kept a0 a2 u := by
  intro a0 a1 a2; unfold execVocabLoad
  refine State.opcode_kept _ _ _ _ _ _ _ _ fun c s => ?_
  extract_lets v staged k old s1
  have h : s1.base = s.base := State.releasePages_base ..
  clear_value s1
  split
  · exact h
  · dsimp only
    split
    · exact (State.setStage_base ..).trans h
    · exact h

theorem execAdapterSlotAlloc_kept : ∀ a0 a1 a2 u, execAdapterSlotAlloc a0 a1 a2 = .next u → Kept a0 a2 u := by
  intro a0 a1 a2; unfold execAdapterSlotAlloc
  exact State.opcode_kept _ _ _ _ _ _ _ _ (by intros; rfl)

theorem execAdapterSlotFree_kept : ∀ a0 a1 a2 u, execAdapterSlotFree a0 a1 a2 = .next u → Kept a0 a2 u := by
  intro a0 a1 a2; unfold execAdapterSlotFree
  exact State.opcode_kept _ _ _ _ _ _ _ _ fun c s => State.releasePages_base ..

theorem execAdapterPublish_kept : ∀ a0 a1 a2 u, execAdapterPublish a0 a1 a2 = .next u → Kept a0 a2 u := by
  intro a0 a1 a2; unfold execAdapterPublish
  refine kept_next _ _ _ (State.live_kept _ _ _ fun s => ?_)
  refine State.command_base _ _ _ _ fun c s => ?_
  split
  · exact State.complete_base ..
  · exact State.startWork_base ..

theorem execAdapterWithdraw_kept : ∀ a0 a1 a2 u, execAdapterWithdraw a0 a1 a2 = .next u → Kept a0 a2 u := by
  intro a0 a1 a2; unfold execAdapterWithdraw
  exact State.opcode_kept _ _ _ _ _ _ _ _ (by intros; rfl)

theorem execTapNormLoad_kept : ∀ a0 a1 a2 u, execTapNormLoad a0 a1 a2 = .next u → Kept a0 a2 u := by
  intro a0 a1 a2; unfold execTapNormLoad
  exact State.opcode_kept _ _ _ _ _ _ _ _ (by intros; rfl)

theorem execDriftPeerState_kept : ∀ a0 a1 a2 u, execDriftPeerState a0 a1 a2 = .next u → Kept a0 a2 u := by
  intro a0 a1 a2; unfold execDriftPeerState
  refine State.opcode_kept _ _ _ _ _ _ _ _ fun c s => ?_
  simp only []
  split <;> simp

theorem execSnapshotMigrate_kept : ∀ a0 a1 a2 u, execSnapshotMigrate a0 a1 a2 = .next u → Kept a0 a2 u := by
  intro a0 a1 a2; unfold execSnapshotMigrate
  refine kept_next _ _ _ (State.live_kept _ _ _ fun s => State.command_base _ _ _ _ fun c s => ?_); split <;> simp

theorem execSnapshotMigrateOutcome_kept : ∀ a0 a1 a2 a3 u, execSnapshotMigrateOutcome a0 a1 a2 a3 = .next u → Kept a0 a3 u := by
  intro a0 a1 a2 a3; unfold execSnapshotMigrateOutcome
  refine kept_next _ _ _ (State.live_kept _ _ _ fun s => ?_); split <;> simp

theorem execStreamTakeover_kept : ∀ a0 a1 a2 u, execStreamTakeover a0 a1 a2 = .next u → Kept a0 a2 u := by
  intro a0 a1 a2; unfold execStreamTakeover
  refine State.opcode_kept _ _ _ _ _ _ _ _ fun c s => ?_
  generalize hr : State.replicaOf s c = o
  cases o with
  | none => rfl
  | some r => rw [← State.takeOver_base c r s]

theorem execRemapComplete_kept : ∀ a0 a1 a2 u, execRemapComplete a0 a1 a2 = .next u → Kept a0 a2 u := by
  intro a0 a1 a2; unfold execRemapComplete
  refine kept_next _ _ _ (State.run_kept _ _ _ fun s => ?_); simp

theorem execLedgerQuiesceTimeout_kept : ∀ a0 a1 u, execLedgerQuiesceTimeout a0 a1 = .next u → Kept a0 a1 u := by
  intro a0 a1; unfold execLedgerQuiesceTimeout
  refine kept_next _ _ _ (State.run_kept _ _ _ fun s => ?_); split <;> simp

theorem execScrub_kept : ∀ a0 a1 a2 a3 u, execScrub a0 a1 a2 a3 = .next u → Kept a0 a3 u := by
  intro a0 a1 a2 a3; unfold execScrub
  refine kept_next _ _ _ (State.run_kept _ _ _ fun s => ?_); simp

theorem execStreamClose_kept : ∀ a0 a1 a2 u, execStreamClose a0 a1 a2 = .next u → Kept a0 a2 u := by
  intro a0 a1 a2; unfold execStreamClose
  exact State.opcode_kept _ _ _ _ _ _ _ _ (by intros; simp)

theorem execStreamHold_kept : ∀ a0 a1 a2 u, execStreamHold a0 a1 a2 = .next u → Kept a0 a2 u := by
  intro a0 a1 a2; unfold execStreamHold
  exact State.opcode_kept _ _ _ _ _ _ _ _ (by intros; rfl)

theorem execStreamResume_kept : ∀ a0 a1 a2 u, execStreamResume a0 a1 a2 = .next u → Kept a0 a2 u := by
  intro a0 a1 a2; unfold execStreamResume
  exact State.opcode_kept _ _ _ _ _ _ _ _ (by intros; simp)

theorem execStreamSet_kept : ∀ a0 a1 a2 u, execStreamSet a0 a1 a2 = .next u → Kept a0 a2 u := by
  intro a0 a1 a2; unfold execStreamSet
  exact State.opcode_kept _ _ _ _ _ _ _ _ (by intros; rfl)

theorem execStreamQuery_kept : ∀ a0 a1 a2 u, execStreamQuery a0 a1 a2 = .next u → Kept a0 a2 u := by
  intro a0 a1 a2; unfold execStreamQuery
  exact State.opcode_kept _ _ _ _ _ _ _ _ (by intros; rfl)

theorem execPrefixDrop_kept : ∀ a0 a1 a2 u, execPrefixDrop a0 a1 a2 = .next u → Kept a0 a2 u := by
  intro a0 a1 a2; unfold execPrefixDrop
  refine State.opcode_kept _ _ _ _ _ _ _ _ fun c s => ?_
  simp only []
  split <;> simp

/-! ### Rows that change what belongs to the whole device -/

theorem State.live_cases (t : Nat) (s : State) (f : State → State) : s.live t f = s ∨ s.live t f = f (s.advance t) := by
  unfold State.live
  split
  · exact .inl rfl
  · exact .inr rfl

@[simp] theorem State.deviceFault_core (k : Nat) (s : State) : (s.deviceFault k).base.core = s.base.core := by
  unfold State.deviceFault
  split
  · rfl
  · simp only []
    split <;> simp [core_eta]

theorem State.foremanRestart_core (k : Nat) (s : State) : (s.foremanRestart k).base.core = s.base.core := by
  unfold State.foremanRestart
  split
  · simp
  · simp [core_eta]

theorem State.failUnit_core (k : UnitId) (s : State) : (s.failUnit k).base.core = s.base.core := by
  unfold State.failUnit
  simp only []
  (repeat' split) <;> simp [core_eta]

theorem State.declareCycle_core (w : List (UnitId × Nat)) (s : State) (c : List WaitEdge) :
    (s.declareCycle w c).base.core = s.base.core := by
  unfold State.declareCycle
  extract_lets e a sus s1
  have h : s1.base = s.base := by
    simp only [s1]
    (repeat' split) <;> simp
  clear_value s1
  split
  · rw [State.foremanRestart_core, h]
  · rw [h]

theorem core_foldl {α : Type} (f : State → α → State) (l : List α) (s : State) (h : ∀ s a, (f s a).base.core = s.base.core) :
    (l.foldl f s).base.core = s.base.core := by
  induction l generalizing s with
  | nil => rfl
  | cons a l ih => simp [ih, h]

/-- One tick at most, and nothing else of what belongs to the whole device. -/
def Core.Ticked (a b : Core) : Prop := b = { a with count := b.count } ∧ a.count ≤ b.count ∧ (a.running = false → b.count = a.count) ∧
  (a.count < 2 ^ 56 → b.count < 2 ^ 56)

theorem Core.ticked_refl (a : Core) : Core.Ticked a a := ⟨rfl, Nat.le_refl _, fun _ => rfl, id⟩

theorem State.advance_ticked (t : Nat) (s : State) : Core.Ticked s.base.core (s.advance t).base.core := by
  unfold State.advance
  split
  · rename_i h
    refine ⟨rfl, Nat.le_max_left .., fun h' => by simp [State.base, h] at h', fun h' => ?_⟩
    exact Nat.max_lt.2 ⟨h', Nat.lt_of_le_of_lt (Nat.min_le_right _ _) (by decide)⟩
  · exact Core.ticked_refl _

/-- A row leaves of the device as a whole all but the count, to a function of the core that the row names. -/
def Changes (g : Core → Core) (s u : State) : Prop := ∃ a, Core.Ticked s.base.core a ∧ u.base.core = g a

theorem Kept.changes {t : Nat} {s u : State} (h : Kept t s u) : Changes id s u := by
  rcases h with h | h
  · exact ⟨_, Core.ticked_refl _, congrArg Base.core h⟩
  · exact ⟨_, State.advance_ticked t s, congrArg Base.core h⟩

theorem changes_live (t : Nat) (s : State) (f : State → State) (g : Core → Core) (h0 : g s.base.core = s.base.core)
    (h : (f (s.advance t)).base.core = g (s.advance t).base.core) : ∀ u, done (s.live t f) = .next u → Changes g s u := by
  intro u hu
  cases hu
  rcases State.live_cases t s f with e | e <;> rw [e]
  · exact ⟨_, Core.ticked_refl _, h0.symm⟩
  · exact ⟨_, State.advance_ticked t s, h⟩

theorem core_live (t : Nat) (s : State) (f : State → State) (h : ∀ s, (f s).base.core = s.base.core) :
    ∀ u, done (s.live t f) = .next u → Changes id s u :=
  changes_live t s f id rfl (h _)

theorem core_run (t : Nat) (s : State) (f : State → State) (h : ∀ s, (f s).base.core = s.base.core) :
    ∀ u, done (s.run t f) = .next u → Changes id s u :=
  core_live t s _ fun s => by split <;> simp [h]

/-- An access leaves the core whatever it meets. -/
theorem State.access_core (own : List Nat) (e : Ecc) (bad good : State → State) (s : State) (hb : ∀ s, (bad s).base = s.base)
    (hg : ∀ s, (good s).base = s.base) : (s.access own e bad good).base.core = s.base.core := by
  unfold State.access
  dsimp only
  (repeat' split) <;> simp [hb, hg]

theorem State.itemRead_core (it : Item) (ks : List Nat) (e : Ecc) (f : State → State) (s : State) (h : ∀ s, (f s).base = s.base) :
    (s.itemRead it ks e f).base.core = s.base.core :=
  State.access_core _ _ _ _ _ (fun s => by simp) h

theorem State.itemWork_core (n : Nat) (s : State) (f : Item → State → State) (h : ∀ i s, (f i s).base.core = s.base.core) :
    (s.itemWork n f).base.core = s.base.core := by
  unfold State.itemWork
  split
  · rfl
  · split <;> simp [h]

theorem State.chainRead_core (s : State) (q : Nat × Option Nat × List Nat × Ecc) : (s.chainRead q).base.core = s.base.core := by
  unfold State.chainRead
  split
  · rfl
  · exact State.access_core _ _ _ _ _ (fun s => by simp) fun _ => rfl

theorem State.lookupReturn_core (n i : Nat) (e1 e2 : Ecc) (it : Item) (s : State) :
    (s.lookupReturn n i e1 e2 it).base.core = s.base.core := by
  unfold State.lookupReturn
  extract_lets l
  clear_value l
  split
  · rfl
  · split
    · rfl
    · extract_lets b1 b2 d1 d2 r put s1 s2 s3
      have h1 : s1.base = s.base := by simp only [s1, State.modItem_base, State.meet_base]
      have h2 : s2.base = s.base := by simp only [s2]; split <;> simp [h1]
      have h3 : s3.base = s.base := by simp only [s3]; split <;> simp [h2]
      clear_value s3
      (repeat' split) <;> simp [h3]

theorem execIntakeTaskComplete_core : ∀ a0 a1 a2 a3 a4 a5 u, execIntakeTaskComplete a0 a1 a2 a3 a4 a5 = .next u → Changes id a5 u := by
  intro a0 a1 a2 a3 a4 a5; unfold execIntakeTaskComplete
  refine core_run _ _ _ fun s => State.itemWork_core _ _ _ fun i s => ?_
  dsimp only; split
  · exact State.itemRead_core _ _ _ _ _ fun s => by simp
  · rfl

theorem execLookupReturn_core : ∀ a0 a1 a2 a3 a4 a5 u, execLookupReturn a0 a1 a2 a3 a4 a5 = .next u → Changes id a5 u := by
  intro a0 a1 a2 a3 a4 a5; unfold execLookupReturn
  refine core_run _ _ _ fun s => State.itemWork_core _ _ _ fun i s => ?_
  exact State.lookupReturn_core ..

theorem execLookaheadTaskComplete_core : ∀ a0 a1 a2 a3 a4 a5 a6 u, execLookaheadTaskComplete a0 a1 a2 a3 a4 a5 a6 = .next u → Changes id a6 u := by
  intro a0 a1 a2 a3 a4 a5 a6; unfold execLookaheadTaskComplete
  refine core_run _ _ _ fun s => State.itemWork_core _ _ _ fun i s => ?_
  split
  · exact State.itemRead_core _ _ _ _ _ fun s => by simp
  · rfl

theorem execDecideStage_core : ∀ a0 a1 a2 u, execDecideStage a0 a1 a2 = .next u → Changes id a2 u := by
  intro a0 a1 a2; unfold execDecideStage
  refine core_run _ _ _ fun s => State.itemWork_core _ _ _ fun i s => ?_
  split
  · exact State.itemRead_core _ _ _ _ _ fun s => by split <;> simp
  · rfl

theorem execCommitStep_core : ∀ a0 a1 a2 a3 u, execCommitStep a0 a1 a2 a3 = .next u → Changes id a3 u := by
  intro a0 a1 a2 a3; unfold execCommitStep
  refine core_run _ _ _ fun s => State.itemWork_core _ _ _ fun i s => ?_
  split
  · exact State.itemRead_core _ _ _ _ _ fun s => by simp
  · rfl

theorem execGateEvaluation_core : ∀ a0 a1 a2 a3 u, execGateEvaluation a0 a1 a2 a3 = .next u → Changes id a3 u := by
  intro a0 a1 a2 a3; unfold execGateEvaluation
  refine core_run _ _ _ fun s => State.itemWork_core _ _ _ fun i s => ?_
  split
  · rfl
  · exact State.itemRead_core _ _ _ _ _ fun s => by dsimp only; split <;> simp

theorem execResolverScore_core : ∀ a0 a1 a2 a3 a4 u, execResolverScore a0 a1 a2 a3 a4 = .next u → Changes id a4 u := by
  intro a0 a1 a2 a3 a4; unfold execResolverScore
  refine core_run _ _ _ fun s => State.itemWork_core _ _ _ fun i s => ?_
  split
  · exact State.itemRead_core _ _ _ _ _ fun s => by simp
  · rfl

theorem execProposalCutoff_core : ∀ a0 a1 a2 a3 u, execProposalCutoff a0 a1 a2 a3 = .next u → Changes id a3 u := by
  intro a0 a1 a2 a3; unfold execProposalCutoff
  refine core_run _ _ _ fun s => State.itemWork_core _ _ _ fun i s => ?_
  split
  · exact State.itemRead_core _ _ _ _ _ fun s => by simp
  · rfl

theorem execFiring_core : ∀ a0 a1 a2 u, execFiring a0 a1 a2 = .next u → Changes id a2 u := by
  intro a0 a1 a2; unfold execFiring
  refine core_run _ _ _ fun s => ?_
  split
  · rfl
  · extract_lets s1
    have h : s1.base.core = s.base.core := core_foldl _ _ _ fun s q => State.chainRead_core ..
    clear_value s1
    split
    · simp [h]
    · exact h

theorem execGatePassTick_core : ∀ a0 a1 a2 u, execGatePassTick a0 a1 a2 = .next u → Changes id a2 u := by
  intro a0 a1 a2; unfold execGatePassTick
  refine core_run _ _ _ fun s => ?_
  dsimp only
  split
  · rfl
  · split
    · exact State.access_core _ _ _ _ _ (fun s => by simp) fun s => by simp
    · simp

theorem execFluePassEnd_core : ∀ a0 a1 a2 a3 a4 a5 u, execFluePassEnd a0 a1 a2 a3 a4 a5 = .next u → Changes id a5 u := by
  intro a0 a1 a2 a3 a4 a5; unfold execFluePassEnd
  refine core_run _ _ _ fun s => ?_
  split
  · exact State.access_core _ _ _ _ _ (fun s => by simp) fun s => by simp
  · rfl

theorem execRequestEvaluationComplete_core : ∀ a0 a1 a2 a3 u, execRequestEvaluationComplete a0 a1 a2 a3 = .next u → Changes id a3 u := by
  intro a0 a1 a2 a3; unfold execRequestEvaluationComplete
  refine core_run _ _ _ fun s => ?_
  split
  · rfl
  · split
    · rfl
    · split
      · rfl
      · exact State.access_core _ _ _ _ _ (fun s => by simp) fun s => by simp

theorem execSnapshotRestoreComplete_core : ∀ a0 a1 a2 a3 u, execSnapshotRestoreComplete a0 a1 a2 a3 = .next u → Changes id a3 u := by
  intro a0 a1 a2 a3; unfold execSnapshotRestoreComplete
  refine core_run _ _ _ fun s => ?_
  split
  · rfl
  · rw [State.progress_base]
    exact State.access_core _ _ _ _ _ (fun s => by simp) fun s => by simp

theorem State.request_core (code : Nat) (m : Bytes) (ok : Bytes → Bool) (f : Bytes → State → State) (g : Core → Core) (s : State)
    (h0 : g s.base.core = s.base.core) (h : ∀ p, (f p s).base.core = g s.base.core) :
    (s.request code m ok f).base.core = g s.base.core := by
  unfold State.request
  (repeat' split) <;> simp [h, h0]

theorem execBlkWarmAssert_core : ∀ t s u, execBlkWarmAssert t s = .next u → Changes id s u := fun t s =>
  core_live t s _ fun s => by split <;> simp [core_eta]
theorem execBlkWarmRelease_core : ∀ t s u, execBlkWarmRelease t s = .next u → Changes id s u := fun t s =>
  core_live t s _ fun s => by simp [core_eta]
theorem execVidStep_core : ∀ t s u, execVidStep t s = .next u → Changes id s u := fun t s =>
  core_live t s _ fun s => by
    extract_lets v due
    clear_value due
    (repeat' split) <;> simp [core_eta]
theorem execSensorSample_core : ∀ t v s u, execSensorSample t v s = .next u → Changes id s u := fun t v s =>
  core_live t s _ fun s => by
    extract_lets now read p1 s1 s2 p2 s3
    have h : s2.base.core = s.base.core := rfl
    have h' : s3.base.core = s.base.core := rfl
    clear_value s2 s3
    split
    · simp [h']
    · exact h
theorem execThermalRelease_core : ∀ t s u, execThermalRelease t s = .next u → Changes id s u := fun t s =>
  core_live t s _ fun s => by (repeat' split) <;> simp [core_eta]
theorem execStackPortFailure_core : ∀ t k s u, execStackPortFailure t k s = .next u → Changes id s u := fun t k s =>
  core_live t s _ fun s => by split <;> simp
theorem execRecover_core : ∀ t m s u, execRecover t m s = .next u → Changes id s u := fun t m s =>
  core_live t s _ fun s => by
    split
    · exact State.request_core _ _ _ _ id _ rfl fun p => by simp
    · rfl
theorem execDriftRefclkLoss_core : ∀ t s u, execDriftRefclkLoss t s = .next u → Changes id s u := fun t s =>
  core_live t s _ fun s => by
    rw [core_foldl]
    · rfl
    · intro s a
      split
      · rfl
      · simp
theorem execDriftRefclkReturn_core : ∀ t s u, execDriftRefclkReturn t s = .next u → Changes id s u := fun t s =>
  core_live t s _ fun s => by simp [core_eta]
theorem execForemanFailure_core : ∀ t s u, execForemanFailure t s = .next u → Changes id s u := fun t s =>
  core_run t s _ fun s => State.foremanRestart_core _ _
theorem execForemanRestartComplete_core : ∀ t ok s u, execForemanRestartComplete t ok s = .next u → Changes id s u := fun t ok s =>
  core_run t s _ fun s => by
    simp only []
    (repeat' split) <;> simp [core_eta]
theorem execUnitInternalError_core : ∀ t k s u, execUnitInternalError t k s = .next u → Changes id s u := fun t k s =>
  core_run t s _ fun s => State.failUnit_core _ _
theorem execHeartbeatMiss_core : ∀ t k s u, execHeartbeatMiss t k s = .next u → Changes id s u := fun t k s =>
  core_run t s _ fun s => State.failUnit_core _ _
theorem execCanaryEvaluation_core : ∀ t e w s u, execCanaryEvaluation t e w s = .next u → Changes id s u := fun t e w s =>
  core_run t s _ fun s => by
    rw [State.reportShort_base]
    exact core_foldl _ _ s fun s c => State.declareCycle_core w s c

/-- The Lamp alone. -/
theorem State.lampGrant_core (i : Inst) (o k b : Nat) (s : State) :
    (s.lampGrant i o k b).base.core = { s.base.core with lamp := (s.lampGrant i o k b).lamp } := by
  unfold State.lampGrant
  simp only []
  generalize hx : State.lampEvent _ _ _ _ = x
  have := congrArg State.base hx
  rw [State.lampEvent_base] at this
  rw [show x.lamp = x.base.core.lamp from rfl, ← this]
  rfl

theorem changes_put (put : Core → State → Core) (hp : ∀ s : State, put s.base.core s = s.base.core) (t : Nat) (s : State)
    (f : State → State) (h : ∀ s, (f s).base.core = put s.base.core (f s)) :
    ∀ u, done (s.live t f) = .next u → Changes (put · u) s u := by
  intro u hu
  cases hu
  rcases State.live_cases t s f with e | e <;> rw [e]
  · exact ⟨_, Core.ticked_refl _, (hp s).symm⟩
  · exact ⟨_, State.advance_ticked t s, h _⟩

def Core.putLamp (c : Core) (u : State) : Core := { c with lamp := u.lamp }
def Core.putBoot (c : Core) (u : State) : Core := { c with boot := u.boot }

theorem putLamp_self (s : State) : Core.putLamp s.base.core s = s.base.core := rfl
theorem putBoot_self (s : State) : Core.putBoot s.base.core s = s.base.core := rfl

/-- An operation that leaves the core, before or after one that moves the Lamp alone. -/
theorem putLamp_then {s v w : State} (h : v.base.core = Core.putLamp s.base.core v) (hw : w.base = v.base) :
    w.base.core = Core.putLamp s.base.core w := by
  have : w.lamp = v.lamp := congrArg (fun b => b.core.lamp) hw
  rw [hw, h, Core.putLamp, Core.putLamp, this]

theorem putLamp_kept {s w : State} (h : w.base = s.base) : w.base.core = Core.putLamp s.base.core w :=
  putLamp_then (putLamp_self s).symm h

theorem putBoot_then {s v w : State} (h : v.base.core = Core.putBoot s.base.core v) (hw : w.base.core = v.base.core) :
    w.base.core = Core.putBoot s.base.core w := by
  have : w.boot = v.boot := congrArg (fun b => b.boot) hw
  rw [hw, h, Core.putBoot, Core.putBoot, this]

theorem putBoot_kept {s w : State} (h : w.base.core = s.base.core) : w.base.core = Core.putBoot s.base.core w :=
  putBoot_then (putBoot_self s).symm h

theorem putBoot_trans {s v w : State} (h : v.base.core = Core.putBoot s.base.core v) (hw : w.base.core = Core.putBoot v.base.core w) :
    w.base.core = Core.putBoot s.base.core w := by
  rw [hw, h]; rfl

theorem State.lampAcquire_core (i : Inst) (o : Nat) (s : State) :
    (s.lampAcquire i o).base.core = Core.putLamp s.base.core (s.lampAcquire i o) := by
  unfold State.lampAcquire
  (repeat' split) <;> first
    | (refine putLamp_kept ?_; simp; done)
    | exact putLamp_then (State.lampGrant_core _ _ _ _ _) (State.lampResult_base ..)

theorem State.lampRelease_core (i : Inst) (o : Nat) (s : State) :
    (s.lampRelease i o).base.core = Core.putLamp s.base.core (s.lampRelease i o) := by
  unfold State.lampRelease
  (repeat' split) <;> first
    | (refine putLamp_kept ?_; simp; done)
    | exact putLamp_then (v := { s with lamp := { s.lamp with held := false } }) rfl (by simp)

theorem State.lampBreak_core (i : Inst) (o : Nat) (s : State) :
    (s.lampBreak i o).base.core = Core.putLamp s.base.core (s.lampBreak i o) := by
  unfold State.lampBreak
  (repeat' split) <;> first
    | (refine putLamp_kept ?_; simp; done)
    | exact putLamp_then (State.lampGrant_core _ _ _ _ _) (State.lampResult_base ..)

theorem State.lampDue_core (s : State) : s.lampDue.base.core = Core.putLamp s.base.core s.lampDue := by
  unfold State.lampDue
  split
  · exact putLamp_then (v := { s with lamp := { s.lamp with expiryPosted := true } }) rfl (State.lampEvent_base ..)
  · rfl

/-- The expiry that is due, then an operation that moves the Lamp alone. -/
theorem lampDue_then {s w : State} (h : w.base.core = Core.putLamp s.lampDue.base.core w) : w.base.core = Core.putLamp s.base.core w := by
  rw [h, State.lampDue_core]; rfl

theorem State.lampCtrl_core (i : Inst) (v : Nat) (s : State) :
    (s.lampCtrl i v).base.core = Core.putLamp s.base.core (s.lampCtrl i v) := by
  unfold State.lampCtrl
  split
  · exact lampDue_then (State.lampAcquire_core ..)
  · exact lampDue_then (State.lampRelease_core ..)
  · exact lampDue_then (State.lampBreak_core ..)
  · rfl

theorem State.writeReg_core (i : Inst) (port off v : Nat) (s : State) :
    (s.writeReg i port off v).base.core = Core.putLamp s.base.core (s.writeReg i port off v) := by
  by_cases h : off = 0x100
  · subst h; exact State.lampCtrl_core ..
  · unfold State.writeReg
    simp only [h, if_false]
    (repeat' split) <;> first
      | (refine putLamp_kept ?_; simp; done)
      | (simp only []; split <;> exact putLamp_kept (by simp))

theorem window_lamp (t port : Nat) (ctl : CtlPort) (s : State) (f : Inst → State → State)
    (h : ∀ i s, (f i s).base.core = Core.putLamp s.base.core (f i s)) :
    ∀ u, done (s.window t port ctl f) = .next u → Changes (Core.putLamp · u) s u :=
  changes_put _ putLamp_self t s _ fun s => by
    simp only []
    (repeat' split)
    · rfl
    · exact (h _ _).trans (by simp)
    · exact putLamp_kept (by simp)

theorem execAcquire_core : ∀ t p k o s u, execAcquire t p k o s = .next u → Changes (Core.putLamp · u) s u := fun t p k o s =>
  window_lamp t p k s _ fun i s => lampDue_then (State.lampAcquire_core ..)
theorem execRelease_core : ∀ t p k o s u, execRelease t p k o s = .next u → Changes (Core.putLamp · u) s u := fun t p k o s =>
  window_lamp t p k s _ fun i s => lampDue_then (State.lampRelease_core ..)
theorem execBreakLamp_core : ∀ t p k o s u, execBreakLamp t p k o s = .next u → Changes (Core.putLamp · u) s u := fun t p k o s =>
  window_lamp t p k s _ fun i s => lampDue_then (State.lampBreak_core ..)
theorem execRegisterWrite_core : ∀ t p k o v s u, execRegisterWrite t p k o v s = .next u → Changes (Core.putLamp · u) s u := fun t p k o v s =>
  window_lamp t p k s _ fun i s => by
    split
    · exact State.writeReg_core ..
    · exact putLamp_kept (by simp)
theorem execLampExpiry_core : ∀ t s u, execLampExpiry t s = .next u → Changes (Core.putLamp · u) s u := fun t s =>
  changes_put _ putLamp_self t s _ fun s => State.lampDue_core s

/-- The Lamp through the window, or bytes of the host-directed region. -/
theorem execWrite_core : ∀ t port p s u, execWrite t port p s = .next u →
    Changes (Core.putLamp · u) s u ∨
      ∃ a, Changes (fun c => { c with mem := memWrite c.mem a (slice (Tx.data p) 0 (Tx.length p)) }) s u := by
  intro t port p s u h
  cases h
  unfold State.transaction
  rcases State.live_cases t s _ with e | e <;> rw [e]
  · exact .inl ⟨_, Core.ticked_refl _, rfl⟩
  · generalize hw : s.advance t = w
    have ht := State.advance_ticked t s
    rw [hw] at ht
    clear hw e
    split
    · extract_lets dom n s1
      split
      · exact .inl ⟨_, ht, putLamp_kept (by simp [s1])⟩
      generalize hx : State.modCredits _ _ s1 = x
      have hb : x.base = w.base := by rw [← hx]; simp [s1]
      clear_value s1
      beta_reduce; split
      · exact .inl ⟨_, ht, putLamp_kept (by simp [hb])⟩
      · split
        · exact .inl ⟨_, ht, putLamp_kept (by simp [hb])⟩
        · beta_reduce; split
          · exact .inl ⟨_, ht, putLamp_kept (by simp [hb])⟩
          · exact .inl ⟨_, ht, (State.writeReg_core ..).trans (by rw [hb])⟩
          · rename_i a _
            refine .inr ⟨a, _, ht, ?_⟩
            rw [← hb]; rfl
    · exact .inl ⟨_, ht, rfl⟩

/-! Boot. -/

theorem State.request_put (put : Core → State → Core) (code : Nat) (m : Bytes) (ok : Bytes → Bool) (f : Bytes → State → State) (s : State)
    (hk : ∀ w : State, w.base = s.base → w.base.core = put s.base.core w) (h : ∀ p, (f p s).base.core = put s.base.core (f p s)) :
    (s.request code m ok f).base.core = put s.base.core (s.request code m ok f) := by
  unfold State.request
  (repeat' split) <;> first
    | exact h _
    | (refine hk _ ?_; simp; done)

theorem State.enterBanked_core (k : Nat) (s : State) : (s.enterBanked k).base.core = Core.putBoot s.base.core (s.enterBanked k) := by
  unfold State.enterBanked
  refine putBoot_then (v := { s with boot := { s.boot with status := k, phase := .done } }) rfl ?_
  simp

theorem State.foremanStart_core (s : State) : s.foremanStart.1.base.core = Core.putBoot s.base.core s.foremanStart.1 := rfl

theorem managed_put (put : Core → State → Core) (hp : ∀ s w : State, w.base = s.base → w.base.core = put s.base.core w)
    (t code : Nat) (m : Bytes) (ok : Bytes → Bool) (f : Bytes → State → State) (s : State)
    (h : ∀ p s, (f p s).base.core = put s.base.core (f p s)) :
    ∀ u, done (s.managed t (·.request code m ok f)) = .next u → Changes (put · u) s u :=
  changes_put put (fun s => (hp s s rfl).symm) t s _ fun s => by
    split
    · have hb : s.active.base = s.base := State.active_base s
      refine (State.request_put put _ _ _ _ _ (hp _) (h · _)).trans ?_
      rw [hb]
    · exact hp _ _ rfl

theorem execBundleWrite_core : ∀ t m s u, execBundleWrite t m s = .next u → Changes (Core.putBoot · u) s u := fun t m s =>
  managed_put _ (fun s w h => putBoot_kept (congrArg Base.core h)) t _ m _ _ s fun p s => by
    extract_lets off len b0 b code b'
    exact putBoot_then (v := { s with boot := b' }) rfl (by simp)

theorem execBundleCommit_core : ∀ t m s u, execBundleCommit t m s = .next u → Changes (Core.putBoot · u) s u := fun t m s =>
  managed_put _ (fun s w h => putBoot_kept (congrArg Base.core h)) t _ m _ _ s fun p s => by
    extract_lets b h fw st first off code s1 pay s2 r
    have h1 : s1.base.core = Core.putBoot s.base.core s1 := by
      simp only [s1]; split <;> rfl
    have h2 : s2.base.core = Core.putBoot s.base.core s2 := putBoot_then h1 (by simp [s2])
    have h3 : r.1.base.core = Core.putBoot s.base.core r.1 := putBoot_trans h2 (State.foremanStart_core _)
    clear_value r s2
    (repeat' split) <;> first
      | exact h2
      | exact putBoot_trans h2 (State.enterBanked_core ..)
      | exact putBoot_trans h3 (State.enterBanked_core ..)
      | exact putBoot_trans h3 rfl

theorem execBootComplete_core : ∀ t a b d s u, execBootComplete t a b d s = .next u → Changes (Core.putBoot · u) s u := fun t a b d s =>
  changes_put _ putBoot_self t s _ fun s => by
    extract_lets s1 b1 s2 s3
    have h1 : s1.base.core = s.base.core := core_foldl _ _ _ fun s a => by simp
    have h2 : s2.base.core = Core.putBoot s.base.core s2 := putBoot_trans (putBoot_kept (w := s1) h1) rfl
    have h3 : s3.base.core = Core.putBoot s.base.core s3 := putBoot_then h2 (by simp [s3])
    clear_value s3
    (repeat' split) <;> first
      | rfl
      | exact State.enterBanked_core ..
      | (refine putBoot_then h3 ?_; simp; done)

def Core.putRoots (c : Core) (u : State) : Core := { c with roots := u.roots }
def Core.putDomains (c : Core) (u : State) : Core := { c with domains := u.domains }
def Core.putRouting (c : Core) (u : State) : Core := { c with routing := u.routing }
def Core.putLayoutRec (c : Core) (u : State) : Core := { c with layoutRec := u.layoutRec }
def Core.putThreshold (c : Core) (u : State) : Core := { c with threshold := u.threshold }

theorem putRoots_then (s v w : State) (h : v.base.core = Core.putRoots s.base.core v) (hw : w.base = v.base) :
    w.base.core = Core.putRoots s.base.core w := by
  have : w.roots = v.roots := congrArg (fun b => b.core.roots) hw
  rw [hw, h, Core.putRoots, Core.putRoots, this]
theorem putDomains_then (s v w : State) (h : v.base.core = Core.putDomains s.base.core v) (hw : w.base = v.base) :
    w.base.core = Core.putDomains s.base.core w := by
  have : w.domains = v.domains := congrArg (fun b => b.core.domains) hw
  rw [hw, h, Core.putDomains, Core.putDomains, this]
theorem putRouting_then (s v w : State) (h : v.base.core = Core.putRouting s.base.core v) (hw : w.base = v.base) :
    w.base.core = Core.putRouting s.base.core w := by
  have : w.routing = v.routing := congrArg (fun b => b.core.routing) hw
  rw [hw, h, Core.putRouting, Core.putRouting, this]
theorem putLayoutRec_then (s v w : State) (h : v.base.core = Core.putLayoutRec s.base.core v) (hw : w.base = v.base) :
    w.base.core = Core.putLayoutRec s.base.core w := by
  have : w.layoutRec = v.layoutRec := congrArg (fun b => b.core.layoutRec) hw
  rw [hw, h, Core.putLayoutRec, Core.putLayoutRec, this]
theorem putThreshold_then (s v w : State) (h : v.base.core = Core.putThreshold s.base.core v) (hw : w.base = v.base) :
    w.base.core = Core.putThreshold s.base.core w := by
  have : w.threshold = v.threshold := congrArg (fun b => b.core.threshold) hw
  rw [hw, h, Core.putThreshold, Core.putThreshold, this]

theorem execPolicyRootSet_core : ∀ t m s u, execPolicyRootSet t m s = .next u → Changes (Core.putRoots · u) s u := fun t m s =>
  managed_put _ (fun s w h => putRoots_then s s w rfl h) t _ m _ _ s fun p s => by
    extract_lets i key clear r
    split
    · exact putRoots_then s s _ rfl (by simp)
    · exact putRoots_then s { s with roots := s.roots.set (i - 1) r } _ rfl (by simp)
theorem execDomainMapSet_core : ∀ t m s u, execDomainMapSet t m s = .next u → Changes (Core.putDomains · u) s u := fun t m s =>
  managed_put _ (fun s w h => putDomains_then s s w rfl h) t _ m _ _ s fun p s => by
    extract_lets m
    split
    · exact putDomains_then s s _ rfl (by simp)
    · exact putDomains_then s { s with domains := m } _ rfl (by simp)
theorem execRoutingSet_core : ∀ t m s u, execRoutingSet t m s = .next u → Changes (Core.putRouting · u) s u := fun t m s =>
  managed_put _ (fun s w h => putRouting_then s s w rfl h) t _ m _ _ s fun p s => by
    extract_lets m
    split
    · exact putRouting_then s s _ rfl (by simp)
    · exact putRouting_then s { s with routing := m } _ rfl (by simp)

/-- What the row of an opcode can do: nothing, complete what was refused before the payload, or its own work. -/
theorem State.command_cases (op : Nat) (i : Inst) (f : ExecCmd → State → State) (s : State) :
    s.command op i f = s ∨ ∃ c, s.foreman.exec = some c ∧
      (s.command op i f = s.complete c (Answer.fail c.pre) ∨ s.command op i f = f c s) := by
  unfold State.command
  split
  · exact .inl rfl
  · rename_i c hc
    split
    · split
      · exact .inr ⟨c, hc, .inl rfl⟩
      · split
        · exact .inl rfl
        · exact .inr ⟨c, hc, .inr rfl⟩
    · exact .inl rfl

theorem State.finish_cases (c : ExecCmd) (e : Nat) (ok : State → State × Bytes × Option Bytes) (l g : Bool) (s : State) :
    s.finish c e ok l g = s.complete c (Answer.fail e) ∨ e = 0 ∧ (s.finish c e ok l g).base = (ok s).1.base := by
  unfold State.finish
  split
  · exact .inl rfl
  · rename_i h
    refine .inr ⟨by simpa using h, ?_⟩
    extract_lets r s1
    simp only [State.complete_base, s1]
    split <;> simp [r]

theorem opcode_put (put : Core → State → Core) (hp : ∀ s v w : State, v.base.core = put s.base.core v → w.base = v.base → w.base.core = put s.base.core w)
    (hs : ∀ s : State, s.base.core = put s.base.core s)
    (t op : Nat) (i : Inst) (s : State) (e : ExecCmd → State → Nat) (ok : ExecCmd → State → State × Bytes × Option Bytes) (l g : Bool)
    (h : ∀ c s, (ok c s).1.base.core = put s.base.core (ok c s).1) :
    ∀ u, s.opcode t op i e ok l g = .next u → Changes (put · u) s u :=
  changes_put put (fun s => (hs s).symm) t s _ fun s => by
    rcases State.command_cases op i (fun c s => s.finish c (e c s) (ok c) l g) s with h1 | ⟨c, _, h1 | h1⟩ <;> rw [h1]
    · exact hs _
    · exact hp s s _ (hs _) (by simp)
    · rcases State.finish_cases c (e c s) (ok c) l g s with h2 | ⟨_, h2⟩
      · rw [h2]; exact hp s s _ (hs _) (by simp)
      · exact hp s _ _ (h c s) h2

theorem execLayoutSet_core : ∀ t i s u, execLayoutSet t i s = .next u → Changes (Core.putLayoutRec · u) s u := fun t i s =>
  opcode_put _ putLayoutRec_then (fun _ => rfl) _ _ _ _ _ _ _ _ fun _ _ => rfl
theorem execCanarySet_core : ∀ t i s u, execCanarySet t i s = .next u → Changes (Core.putThreshold · u) s u := fun t i s =>
  opcode_put _ putThreshold_then (fun _ => rfl) _ _ _ _ _ _ _ _ fun _ _ => rfl

/-- What THRESHOLD becomes lies in its range (R338). -/
theorem execCanarySet_range : ∀ t i s u, execCanarySet t i s = .next u → u.threshold = s.threshold ∨ 100 ≤ u.threshold ∧ u.threshold ≤ 1000000 := by
  intro t i s u h
  cases h
  rcases State.live_cases t s _ with e | e <;> rw [e]
  · exact .inl rfl
  · have ha : (s.advance t).threshold = s.threshold := by unfold State.advance; split <;> rfl
    rw [← ha]
    generalize s.advance t = w
    have key : ∀ a b : State, a.base = b.base → a.threshold = b.threshold := fun a b h => congrArg (fun b => b.core.threshold) h
    rcases State.command_cases 0x0600 i _ w with h1 | ⟨c, _, h1 | h1⟩ <;> rw [h1]
    · exact .inl rfl
    · exact .inl (key _ _ (by simp))
    · rcases State.finish_cases c _ _ true true w with h2 | ⟨h0, h2⟩
      · beta_reduce
        rw [h2]; exact .inl (key _ _ (by simp))
      · refine .inr ?_
        beta_reduce
        rw [key _ _ h2]
        show 100 ≤ c.arg 0x18 4 ∧ c.arg 0x18 4 ≤ 1000000
        by_contra hn
        have : c.arg 0x18 4 < 100 ∨ 1000000 < c.arg 0x18 4 := by omega
        simp [firstFail, E.range, this] at h0

theorem execBlkPorstRelease_core : ∀ t s u, execBlkPorstRelease t s = .next u →
    u.base.core = s.base.core ∨ s.porst = true ∧ u.base.core = { s.base.core with porst := false, boot := u.boot } := by
  intro t s u h
  cases h
  split
  · rename_i h; exact .inr ⟨h, rfl⟩
  · exact .inl rfl

theorem execDeviceCountStart_core : ∀ t s u, execDeviceCountStart t s = .next u →
    u = s ∨ s.porst = false ∧ s.pilotFault = false ∧ u.base.core = { s.base.core with count := 0, running := true, boot := u.boot } := by
  intro t s u h
  cases h
  split
  · exact .inl rfl
  · rename_i h
    simp at h
    refine .inr ⟨h.1.1.1, h.1.1.2, ?_⟩
    dsimp only
    split
    · rfl
    · generalize hw : List.foldl _ _ _ = w
      have hb : w.base = _ := hw ▸ base_foldl (fun (s : State) q => s.report Rep.portDown [16 + q, 0]) _ _ fun s q => State.report_base ..
      have : w.boot = { s.boot with phase := .waitCommit } := congrArg (fun b => b.core.boot) hb
      rw [hb, this]; rfl

theorem execPilotRefclkLoss_core : ∀ t s u, execPilotRefclkLoss t s = .next u →
    u = s ∨ u.base.core = { (s.advance t).base.core with running := false, pilotFault := true } := by
  intro t s u h
  cases h
  rcases State.live_cases t s _ with e | e <;> rw [e]
  · exact .inl rfl
  · exact .inr rfl

theorem execBlkPorstAssert_core : ∀ t s u, execBlkPorstAssert t s = .next u →
    u.base.core = { State.reset.base.core with pending := s.pending, fuses := s.fuses, porst := true, boot := u.boot } := by
  intro t s u h
  cases h
  rfl

/-! The end of a recovery. -/

/-- What a recovery changes of the device as a whole. -/
def Core.putRecovery (c : Core) (u : State) : Core :=
  { c with boot := u.boot, layout := u.layout, mem := u.mem, recoveries := u.recoveries, replicaEpoch := u.replicaEpoch }

theorem putRecovery_then {s v w : State} (h : v.base.core = Core.putRecovery s.base.core v) (hw : w.base.core = v.base.core) :
    w.base.core = Core.putRecovery s.base.core w := by
  have h1 : w.boot = v.boot := congrArg (fun b => b.boot) hw
  have h2 : w.layout = v.layout := congrArg (fun b => b.layout) hw
  have h3 : w.mem = v.mem := congrArg (fun b => b.mem) hw
  have h4 : w.recoveries = v.recoveries := congrArg (fun b => b.recoveries) hw
  have h5 : w.replicaEpoch = v.replicaEpoch := congrArg (fun b => b.replicaEpoch) hw
  rw [hw, h, Core.putRecovery, Core.putRecovery, h1, h2, h3, h4, h5]

theorem putRecovery_trans {s v w : State} (h : v.base.core = Core.putRecovery s.base.core v) (hw : w.base.core = Core.putRecovery v.base.core w) :
    w.base.core = Core.putRecovery s.base.core w := by
  rw [hw, h]; rfl

theorem State.zeroRegion_core (s : State) (r : Nat) :
    (s.zeroRegion r).base.core = Core.putRecovery s.base.core (s.zeroRegion r) ∧ ((s.zeroRegion r).mem = s.mem ∨ (s.zeroRegion r).mem = []) := by
  unfold State.zeroRegion
  split <;> exact ⟨rfl, by simp⟩

theorem zeroRegions_core (l : List Nat) (s : State) :
    (l.foldl State.zeroRegion s).base.core = Core.putRecovery s.base.core (l.foldl State.zeroRegion s) ∧
      ((l.foldl State.zeroRegion s).mem = s.mem ∨ (l.foldl State.zeroRegion s).mem = []) := by
  induction l generalizing s with
  | nil => exact ⟨rfl, .inl rfl⟩
  | cons a l ih =>
    obtain ⟨h1, h2⟩ := ih (s.zeroRegion a)
    obtain ⟨g1, g2⟩ := State.zeroRegion_core s a
    refine ⟨putRecovery_trans g1 h1, ?_⟩
    rcases h2 with h | h
    · exact h ▸ g2
    · exact .inr h

theorem State.applyLayout_core (s : State) :
    s.applyLayout.1.base.core = Core.putRecovery s.base.core s.applyLayout.1 ∧ (s.applyLayout.1.mem = s.mem ∨ s.applyLayout.1.mem = []) := by
  unfold State.applyLayout
  split
  · refine ⟨putRecovery_then (v := s) rfl (by simp), .inl ?_⟩
    exact congrArg (fun b => b.core.mem) (State.report_base ..)
  · exact ⟨putRecovery_trans rfl (zeroRegions_core _ _).1, (zeroRegions_core _ _).2⟩

theorem zeroRegions_rest (l : List Nat) (s : State) :
    (l.foldl State.zeroRegion s).mode = s.mode ∧ (l.foldl State.zeroRegion s).recovery = s.recovery ∧
      (l.foldl State.zeroRegion s).pins = s.pins ∧ (l.foldl State.zeroRegion s).boot = s.boot ∧
      (l.foldl State.zeroRegion s).recoveries = s.recoveries ∧ (l.foldl State.zeroRegion s).replicaEpoch = s.replicaEpoch := by
  induction l generalizing s with
  | nil => exact ⟨rfl, rfl, rfl, rfl, rfl, rfl⟩
  | cons a l ih =>
    have h : (s.zeroRegion a).mode = s.mode ∧ (s.zeroRegion a).recovery = s.recovery ∧ (s.zeroRegion a).pins = s.pins ∧
        (s.zeroRegion a).boot = s.boot ∧ (s.zeroRegion a).recoveries = s.recoveries ∧
        (s.zeroRegion a).replicaEpoch = s.replicaEpoch := by
      unfold State.zeroRegion
      split <;> exact ⟨rfl, rfl, rfl, rfl, rfl, rfl⟩
    have i := ih (s.zeroRegion a)
    rw [h.1, h.2.1, h.2.2.1, h.2.2.2.1, h.2.2.2.2.1, h.2.2.2.2.2] at i
    exact i

theorem State.applyLayout_rest (s : State) :
    s.applyLayout.1.mode = s.mode ∧ s.applyLayout.1.recovery = s.recovery ∧ s.applyLayout.1.pins = s.pins ∧
      s.applyLayout.1.boot = s.boot ∧ s.applyLayout.1.recoveries = s.recoveries ∧
      s.applyLayout.1.replicaEpoch = s.replicaEpoch := by
  unfold State.applyLayout
  split
  · have h := State.report_base Rep.refused ((s.layoutRec.flatMap (leBytes 4)).map BitVec.toNat) s
    exact ⟨congrArg Base.mode h, congrArg Base.recovery h, congrArg Base.pins h, congrArg (fun b => b.core.boot) h,
      congrArg (fun b => b.core.recoveries) h, congrArg (fun b => b.core.replicaEpoch) h⟩
  · exact zeroRegions_rest _ _

/-- A recovery's end: what the device as a whole is then. -/
theorem State.rebuild_base (k : Nat) (failed : List UnitId) (bad : List (Nat × Nat × Nat)) (s : State) :
    (s.rebuild k failed bad).base =
        ⟨{ s.base.core with layout := (s.rebuild k failed bad).layout, mem := (s.rebuild k failed bad).mem,
                            recoveries := (s.recoveries + 1) % 2 ^ 32, replicaEpoch := (s.replicaEpoch + 1) % 2 ^ 32 },
          .normal, none, { s.pins with faultN := false }⟩ ∧
      ((s.rebuild k failed bad).mem = s.mem ∨ (s.rebuild k failed bad).mem = []) := by
  unfold State.rebuild
  extract_lets old s1 l s2 f2 g2 s3 p3 s4 s5 sids s6 s7 s8 back
  have h1 : s1.base = s.base := by simp [s1]
  have ha := State.applyLayout_core s1
  have hb : l.1.base = ⟨{ s.base.core with layout := l.1.layout, mem := l.1.mem }, s.mode, s.recovery, s.pins⟩ ∧
      (l.1.mem = s.mem ∨ l.1.mem = []) := by
    have hm : s1.mem = s.mem := congrArg (fun b => b.core.mem) h1
    rw [hm] at ha
    refine ⟨?_, ha.2⟩
    have e : ∀ w : State, w.base = ⟨w.base.core, w.mode, w.recovery, w.pins⟩ := fun _ => rfl
    have hl := State.applyLayout_rest s1
    have r1 : s1.mode = s.mode := congrArg Base.mode h1
    have r2 : s1.recovery = s.recovery := congrArg Base.recovery h1
    have r3 : s1.pins = s.pins := congrArg Base.pins h1
    rw [e l.1, show l = s1.applyLayout from rfl, hl.1, hl.2.1, hl.2.2.1, r1, r2, r3, ha.1, h1]
    have q1 : s1.applyLayout.1.boot = s.boot := hl.2.2.2.1.trans (congrArg (fun b => b.core.boot) h1)
    have q2 : s1.applyLayout.1.recoveries = s.recoveries := hl.2.2.2.2.1.trans (congrArg (fun b => b.core.recoveries) h1)
    have q3 : s1.applyLayout.1.replicaEpoch = s.replicaEpoch := hl.2.2.2.2.2.trans (congrArg (fun b => b.core.replicaEpoch) h1)
    rw [Core.putRecovery, q1, q2, q3]
    rfl
  have h3 : s3.base = l.1.base := by simp [s3, f2, g2, s2]
  have hs3 : s3.base = ⟨{ s.base.core with layout := l.1.layout, mem := l.1.mem }, s.mode, s.recovery, s.pins⟩ := h3.trans hb.1
  clear_value s3 l
  have e4 : s4.base = ⟨{ s3.base.core with recoveries := (s3.recoveries + 1) % 2 ^ 32, replicaEpoch := (s3.replicaEpoch + 1) % 2 ^ 32 },
      .normal, none, { s3.pins with faultN := false }⟩ := by
    simp only [s4, State.retryRetire_base]; rfl
  clear_value s4
  have r1 : s3.recoveries = s.recoveries := congrArg (fun b => b.core.recoveries) hs3
  have r2 : s3.replicaEpoch = s.replicaEpoch := congrArg (fun b => b.core.replicaEpoch) hs3
  have r3 : s3.pins = s.pins := congrArg Base.pins hs3
  rw [r1, r2, r3, hs3] at e4
  have h8 : ((s8.reportShort s.anyShort).report Rep.recovered
      ([s8.recoveries, back.length] ++ back.flatMap unitCode ++ failed.length :: failed.flatMap unitCode)).base = s4.base := by
    have h5 : s5.base = s4.base := base_foldl _ _ _ fun s a => by simp
    have h6 : s6.base = s5.base := base_foldl _ _ _ fun s a => by simp
    have h7 : s7.base = s6.base := base_foldl _ _ _ fun s a => by simp
    have h8 : s8.base = s7.base := by
      simp only [s8, State.keepRows_base, State.finishTeardown_base]
      exact base_foldl _ _ _ fun s a => by simp
    rw [State.report_base, State.reportShort_base, h8, h7, h6, h5]
  generalize State.report Rep.recovered _ (State.reportShort _ s8) = u at h8
  have hu := h8.trans e4
  have m1 : u.layout = l.1.layout := congrArg (fun b => b.core.layout) hu
  have m2 : u.mem = l.1.mem := congrArg (fun b => b.core.mem) hu
  rw [hu, m1, m2]
  exact ⟨rfl, hb.2⟩

theorem execRecoveryComplete_core : ∀ t a b d s u, execRecoveryComplete t a b d s = .next u →
    Changes (Core.putRecovery · u) s u ∧ (u.mem = s.mem ∨ u.mem = []) := by
  intro t a bb d s u h
  cases h
  rcases State.live_cases t s _ with e | e <;> rw [e]
  · exact ⟨⟨_, Core.ticked_refl _, rfl⟩, .inl rfl⟩
  · have ht := State.advance_ticked t s
    have hm : s.mem = (s.advance t).mem := by unfold State.advance; split <;> rfl
    rw [hm]
    generalize s.advance t = w at ht
    suffices h : ∀ v : State, v = _ → v.base.core = Core.putRecovery w.base.core v ∧ (v.mem = w.mem ∨ v.mem = []) from
      ⟨⟨_, ht, (h _ rfl).1⟩, (h _ rfl).2⟩
    have same : ∀ v : State, v.base.core = w.base.core → v.base.core = Core.putRecovery w.base.core v ∧ (v.mem = w.mem ∨ v.mem = []) :=
      fun v h => ⟨putRecovery_then (v := w) rfl h, .inl (congrArg (fun b => b.mem) h)⟩
    have hf := State.foremanStart_core w
    intro v hv
    subst hv
    split
    · exact same _ rfl
    · split
      · exact same _ rfl
      · split
        · exact same _ rfl
        · split
          · exact same _ (by simp)
          · split
            · exact same _ (by simp)
            · extract_lets b
              have hb : b.1.base.core = Core.putBoot w.base.core b.1 := hf
              have hbm : b.1.mem = w.mem := congrArg (fun c => c.mem) hb
              have hbr : ∀ v : State, v.base.core = Core.putBoot w.base.core v → v.base.core = Core.putRecovery w.base.core v ∧ (v.mem = w.mem ∨ v.mem = []) := by
                intro v hv
                refine ⟨?_, .inl (congrArg (fun c => c.mem) hv)⟩
                have q1 : v.layout = w.layout := congrArg (fun c => c.layout) hv
                have q2 : v.mem = w.mem := congrArg (fun c => c.mem) hv
                have q3 : v.recoveries = w.recoveries := congrArg (fun c => c.recoveries) hv
                have q4 : v.replicaEpoch = w.replicaEpoch := congrArg (fun c => c.replicaEpoch) hv
                rw [hv, Core.putRecovery, Core.putBoot, q1, q2, q3, q4]
                rfl
              clear_value b
              split
              · refine hbr _ (putBoot_trans ?_ (State.enterBanked_core ..))
                exact putBoot_then hb (by simp)
              · rename_i r _ _ _ _ _ _
                obtain ⟨hr, hm⟩ := State.rebuild_base r.cause bb d b.1
                generalize b.1.rebuild r.cause bb d = v at hr hm
                rw [hbm] at hm
                have hv : v.base.core = Core.putRecovery w.base.core v := by
                  have q1 : v.boot = b.1.boot := congrArg (fun c => c.core.boot) hr
                  have q2 : v.recoveries = (b.1.recoveries + 1) % 2 ^ 32 := congrArg (fun c => c.core.recoveries) hr
                  have q3 : v.replicaEpoch = (b.1.replicaEpoch + 1) % 2 ^ 32 := congrArg (fun c => c.core.replicaEpoch) hr
                  rw [hr, hb, Core.putRecovery, Core.putBoot, q1, q2, q3]
                have hp : ((v.progressEvery).pump pumpFuel).base = v.base := by simp
                refine ⟨putRecovery_then hv (congrArg Base.core hp), ?_⟩
                have : ((v.progressEvery).pump pumpFuel).mem = v.mem := congrArg (fun c => c.core.mem) hp
                rw [this]
                exact hm

end Sys2Proof.Machine
end

