-- ==== Sys2Proof/Laws/Memory.lean ====
section
/-! SUPPORT. The host-directed memory: every operation keeps the canonical form, a read after a write gives what was
written, and a write leaves every other place alone. -/

namespace Sys2Proof.Machine

theorem memFrom_weaken {l k : Nat} (h : k ≤ l) {m : List Host.Cell} (w : memFrom (some l) m = true) : memFrom (some k) m = true := by
  cases m with
  | nil => rfl
  | cons c r =>
    obtain ⟨a, b⟩ := c
    simp only [memFrom, Bool.and_eq_true, decide_eq_true_eq] at w ⊢
    exact ⟨⟨by omega, w.1.2⟩, w.2⟩

theorem memFrom_none {l : Nat} {m : List Host.Cell} (w : memFrom (some l) m = true) : memFrom none m = true := by
  cases m with
  | nil => rfl
  | cons c r =>
    obtain ⟨a, b⟩ := c
    simp only [memFrom, Bool.and_eq_true] at w ⊢
    exact ⟨⟨trivial, w.1.2⟩, w.2⟩

/-- An address at or below the bound of a canonical list is unlisted. -/
theorem memGet_below {l n : Nat} {m : List Host.Cell} (w : memFrom (some l) m = true) (h : n ≤ l) : memGet m n = memDefault := by
  induction m generalizing l with
  | nil => rfl
  | cons c r ih =>
    obtain ⟨a, b⟩ := c
    simp only [memFrom, Bool.and_eq_true, decide_eq_true_eq] at w
    have : a ≠ n := by omega
    simp only [memGet, this, if_false]
    exact ih w.2 (by omega)

theorem memSet_from {l n : Nat} (v : Byte) {m : List Host.Cell} (w : memFrom (some l) m = true) (h : l < n) :
    memFrom (some l) (memSet m n v) = true := by
  induction m generalizing l with
  | nil => unfold memSet; split <;> simp [memFrom, *]
  | cons c r ih =>
    obtain ⟨a, b⟩ := c
    have w' := w
    simp only [memFrom, Bool.and_eq_true, decide_eq_true_eq] at w
    unfold memSet
    (repeat' split) <;> rename_i h1
    · exact w'
    · simp_all [memFrom]
    · exact memFrom_weaken (by omega) w.2
    · simp_all [memFrom]
    · simp only [memFrom, Bool.and_eq_true, decide_eq_true_eq]
      exact ⟨⟨w.1.1, w.1.2⟩, ih w.2 (by omega)⟩

theorem memSet_wf {m : List Host.Cell} (w : Memory.wf m = true) (n : Nat) (v : Byte) : Memory.wf (memSet m n v) = true := by
  unfold Memory.wf at *
  cases m with
  | nil => unfold memSet; split <;> simp [memFrom, *]
  | cons c r =>
    obtain ⟨a, b⟩ := c
    have w' := w
    simp only [memFrom, Bool.and_eq_true] at w
    unfold memSet
    (repeat' split) <;> rename_i h1
    · exact w'
    · simp_all [memFrom]
    · exact memFrom_none w.2
    · simp_all [memFrom]
    · simp only [memFrom, Bool.and_eq_true]
      exact ⟨⟨trivial, w.1.2⟩, memSet_from v w.2 (by omega)⟩

theorem memWrite_wf (bs : Bytes) {m : List Host.Cell} (w : Memory.wf m = true) (n : Nat) : Memory.wf (memWrite m n bs) = true := by
  induction bs generalizing m n with
  | nil => exact w
  | cons b bs ih => exact ih (memSet_wf w n b) _

theorem memSet_other (m : List Host.Cell) (n k : Nat) (v : Byte) (h : k ≠ n) : memGet (memSet m n v) k = memGet m k := by
  have h' : n ≠ k := fun e => h e.symm
  induction m with
  | nil => unfold memSet; split <;> simp [memGet, h']
  | cons c r ih =>
    obtain ⟨a, b⟩ := c
    unfold memSet
    (repeat' split)
    · rfl
    · simp [memGet, h']
    · have h1 : ¬a = k := by omega
      simp [memGet, h1]
    · have h1 : ¬a = k := by omega
      simp [memGet, h1, h']
    · simp [memGet, ih]

theorem memSet_from_same {l n : Nat} (v : Byte) {m : List Host.Cell} (w : memFrom (some l) m = true) : memGet (memSet m n v) n = v := by
  induction m generalizing l with
  | nil => unfold memSet; split <;> simp [memGet, *]
  | cons c r ih =>
    obtain ⟨a, b⟩ := c
    simp only [memFrom, Bool.and_eq_true, decide_eq_true_eq] at w
    unfold memSet
    (repeat' split)
    · rename_i h1 h2
      have : a ≠ n := by omega
      simp only [memGet, this, if_false]
      exact (memGet_below w.2 (by omega)).trans h2.symm
    · simp [memGet]
    · rename_i h1 h2 h3
      exact (memGet_below w.2 (by omega)).trans h3.symm
    · simp [memGet]
    · rename_i h1 h2
      have : a ≠ n := fun e => h2 e.symm
      simp only [memGet, this, if_false]
      exact ih w.2

theorem memSet_same {m : List Host.Cell} (w : Memory.wf m = true) (n : Nat) (v : Byte) : memGet (memSet m n v) n = v := by
  cases m with
  | nil => unfold memSet; split <;> simp [memGet, *]
  | cons c r =>
    obtain ⟨a, b⟩ := c
    unfold Memory.wf at w
    simp only [memFrom, Bool.and_eq_true] at w
    unfold memSet
    (repeat' split)
    · rename_i h1 h2
      have : a ≠ n := by omega
      simp only [memGet, this, if_false]
      exact (memGet_below w.2 (by omega)).trans h2.symm
    · simp [memGet]
    · rename_i h1 h2 h3
      exact (memGet_below w.2 (by omega)).trans h3.symm
    · simp [memGet]
    · rename_i h1 h2
      have : a ≠ n := fun e => h2 e.symm
      simp only [memGet, this, if_false]
      exact memSet_from_same v w.2

theorem memWrite_other (bs : Bytes) (m : List Host.Cell) (n k : Nat) (h : k < n ∨ n + bs.length ≤ k) :
    memGet (memWrite m n bs) k = memGet m k := by
  induction bs generalizing m n with
  | nil => rfl
  | cons b bs ih =>
    simp only [List.length_cons] at h
    rw [memWrite, ih _ _ (by omega), memSet_other _ _ _ _ (by omega)]

theorem memWrite_get (bs : Bytes) {m : List Host.Cell} (w : Memory.wf m = true) (n k : Nat) (h : k < bs.length) :
    memGet (memWrite m n bs) (n + k) = bs.getD k 0 := by
  induction bs generalizing m n k with
  | nil => simp at h
  | cons b bs ih =>
    rw [memWrite]
    cases k with
    | zero => rw [memWrite_other _ _ _ _ (by omega), Nat.add_zero, memSet_same w]; rfl
    | succ k =>
      rw [show n + (k + 1) = n + 1 + k by omega, ih (memSet_wf w n b) _ _ (by simpa using h)]
      simp

@[simp] theorem memRead_length (m : List Host.Cell) (a n : Nat) : (memRead m a n).length = n := by
  induction n generalizing a with
  | zero => rfl
  | succ n ih => simp [memRead, ih]

/-- A wide read gives the bytes one by one. -/
theorem memRead_get (m : List Host.Cell) (a n k : Nat) (h : k < n) : (memRead m a n)[k]? = some (memGet m (a + k)) := by
  induction n generalizing a k with
  | zero => omega
  | succ n ih =>
    cases k with
    | zero => simp [memRead]
    | succ k =>
      rw [memRead, List.getElem?_cons_succ, ih _ _ (by omega), show a + 1 + k = a + (k + 1) by omega]

theorem State.reset_mem_wf : Memory.wf State.reset.mem = true := rfl

end Sys2Proof.Machine
end

