-- ==== Sys2Proof/Laws/Rings.lean ====
section
/-! SUPPORT. What the rings, the Foreman's fetch and a completion change: the instances, the Foreman and what it sends, and
nothing else. -/

namespace Sys2Proof.Safety

open Sys2Proof.Machine

theorem SameButRings.refl (s : State) : SameButRings s s := rfl

theorem SameButRings.trans {s u v : State} (h : SameButRings s u) (k : SameButRings u v) : SameButRings s v := by
  unfold SameButRings at *
  rw [k, h]

theorem same_modInst (i : Inst) (f : InstState → InstState) (s : State) : SameButRings s (s.modInst i f) := rfl

theorem same_foreman (f : Foreman) (s : State) : SameButRings s { s with foreman := f } := rfl

theorem same_active (f : Foreman) (n : Nat) (s : State) : SameButRings s { s with foreman := f, lastActivity := n } := rfl

theorem same_bumpConfig (s : State) : SameButRings s s.bumpConfig := rfl

theorem same_postCompletion (c : ExecCmd) (a : Answer) (s : State) : SameButRings s (s.postCompletion c a) := rfl

theorem same_foldl {α : Type} (f : State → α → State) (l : List α) (s : State) (h : ∀ s a, SameButRings s (f s a)) :
    SameButRings s (l.foldl f s) := by
  induction l generalizing s with
  | nil => exact .refl s
  | cons a l ih => exact (h s a).trans (ih _)

theorem same_issueReads (s : State) : SameButRings s s.issueReads := by
  unfold State.issueReads
  split
  · exact .refl s
  · exact same_foldl _ _ _ fun _ _ => rfl

theorem same_fetch (i : Inst) (s : State) : SameButRings s (s.fetch i) := by
  unfold State.fetch
  extract_lets x b pre c s1 last fm s2 s3
  have h2 : SameButRings s s2 := by
    unfold SameButRings; rfl
  split
  · exact h2.trans (same_foreman _ _)
  · exact h2.trans (same_issueReads _)

theorem same_pump (n : Nat) (s : State) : SameButRings s (s.pump n) := by
  induction n generalizing s with
  | zero => exact .refl s
  | succ n ih =>
    unfold State.pump
    split
    · split
      · exact .refl s
      · exact (same_fetch _ s).trans (ih _)
    · exact .refl s

theorem same_complete (c : ExecCmd) (a : Answer) (s : State) : SameButRings s (s.complete c a) :=
  ((same_postCompletion c a s).trans (same_active _ _ _)).trans (same_pump _ _)

theorem same_endWork (i : Inst) (a : Answer) (s : State) : SameButRings s (s.endWork i a) := by
  unfold State.endWork
  split
  · exact .refl s
  · exact ((same_postCompletion _ a s).trans ((same_modInst i _ _).trans (same_active _ _ _))).trans (same_pump _ _)

/-! The fields that outlive a completion. -/

theorem SameButRings.streams {s u : State} (h : SameButRings s u) : u.streams = s.streams := by rw [h]
theorem SameButRings.items {s u : State} (h : SameButRings s u) : u.items = s.items := by rw [h]
theorem SameButRings.ctxs {s u : State} (h : SameButRings s u) : u.ctxs = s.ctxs := by rw [h]
theorem SameButRings.count {s u : State} (h : SameButRings s u) : u.count = s.count := by rw [h]
theorem SameButRings.mode {s u : State} (h : SameButRings s u) : u.mode = s.mode := by rw [h]
theorem SameButRings.snapshots {s u : State} (h : SameButRings s u) : u.snapshots = s.snapshots := by rw [h]
theorem SameButRings.store {s u : State} (h : SameButRings s u) : u.store = s.store := by rw [h]
theorem SameButRings.lamp {s u : State} (h : SameButRings s u) : u.lamp = s.lamp := by rw [h]

/-- An instance after an update of it, and any other. -/
theorem inst_modInst {s : State} {i : Inst} (h : i.idx < s.insts.length) (f : InstState → InstState) :
    (s.modInst i f).inst i = f (s.inst i) := by
  unfold State.inst State.modInst lmod
  simp [h]

theorem inst_modInst_ne {s : State} {i j : Inst} (h : i.idx ≠ j.idx) (f : InstState → InstState) : (s.modInst i f).inst j = s.inst j := by
  unfold State.inst State.modInst lmod
  simp [h]

/-- The completion of a command is in the slot at WR_PTR, and the Foreman serves the rings again (R316). -/
theorem complete_eq (c : ExecCmd) (a : Answer) (s : State) : s.complete c a =
    ({ s.postCompletion c a with foreman := { s.foreman with exec := none }, lastActivity := s.count }).pump pumpFuel := rfl

end Sys2Proof.Safety
end

