-- ==== Sys2Proof/Laws/Rows.lean ====
section
/-! SUPPORT. What the operations that the rows share answer under the conditions that statements name: one lemma each. -/

namespace Sys2Proof.Safety

open Sys2Proof.Machine

/-- The arrival count moves the device count and nothing else. -/
theorem advance_eq (t : Nat) (s : State) : ∃ n, s.advance t = { s with count := n } ∧ s.count ≤ n ∧ (s.running = false → n = s.count) := by
  unfold State.advance
  split
  · rename_i h
    exact ⟨max s.count (min t lastCount), rfl, Nat.le_max_left .., fun h' => by rw [h] at h'; cases h'⟩
  · exact ⟨s.count, rfl, Nat.le_refl _, fun _ => rfl⟩

theorem live_of_up {s : State} (h : Up s) (t : Nat) (f : State → State) : s.live t f = f (s.advance t) := by
  obtain ⟨h1, h2⟩ := h
  simp [State.live, h1, h2]

theorem live_of_down {s : State} (h : s.porst = true ∨ s.pilotFault = true) (t : Nat) (f : State → State) : s.live t f = s := by
  simp [State.live, h]

theorem run_of_ready {s : State} (h : Ready s) (t : Nat) (f : State → State) : s.run t f = f (s.advance t) := by
  obtain ⟨n, hn, -⟩ := advance_eq t s
  rw [State.run, live_of_up h.1, hn]
  simp [h.2]

theorem run_of_not_normal {s : State} (h : Up s) (hm : s.mode ≠ .normal) (t : Nat) (f : State → State) : s.run t f = s.advance t := by
  obtain ⟨n, hn, -⟩ := advance_eq t s
  rw [State.run, live_of_up h, hn]
  simp [hm]

theorem window_of {s : State} {port : Nat} {ctl : CtlPort} {dom : Nat} (h : Window s port ctl dom) (t : Nat) (f : Inst → State → State) :
    s.window t port ctl f = f ⟨ctl, dom⟩ (windowed s t) := by
  obtain ⟨hu, ha, hd, hg⟩ := h
  obtain ⟨n, hn, -⟩ := advance_eq t s
  rw [State.window, live_of_up hu, windowed, hn]
  have h1 : ({ s with count := n } : State).portActive port = true := ha
  have h2 : ({ s with count := n } : State).active.portDomain port = dom := hd
  have h3 : ({ s with count := n } : State).active.granted dom ctl = true := hg
  simp only [h1, h2, h3]
  rfl

theorem managed_of {s : State} (h : Managed s) (t : Nat) (f : State → State) : s.managed t f = f (windowed s t) := by
  obtain ⟨n, hn, -⟩ := advance_eq t s
  rw [State.managed, live_of_up h.1, windowed, hn]
  simp [h.2]

theorem request_of {s : State} {code : Nat} {m : Bytes} (h : Requested s code m) (t : Nat) (ok : Bytes → Bool) (f : Bytes → State → State)
    (hok : ok (Msg.payload m) = true) :
    s.managed t (·.request code m ok f) = f (Msg.payload m) (windowed s t) := by
  obtain ⟨hm, hb, hr, hc, hs⟩ := h
  rw [managed_of hm]
  obtain ⟨n, hn, -⟩ := advance_eq t s
  have h1 : (windowed s t).mode ≠ .banked := by rw [windowed, hn]; exact hb
  simp [State.request, hr, hc, h1, hs, hok]

theorem command_of {s : State} {op : Nat} {i : Inst} {c : ExecCmd} (h : Executing s op i c) (t : Nat) (f : ExecCmd → State → State) :
    s.live t (fun s => s.command op i f) = f c (s.advance t) := by
  obtain ⟨hu, hc, hi, ho, hr, hm, hp, hd⟩ := h
  rw [live_of_up hu]
  obtain ⟨n, hn, -⟩ := advance_eq t s
  rw [hn, State.command]
  simp [hc, hi, ho, hr, hm, hp, Nat.not_lt.mpr hd]

theorem opcode_of {s : State} {op : Nat} {i : Inst} {c : ExecCmd} (h : Executing s op i c) (t : Nat) (e : ExecCmd → State → Nat)
    (ok : ExecCmd → State → State × Bytes × Option Bytes) (l g : Bool) (he : e c (s.advance t) = 0) :
    s.opcode t op i e ok l g = .next (State.complete c
      ⟨E.ok, if g then (s.advance t).count else 0, (ok c (s.advance t)).2.1, (ok c (s.advance t)).2.2⟩
      (if l then (ok c (s.advance t)).1.bumpConfig else (ok c (s.advance t)).1)) := by
  rw [State.opcode, command_of h]
  simp [done, State.finish, he]

theorem opcode_fails {s : State} {op : Nat} {i : Inst} {c : ExecCmd} (h : Executing s op i c) (t : Nat) (e : ExecCmd → State → Nat)
    (ok : ExecCmd → State → State × Bytes × Option Bytes) (l g : Bool) (he : e c (s.advance t) ≠ 0) :
    s.opcode t op i e ok l g = .next (State.complete c (Answer.fail (e c (s.advance t))) (s.advance t)) := by
  rw [State.opcode, command_of h]
  simp [done, State.finish, he]

/-- The checks of a list all hold. -/
theorem firstFail_zero {l : List (Bool × Nat)} (h : ∀ p ∈ l, p.1 = false ∨ p.2 = 0) : firstFail l = 0 := by
  induction l with
  | nil => rfl
  | cons p l ih =>
    have hp := h p (by simp)
    have hl := ih fun q hq => h q (by simp [hq])
    obtain ⟨c, e⟩ := p
    unfold firstFail
    rcases hp with hp | hp <;> simp at hp <;> simp [hp, hl]

theorem inbound_of {s : State} {port ty : Nat} {p : Bytes} (h : Arrives s port ty p) (hty : ty ≠ 0) (t : Nat) (f : Nat → State → State) :
    s.packet t ty port p f = f (s.portDomain port) (taken s t port p) := by
  obtain ⟨hr, ha, hy, hc, hb⟩ := h
  rw [State.packet, run_of_ready hr]
  obtain ⟨n, hn, -⟩ := advance_eq t s
  rw [taken, windowed, hn]
  have h1 : ({ s with count := n } : State).portActive port = true := ha
  have h2 : ({ s with count := n } : State).portDomain port = s.portDomain port := rfl
  have h3 : ({ s with count := n } : State).creditShort (s.portDomain port) (Hdr.vc p) (p.length / 64) = false := hc
  simp [h1, hy, State.inbound, h2, h3, hb, hty]

theorem itemWork_of {s : State} {n : Nat} {it : Item} (h : Screening s n it) (t : Nat) (f : Item → State → State) :
    s.run t (fun s => s.itemWork n f) = (f it (s.advance t)).progress it.stream := by
  obtain ⟨hr, hi, hl, hs⟩ := h
  rw [run_of_ready hr]
  obtain ⟨k, hk, -⟩ := advance_eq t s
  rw [hk]
  have h1 : ({ s with count := k } : State).item n = some it := hi
  have h2 : ({ s with count := k } : State).suspended it.entry.ctx it.stamp = false := hs
  simp [State.itemWork, h1, h2, hl]

end Sys2Proof.Safety
end

