-- ==== Sys2Proof/Laws/Tables.lean ====
section
/-! SUPPORT. Tables keyed by number: what a read gives after an entry is set, changed or removed. -/

namespace Sys2Proof.Safety

open Sys2Proof.Machine

theorem tget_tset_self {α : Type} (l : Tbl α) (n : Nat) (v : α) : tget (tset l n v) n = some v := by
  induction l with
  | nil => simp [tset, tget]
  | cons p l ih =>
    obtain ⟨k, w⟩ := p
    unfold tset
    split
    · simp [tget]
    · split
      · simp [tget]
      · rename_i h
        simp [tget, Ne.symm h, ih]

theorem tget_tset_ne {α : Type} (l : Tbl α) {m n : Nat} (v : α) (h : m ≠ n) : tget (tset l n v) m = tget l m := by
  induction l with
  | nil => simp [tset, tget, Ne.symm h]
  | cons p l ih =>
    obtain ⟨k, w⟩ := p
    unfold tset
    split
    · simp [tget, Ne.symm h]
    · split
      · rename_i hk
        subst hk
        simp [tget, Ne.symm h]
      · simp [tget, ih]

theorem tget_tmod_self {α : Type} (l : Tbl α) (n : Nat) (f : α → α) : tget (tmod l n f) n = (tget l n).map f := by
  induction l with
  | nil => rfl
  | cons p l ih =>
    obtain ⟨k, w⟩ := p
    unfold tmod at ih ⊢
    by_cases hk : k = n <;> simp [tget, hk, ih]

theorem tget_tmod_ne {α : Type} (l : Tbl α) {m n : Nat} (f : α → α) (h : m ≠ n) : tget (tmod l n f) m = tget l m := by
  induction l with
  | nil => rfl
  | cons p l ih =>
    obtain ⟨k, w⟩ := p
    unfold tmod at ih ⊢
    by_cases hk : k = n
    · subst hk; simp [tget, Ne.symm h, ih]
    · simp [tget, hk, ih]

theorem tget_tdel_ne {α : Type} (l : Tbl α) {m n : Nat} (h : m ≠ n) : tget (tdel l n) m = tget l m := by
  induction l with
  | nil => rfl
  | cons p l ih =>
    obtain ⟨k, w⟩ := p
    unfold tdel
    split
    · rename_i hk; subst hk; simp [tget, Ne.symm h]
    · simp [tget, ih]

theorem tget_map {α : Type} (l : Tbl α) (n : Nat) (f : Nat → α → α) : tget (l.map fun p => (p.1, f p.1 p.2)) n = (tget l n).map (f n) := by
  induction l with
  | nil => rfl
  | cons p l ih =>
    obtain ⟨k, w⟩ := p
    by_cases hk : k = n
    · subst hk; simp [tget]
    · simp [tget, hk, ih]

/-- A change through `f` of an entry that is there. -/
theorem tget_tmod_of {α : Type} {l : Tbl α} {n : Nat} {x : α} (h : tget l n = some x) (f : α → α) : tget (tmod l n f) n = some (f x) := by
  rw [tget_tmod_self, h]; rfl

end Sys2Proof.Safety
end

