-- ==== Sys2Proof/Laws/Shared.lean ====
section
/-! SUPPORT. What the shared operations do, one lemma each: lists, reports, device faults, commands, links, streams. -/

namespace Sys2Proof.Safety

open Sys2Proof Sys2Proof.Machine

/-! ### Lists -/

theorem lmod_of {α : Type} {l : List α} {k : Nat} {x : α} (h : l[k]? = some x) (f : α → α) : lmod l k f = l.set k (f x) := by
  unfold lmod
  apply List.ext_getElem?
  intro j
  rw [List.getElem?_modify, List.getElem?_set]
  by_cases hj : k = j
  · subst hj
    obtain ⟨h1, h2⟩ := List.getElem?_eq_some_iff.1 h
    simp [h1, h2]
  · simp [hj]

theorem getD_of {α : Type} {l : List α} {k : Nat} {x d : α} (h : l[k]? = some x) : l.getD k d = x := by
  rw [List.getD_eq_getElem?_getD, h]; rfl

theorem getD_set_self {α : Type} {l : List α} {k : Nat} {x d : α} (h : k < l.length) : (l.set k x).getD k d = x := by
  rw [List.getD_eq_getElem?_getD, List.getElem?_set_self h]; rfl

theorem lmod_getD {α : Type} {l : List α} {k : Nat} {d : α} (h : k < l.length) (f : α → α) : (lmod l k f).getD k d = f (l.getD k d) := by
  have h1 : l[k]? = some l[k] := List.getElem?_eq_getElem h
  rw [lmod_of h1, getD_set_self h, getD_of h1]

theorem foldl_keep {α β σ : Type} (g : σ → β) (f : σ → α → σ) (h : ∀ v a, g (f v a) = g v) (l : List α) : ∀ s, g (l.foldl f s) = g s := by
  induction l with
  | nil => intro s; rfl
  | cons a l ih => intro s; rw [List.foldl_cons, ih, h]

theorem slice_getD (b : Bytes) (n k : Nat) (h : k < n) : (slice b 0 n).getD k 0 = b.getD k 0 := by
  unfold slice
  simp only [List.getD_eq_getElem?_getD, List.drop_zero]
  by_cases hk : k < b.length
  · rw [List.getElem?_append_left (by simp; omega), List.getElem?_take_of_lt h]
  · rw [List.getElem?_append_right (by simp; omega), List.getElem?_replicate, List.getElem?_eq_none (l := b) (by omega)]
    split <;> rfl

theorem slice_len (b : Bytes) (n : Nat) : (slice b 0 n).length = n := by
  unfold slice; simp

theorem bit_eq (v : Word) (k : Nat) : bit v.toNat k = v.getLsbD k := by
  unfold bit
  rw [BitVec.getLsbD, Nat.testBit_eq_decide_div_mod_eq]
  rcases Nat.mod_two_eq_zero_or_one (v.toNat / 2 ^ k) with h | h <;> simp [h]

/-! ### Time, reports and device faults -/

theorem rep_cases (c : Nat) (d : List Nat) (s : State) :
    ∃ a b e f g, s.report c d = { s with reports := a, reportsDropped := b, reportSeq := e, out := f, mgmt := g } ∧
      (s.reports.length < 256 → a = s.reports ++ [⟨c, s.count, s.reportsDropped, s.reportSeq % 65536, d⟩]) ∧ ∀ r ∈ s.reports, r ∈ a := by
  unfold State.report
  split
  · exact ⟨_, _, _, _, _, rfl, fun h => by omega, fun r h => h⟩
  · dsimp only
    split <;> exact ⟨_, _, _, _, _, rfl, fun _ => rfl, fun r h => by simp [h]⟩

theorem advance_mode (t : Nat) (s : State) : (s.advance t).mode = s.mode := by unfold State.advance; split <;> rfl

theorem faulted_of (cause : Nat) (s v : State) (hm : v.mode ≠ .banked) (hr : v.recovery = none)
    (h : v.streams = s.streams ∧ v.ctxs = s.ctxs ∧ v.store = s.store ∧ v.mem = s.mem ∧ (v.reports.length < 256 → True) ∧ (s.reports.length < 256 → v.reports.length < 256)) :
    Faulted s (v.deviceFault cause) cause := by
  unfold State.deviceFault
  rw [if_neg hm]
  simp only [hr]
  obtain ⟨a, b, e, f, g, he, ha, -⟩ := rep_cases Rep.deviceFault [cause, 0] { v with
    mode := .recovering
    power := .run
    recovery := some ⟨cause, 0⟩
    pins := { v.pins with faultN := true, vid := 0 }
    rows := v.rows.map fun (r : Row) => { r with power := .off, waking := false }
    items := [], chains := [], passes := [], hangs := [], remapping := [], bulk := []
    queuedTx := []
    shaft := v.shaft.map fun (p : ShaftPort) => { p with link := (if p.link = LinkState.heldDown then LinkState.heldDown else LinkState.down), event := true }
    drift := v.drift.map fun (d : DriftPort) => { d with link := (if d.link = LinkState.heldDown then LinkState.heldDown else LinkState.down), unacked := [], waiting := [], credits := [64, 64, 64], rxXfers := [] }
    xfers := [] }
  simp only [show ¬ (3 ≤ 0) by omega, if_false, he]
  refine ⟨rfl, rfl, rfl, rfl, rfl, rfl, rfl, rfl, ?_, ?_, ?_, h.1, h.2.1, h.2.2.1, h.2.2.2.1, ?_⟩
  · intro p hp
    obtain ⟨q, -, rfl⟩ := List.mem_map.1 hp
    dsimp only
    split <;> simp
  · intro p hp
    obtain ⟨q, -, rfl⟩ := List.mem_map.1 hp
    dsimp only
    split <;> simp
  · intro p hp
    obtain ⟨q, -, rfl⟩ := List.mem_map.1 hp
    rfl
  · intro hl
    dsimp only
    rw [ha (h.2.2.2.2.2 hl)]
    exact ⟨_, List.mem_append_right _ (List.mem_singleton.2 rfl), rfl, rfl⟩

theorem windowed_eq (s : State) (t : Nat) : ∃ n p, windowed s t = { s with count := n, power := p, lastActivity := n } ∧ (s.advance t).count = n ∧ s.advance t = { s with count := n } := by
  obtain ⟨n, hn, -⟩ := advance_eq t s
  exact ⟨n, _, by rw [windowed, hn]; rfl, by rw [hn], hn⟩

theorem windowed_inst (s : State) (t : Nat) (i : Inst) : (windowed s t).inst i = s.inst i := by
  obtain ⟨n, p, h, -⟩ := windowed_eq s t; rw [h]; rfl

theorem rep_last {a l : List Report} {r : Report} (P : Report → Prop) (ha : a = l ++ [r]) (hc : P r) : ∃ r ∈ a, P r := ⟨r, by rw [ha]; simp, hc⟩

/-! ### Commands in execution -/

theorem pre_fails {s : State} {op : Nat} {i : Inst} {c : ExecCmd} (hu : Up s) (hc : s.foreman.exec = some c) (hi : c.inst = i)
    (ho : Slot.opcode c.slot = op) (hr : s.foreman.restarting = false) (hm : s.mode ≠ .recovering) (hp : c.pre ≠ 0) (t : Nat) (f : ExecCmd → State → State) :
    done (s.live t fun s => s.command op i f) = .next ((s.advance t).complete c (Answer.fail c.pre)) := by
  refine congrArg Host.Outcome.next ?_
  rw [live_of_up hu]
  obtain ⟨n, hn, -⟩ := advance_eq t s
  rw [hn, State.command]
  simp [hc, hi, ho, hr, hm, hp]

theorem op_ok {s : State} {op : Nat} {i : Inst} {c : ExecCmd} (h : Executing s op i c) {t n : Nat} (hn : s.advance t = { s with count := n }) (e : ExecCmd → State → Nat)
    (ok : ExecCmd → State → State × Bytes × Option Bytes) (l g : Bool) (he : e c { s with count := n } = 0) :
    s.opcode t op i e ok l g = .next (State.complete c
      ⟨E.ok, if g then n else 0, (ok c { s with count := n }).2.1, (ok c { s with count := n }).2.2⟩
      (if l then (ok c { s with count := n }).1.bumpConfig else (ok c { s with count := n }).1)) := by
  have := opcode_of h t e ok l g (by rw [hn]; exact he)
  rwa [hn] at this

theorem op_fail {s : State} {op : Nat} {i : Inst} {c : ExecCmd} (h : Executing s op i c) {t n : Nat} (hn : s.advance t = { s with count := n }) (e : ExecCmd → State → Nat)
    (ok : ExecCmd → State → State × Bytes × Option Bytes) (l g : Bool) (k : Nat) (he : e c { s with count := n } = k) (hk : k ≠ 0) :
    s.opcode t op i e ok l g = .next (State.complete c (Answer.fail k) { s with count := n }) := by
  have := opcode_fails h t e ok l g (by rw [hn, he]; exact hk)
  rwa [hn, he] at this

theorem op_cmd {s : State} {op : Nat} {i : Inst} {c : ExecCmd} (h : Executing s op i c) {t n : Nat} (hn : s.advance t = { s with count := n }) (f : ExecCmd → State → State) :
    done (s.live t fun s => s.command op i f) = .next (f c { s with count := n }) :=
  congrArg Host.Outcome.next (by rw [command_of h, hn])

theorem streamCheck_ok {c : ExecCmd} {s : State} {x : Stream} (n : Nat) (hx : s.stream c.streamId = some x) (h1 : x.e.state ≠ .free)
    (h2 : x.e.domain = c.inst.domain) (h3 : c.arg 0x20 8 = 0 ∨ c.arg 0x20 8 = x.e.admitStamp) : State.streamCheck { s with count := n } c = 0 := by
  unfold State.streamCheck
  rw [show State.stream { s with count := n } c.streamId = some x from hx]
  refine firstFail_zero ?_
  intro p hp
  simp only [List.mem_cons, List.not_mem_nil, or_false] at hp
  rcases hp with rfl | rfl | rfl
  · left; simp [h1]
  · left; simp [h2]
  · left; rcases h3 with h3 | h3 <;> simp [h3]

theorem cmdEntry_of {c : ExecCmd} {s : State} {x : Stream} (n : Nat) (hx : s.stream c.streamId = some x) : State.cmdEntry { s with count := n } c = x.e := by
  unfold State.cmdEntry
  simp only [show State.stream { s with count := n } c.streamId = some x from hx]

/-! ### Rows of Hearths and context changes -/

theorem lockRows_eq (s : State) : s.lockRows = { s with rows := s.lockRows.rows } := by
  unfold State.lockRows; split <;> rfl

theorem wakes_eq (l : List Nat) (s : State) : l.foldl (fun s r => s.wakeRow r) s = { s with rows := (l.foldl (fun s r => s.wakeRow r) s).rows } := by
  induction l generalizing s with
  | nil => rfl
  | cons a l ih =>
    rw [List.foldl_cons, ih]
    rfl

theorem keepRows_eq (s : State) : s.keepRows = { s with rows := s.keepRows.rows } := by
  unfold State.keepRows
  extract_lets s1 idle
  rw [wakes_eq]
  have h1 : s1 = { s with rows := s1.rows } := by
    simp only [s1]
    rw [wakes_eq, lockRows_eq]
  generalize (List.foldl (fun s r => State.wakeRow r s) s1 _).rows = q
  rw [h1]

theorem placeGates_eq (id : Nat) (s : State) : s.placeGates id =
    { s with ctxs := tmod s.ctxs id (fun x => { x with gateEngines := s.chooseGates id ((s.ctx id).resv.hearthShare / 5) }), freshCtr := s.freshCtr + 1, rows := (s.placeGates id).rows } := by
  unfold State.placeGates
  extract_lets e
  rw [keepRows_eq]
  rfl

/-- What releasing pages changes: the pages that wait for zeroing, those retired, and what that reports. -/
def PagesOnly (s u : State) : Prop :=
  u = { s with zeroing := u.zeroing, remap := u.remap, spareUsed := u.spareUsed, poisoned := u.poisoned, degraded := u.degraded,
               reports := u.reports, reportsDropped := u.reportsDropped, reportSeq := u.reportSeq, out := u.out, mgmt := u.mgmt }

theorem PagesOnly.trans {s u v : State} (h : PagesOnly s u) (k : PagesOnly u v) : PagesOnly s v := by
  unfold PagesOnly at *
  rw [k, h]

theorem pagesOnly_degraded (c : Nat) (d : List Nat) (s : State) : PagesOnly s (({ s with degraded := true }).report c d) := by
  obtain ⟨a, b, e, f, g, he, -⟩ := rep_cases c d { s with degraded := true }
  rw [he]; rfl

theorem pagesOnly_retireTo (p : Nat) (q : Option Nat) (s : State) : PagesOnly s (s.retireTo p q) := by
  unfold State.retireTo
  split
  · split
    · rfl
    · exact pagesOnly_degraded _ _ s
  · exact pagesOnly_degraded _ _ s

theorem pagesOnly_retire (p : Nat) (s : State) : PagesOnly s (s.retirePage p) := by
  unfold State.retirePage
  exact pagesOnly_retireTo ..

theorem pagesOnly_fold (ps : List Nat) (s : State) : PagesOnly s (ps.foldl (fun s p => s.retirePage p) s) := by
  induction ps generalizing s with
  | nil => rfl
  | cons p ps ih =>
    rw [List.foldl_cons]
    exact (pagesOnly_retire p s).trans (ih (s.retirePage p))

theorem pagesOnly_release (ps : List Nat) (s : State) : PagesOnly s (s.releasePages ps) := by
  unfold State.releasePages
  exact PagesOnly.trans (u := { s with zeroing := _ }) rfl (pagesOnly_fold _ _)

theorem releaseSeam_eq (b s : State) : s.releaseSeam b = { s with seamZero := (s.releaseSeam b).seamZero } := by
  unfold State.releaseSeam; rfl

/-- A context's return to FREE leaves streams, items and links. -/
theorem tryFree_keeps (c : Nat) (s : State) :
    (s.tryFree c).streams = s.streams ∧ (s.tryFree c).items = s.items ∧ (s.tryFree c).drift = s.drift := by
  unfold State.tryFree
  extract_lets x snaps slots x1 v w
  have hv : v.streams = s.streams ∧ v.items = s.items ∧ v.drift = s.drift := ⟨rfl, rfl, rfl⟩
  have h : PagesOnly v w := pagesOnly_release _ v
  clear_value w v
  unfold PagesOnly at h
  have hw : w.streams = s.streams ∧ w.items = s.items ∧ w.drift = s.drift := by rw [h]; exact hv
  split
  · split
    · exact hw
    · rw [releaseSeam_eq]; exact hw
  · exact ⟨rfl, rfl, rfl⟩

theorem tryQ_ne (c : Nat) (s : State) (h : s.ctxStreams c ≠ []) : s.tryQuarantine c = s := by
  unfold State.tryQuarantine
  rw [if_neg]
  rintro ⟨-, hb⟩
  exact h (by simpa using hb)

theorem tryFree_streams (c : Nat) (s : State) : (s.tryFree c).streams = s.streams := (tryFree_keeps c s).1

theorem tryFree_drift (c : Nat) (s : State) : (s.tryFree c).drift = s.drift := (tryFree_keeps c s).2.2

/-- A transfer's end leaves streams and links. -/
theorem endXfer_keeps (n : Nat) (s : State) : (s.endXfer n).streams = s.streams ∧ (s.endXfer n).drift = s.drift := by
  unfold State.endXfer
  split
  · exact ⟨rfl, rfl⟩
  · extract_lets s1 ps
    have h : PagesOnly s1 (s1.releasePages ps) := pagesOnly_release _ _
    split <;> rw [tryFree_streams, tryFree_drift]
    · unfold PagesOnly at h
      rw [h]
      exact ⟨rfl, rfl⟩
    · exact ⟨rfl, rfl⟩

theorem endXfer_streams (n : Nat) (s : State) : (s.endXfer n).streams = s.streams := (endXfer_keeps n s).1

theorem endXferOf_streams (k : XferKind) (sid : Nat) (s : State) : (s.endXferOf k sid).streams = s.streams := by
  unfold State.endXferOf
  split
  · rw [endXfer_streams]
  · rfl

theorem meet_none {s : State} (h : s.poisoned = []) (h2 : s.seamPoison = []) (sid : Nat) (ks : List Nat) : s.meetPages sid ks = none := by
  unfold State.meetPages
  split
  · rfl
  · dsimp only
    rw [if_pos]
    rw [h, h2]; simp

/-! ### The Shaft transmit stage -/

/-- what a transmit stage changes -/
def TxOnly (s u : State) : Prop := u = { s with queuedTx := u.queuedTx, credits := u.credits, out := u.out, shaft := u.shaft }

theorem txOnly_drain (d f : Nat) (s : State) : TxOnly s (s.drainTx d f) := by
  induction f generalizing s with
  | zero => exact rfl
  | succ f ih =>
    unfold State.drainTx
    split
    · extract_lets cr n port
      split
      · refine (ih _).trans ?_
        rfl
      · exact rfl
    · exact rfl

theorem txOnly_handOff (p : TxPkt) (s : State) : TxOnly s (s.handOff p) := by
  unfold State.handOff
  exact (txOnly_drain _ _ _).trans rfl

theorem drainTx_empty (d f : Nat) (s : State) (h : s.queuedTx = []) : s.drainTx d f = s := by
  cases f with
  | zero => rfl
  | succ f =>
    unfold State.drainTx
    rw [h]
    rfl

theorem creditReturned_of (dom m r : Nat) (s : State) (c : DomCredits) (hc : s.credits.getD dom DomCredits.init = c)
    (hm : c.memBal + m ≤ c.memAdv) (hr : c.relBal + r ≤ c.relAdv) (hq : s.queuedTx = []) (hx : s.foreman.exec = none) :
    ∃ f, s.creditReturned dom m r = { s with credits := lmod s.credits dom f } ∧ (f c).memBal = c.memBal + m ∧ (f c).relBal = c.relBal + r := by
  have n1 : ¬ (c.memAdv < c.memBal + m) := by omega
  have n2 : ¬ (c.relAdv < c.relBal + r) := by omega
  refine ⟨fun c' => { c' with memBal := c'.memBal + m, relBal := c'.relBal + r, relLast := if r = 0 then c'.relLast else s.count, stalled := if r = 0 then c'.stalled else false }, ?_, rfl, rfl⟩
  unfold State.creditReturned
  simp only [hc, n1, n2, decide_false, Bool.false_eq_true, if_false, false_or]
  rw [drainTx_empty]
  · split
    · rfl
    · unfold State.issueReads
      rw [show (State.modCredits _ _ s).foreman.exec = none from hx]
      rfl
  · exact hq

theorem initCredits_of (dom port : Nat) (s : State) (p : ShaftPort) (hp : s.shaft[port]? = some p)
    (hc : (s.credits.getD dom DomCredits.init).initRx = true) :
    ∃ sh cr ou, s.initCredits dom port = { s with shaft := sh, credits := cr, out := ou } ∧ (∃ b, sh[port]? = some { p with lastBusy := b }) ∧
      (cr.getD dom DomCredits.init).initRx = true := by
  have hd : dom < s.credits.length := by
    by_contra hn
    rw [List.getD_eq_default _ _ (by omega)] at hc
    cases hc
  unfold State.initCredits
  dsimp only
  by_cases h1 : (!(s.credits.getD dom DomCredits.init).initSent) = true
  · rw [if_pos h1]
    refine ⟨_, _, _, rfl, ⟨s.count, ?_⟩, ?_⟩
    · show (lmod s.shaft port _)[port]? = _
      rw [lmod_of hp, List.getElem?_set_self (List.getElem?_eq_some_iff.1 hp).1]; rfl
    · show ((lmod s.credits dom _).getD dom _).initRx = true
      rw [lmod_getD hd]; exact hc
  · rw [if_neg h1]
    by_cases h2 : (!s.domainUp dom) = true
    · rw [if_pos h2]
      refine ⟨_, _, _, rfl, ⟨p.lastBusy, hp⟩, ?_⟩
      show ((lmod s.credits dom _).getD dom _).initRx = true
      rw [lmod_getD hd]; exact hc
    · rw [if_neg h2]
      exact ⟨_, _, _, rfl, ⟨p.lastBusy, hp⟩, hc⟩

theorem handOff_items (p : TxPkt) (s : State) : (s.handOff p).items = s.items := by
  rw [txOnly_handOff]

theorem tx_of {s : State} {port dom : Nat} {p : Bytes} (h : Up s) (ha : s.portActive port = true) (hd : s.portDomain port = dom)
    (hc : s.creditShort dom 4 (1 + (p.length - 64 + 63) / 64) = false) (t : Nat) (f : Nat → State → State) :
    ∃ sh cr, s.transaction t port p f = f dom { windowed s t with shaft := sh, credits := cr } ∧ sh.length = s.shaft.length ∧
      (windowed s t).modShaft port (fun p => { p with lastBusy := (s.advance t).count }) = { windowed s t with shaft := sh } := by
  obtain ⟨n, p1, hw, hc2, hn⟩ := windowed_eq s t
  refine ⟨lmod s.shaft port fun p => { p with lastBusy := n }, lmod s.credits dom (DomCredits.use 4 (1 + (p.length - 64 + 63) / 64) n), ?_, by simp [lmod], ?_⟩
  · rw [State.transaction, live_of_up h, hn]
    rw [if_pos (by exact ha)]
    rw [show State.portDomain { s with count := n } port = dom from hd]
    have hc' : State.creditShort { s with count := n } dom 4 (1 + (p.length - 64 + 63) / 64) = false := hc
    dsimp only
    rw [if_neg (by rw [hc']; decide)]
    rw [windowed, hn]
    rfl
  · rw [hw, hc2]; rfl

/-! ### Drift ports -/

theorem port_of {s : State} {q : Nat} {d : DriftPort} (h : s.drift[q]? = some d) : s.driftPort q = d := getD_of h

theorem driftAck_empty (q a : Nat) (s : State) (h : (s.driftPort q).unacked = []) : s.driftAck q a = s := by
  unfold State.driftAck
  dsimp only
  rw [h]; rfl

def taken' (d : DriftPort) (cls : Nat) (h : DriftHdr) : DriftPort :=
  { d with rxSeq := (d.rxSeq + 1) % 2 ^ 32, toReturn := d.toReturn.modify (cls - 1) (· + 1), lastEpoch := h.epoch,
           rxXfers := d.rxXfers.filter fun x => decide (h.epoch ≤ x.epoch) }

theorem driftIn_of {s : State} {q : Nat} {d : DriftPort} {h : DriftHdr} (hr : Ready s) (hq : q < 3) (hd : s.drift[q]? = some d)
    (hl : d.link = .active) (hu : d.unacked = []) (hs : h.seq = d.rxSeq) (he : d.lastEpoch ≤ h.epoch) (t cls : Nat) (f : State → State) :
    s.driftIn t q cls h f = f { windowed s t with drift := s.drift.set q (taken' d cls h) } := by
  obtain ⟨n, hn, -⟩ := advance_eq t s
  have hql := (List.getElem?_eq_some_iff.1 hd).1
  have e1 : State.driftPort { s with count := n } q = d := port_of hd
  have e2 : State.driftPort (State.active { s with count := n }) q = d := port_of hd
  unfold State.driftIn
  rw [run_of_ready hr, windowed, hn]
  dsimp only
  rw [e1, if_neg (by simp [hl]; omega), driftAck_empty _ _ _ (by rw [e2]; exact hu), if_neg (by simp [hs]), if_neg (by omega)]
  unfold State.modDrift State.active
  dsimp only
  rw [lmod_of hd, lmod_of (List.getElem?_set_self hql), List.set_set]
  rfl

theorem nextMsg_none (d : DriftPort) (now : Nat) (h : d.waiting = []) : d.nextMsg now = none := by
  unfold DriftPort.nextMsg; rw [h]; rfl

theorem driftFlush_empty (q : Nat) (s : State) (h : (s.driftPort q).waiting = []) : s.driftFlush q = s := by
  unfold State.driftFlush
  generalize (s.drift.getD q DriftPort.init).waiting.length + 1 = f
  cases f with
  | zero => rfl
  | succ f =>
    unfold State.driftDrain
    dsimp only
    split
    · rfl
    · rw [nextMsg_none]
      exact h

theorem endXfer_drift (k : Nat) (s : State) : (s.endXfer k).drift = s.drift := (endXfer_keeps k s).2

theorem endDrift_drift (ms : List DriftMsg) (s : State) : (s.endDrift ms).drift = s.drift := by
  unfold State.endDrift
  induction ms generalizing s with
  | nil => rfl
  | cons a l ih =>
    rw [List.foldl_cons, ih]
    split
    · exact endXfer_drift _ _
    · rfl

theorem report_drift (c : Nat) (l : List Nat) (s : State) : (s.report c l).drift = s.drift := by
  obtain ⟨a, b, e, f, g, he, -⟩ := rep_cases c l s
  rw [he]

/-- What the fingerprint store's own work changes: the store, and what a lost page reports. -/
def StoreOnly (s u : State) : Prop :=
  u = { s with store := u.store, insts := u.insts, poisoned := u.poisoned, freshCtr := u.freshCtr, power := u.power,
               lastActivity := u.lastActivity, reports := u.reports, reportsDropped := u.reportsDropped, reportSeq := u.reportSeq,
               out := u.out, mgmt := u.mgmt }

theorem StoreOnly.trans {s u v : State} (h : StoreOnly s u) (k : StoreOnly u v) : StoreOnly s v := by
  unfold StoreOnly at *
  rw [k, h]

theorem storeOnly_losePage (p : Nat) (s : State) : StoreOnly s (s.losePage p) := by
  unfold State.losePage
  split
  · rfl
  · extract_lets v
    generalize hw : State.eventAll _ _ _ _ = w
    have h : StoreOnly s w := hw ▸ rfl
    refine h.trans ?_
    obtain ⟨a, b, e, f, g, he, -⟩ := rep_cases Rep.fpLoss [1024 * p, min 1024 (s.store.nb - 1024 * p)] w
    rw [he]; rfl

theorem storeOnly_meet (ps : List Nat) (s : State) : StoreOnly s (s.meetStore ps) := by
  unfold State.meetStore
  induction ps generalizing s with
  | nil => rfl
  | cons p ps ih =>
    refine StoreOnly.trans ?_ (ih _)
    dsimp only
    split
    · exact storeOnly_losePage _ _
    · rfl

theorem storeOnly_record (k : Nat) (r : Bytes) (s : State) : StoreOnly s (s.storeRecord k r).1 := by
  unfold State.storeRecord
  extract_lets v kept st x st1
  have h : StoreOnly s v := storeOnly_meet _ s
  refine h.trans (StoreOnly.trans ?_ (storeOnly_meet _ _))
  rfl

theorem storeOnly_records (rs : List Bytes) (s : State) : StoreOnly s (s.storeRecords rs).1 := by
  unfold State.storeRecords
  have h : ∀ (l : List Bytes) (a : State × List FpOutcome), StoreOnly a.1
      (l.foldl (fun (a : State × List FpOutcome) r => let x := a.1.storeRecord (s.freshCtr + a.2.length) r; (x.1, a.2 ++ [x.2])) a).1 := by
    intro l
    induction l with
    | nil => intro a; rfl
    | cons r l ih => intro a; exact (storeOnly_record _ _ _).trans (ih _)
  extract_lets r
  have h1 : StoreOnly s r.1 := h rs (s, [])
  exact h1.trans rfl

theorem storeOnly_settle (k : Bool) (s : State) : StoreOnly s (s.storeSettle k) := by
  unfold State.storeSettle
  extract_lets v
  have h1 : StoreOnly s v := storeOnly_meet _ _
  exact h1.trans rfl

theorem StoreOnly.drift {s u : State} (h : StoreOnly s u) : u.drift = s.drift := by
  unfold StoreOnly at h
  rw [h]

theorem startForwarded_drift (s : State) : s.startForwarded.drift = s.drift := by
  unfold State.startForwarded
  split
  · split
    · extract_lets st v
      have h : v.drift = s.drift := (storeOnly_records _ _).drift
      split <;> exact h
    · rfl
  · rfl

theorem dropForwarded_drift (f : Forwarded) (s : State) : (s.dropForwarded f).drift = s.drift := by
  unfold State.dropForwarded
  extract_lets a v
  have h : v.drift = s.drift := by
    simp only [v]
    split
    · exact (storeOnly_settle _ _).drift
    · rfl
  rw [startForwarded_drift]
  exact h

theorem cutForwarded_drift (dev : Nat) (s : State) : (s.cutForwarded dev).drift = s.drift := by
  unfold State.cutForwarded
  generalize s.store.forwarded.filter _ = l
  induction l generalizing s with
  | nil => rfl
  | cons a l ih =>
    rw [List.foldl_cons, ih]
    unfold State.failForwarded
    rw [report_drift, dropForwarded_drift]

theorem endWork_drift (i : Inst) (a : Answer) (s : State) : (s.endWork i a).drift = s.drift := by
  have h := same_endWork i a s
  rw [h]

theorem driftCut_drift (q : Nat) (s : State) :
    (s.driftCut q).drift = lmod s.drift q fun d => { d with unacked := [], waiting := [], credits := [64, 64, 64], rxXfers := [] } := by
  have fold : ∀ (l : List Nat) (p : Nat) (v : State), (l.foldl (fun (s : State) k =>
      match (s.inst (rrInst k)).working with
      | some ⟨_, .migrate p' _ _, _⟩ => if p' = p then s.endWork (rrInst k) (Answer.fail E.transfer) else s
      | _ => s) v).drift = v.drift := by
    intro l p
    induction l with
    | nil => intro v; rfl
    | cons a l ih =>
      intro v
      rw [List.foldl_cons, ih]
      split
      · split
        · exact endWork_drift _ _ _
        · rfl
      · rfl
  unfold State.driftCut
  dsimp only
  refine (fold _ _ _).trans ?_
  rw [cutForwarded_drift, endDrift_drift]
  split <;> rfl

theorem report_pins (c : Nat) (l : List Nat) (s : State) : (s.report c l).pins = s.pins := by
  obtain ⟨a, b, e, f, g, he, -⟩ := rep_cases c l s
  rw [he]

theorem driftCut_pins (q : Nat) (s : State) : (s.driftCut q).pins = s.pins := by
  have h := State.driftCut_base q s
  generalize s.driftCut q = v at h ⊢
  exact congrArg Base.pins h

theorem find_none_filter (d : DriftPort) (e cls xfer : Nat) (h : ∀ x ∈ d.rxXfers, ¬(x.cls = cls ∧ x.xfer = xfer)) :
    ((d.rxXfers.filter fun x => decide (e ≤ x.epoch)).find? fun x => x.cls == cls && x.xfer == xfer) = none := by
  rw [List.find?_eq_none]
  intro x hx
  have := h x (List.mem_filter.1 hx).1
  simpa using this

theorem addData_new {s : State} {q cls xfer epoch stream off len : Nat} {d : DriftPort} (hd : s.drift[q]? = some d)
    (hn : (d.rxXfers.find? fun x => x.cls == cls && x.xfer == xfer) = none) :
    s.addData q cls xfer epoch stream off len = { s with drift := s.drift.set q { d with rxXfers := d.rxXfers ++ [⟨cls, xfer, epoch, stream, if off = 0 then len else 0⟩] } } := by
  unfold State.addData State.modDrift
  rw [lmod_of hd, hn]

theorem takeXfer_of {s : State} {q cls xfer len : Nat} {d : DriftPort} {x : RxXfer} (hd : s.drift[q]? = some d) (hx : d.rxXfers = [x])
    (hc : x.cls = cls) (hf : x.xfer = xfer) :
    s.takeXfer q cls xfer len = ({ s with drift := s.drift.set q { d with rxXfers := [] } }, x.bytes == len) := by
  unfold State.takeXfer State.modDrift
  rw [lmod_of hd, port_of hd, hx]
  simp [hc, hf]

/-! ### Management requests and signatures -/

theorem req_of {s : State} {code : Nat} {m : Bytes} (h : Requested s code m) (t : Nat) (ok : Bytes → Bool) (f : Bytes → State → State)
    (hok : ok (Msg.payload m) = true) : done (s.managed t (·.request code m ok f)) = .next (f (Msg.payload m) (windowed s t)) :=
  congrArg Host.Outcome.next (request_of h t ok f hok)

theorem spdm_of {s : State} (h : Managed s) (t v : Nat) (hv : v = 0x11 ∨ v = 0x12) (r : State → Bool) (f : State → State) (hr : r (windowed s t) = true) :
    s.spdm t v r f = f (windowed s t) := by
  unfold State.spdm
  rw [managed_of h, if_neg (by omega), if_neg (by rw [hr]; decide)]

theorem sigOk_eq {s v : State} (h2 : v.fuses = s.fuses) (h3 : v.roots = s.roots) (d : Option Nat) (b : Bytes) : v.sigOk d b = s.sigOk d b := by
  unfold State.sigOk State.rootKey
  rw [h2, h3]

theorem bundleSigOk_eq {s v : State} (h2 : v.fuses = s.fuses) (h3 : v.roots = s.roots) (b : Bytes) : v.bundleSigOk b = s.bundleSigOk b := by
  unfold State.bundleSigOk
  simp only [sigOk_eq h2 h3]

theorem bundleComboOk_eq {s v : State} (h2 : v.fuses = s.fuses) (b : Bytes) : v.bundleComboOk b = s.bundleComboOk b := by
  unfold State.bundleComboOk
  rw [h2]

/-! ### Fingerprint store and Tallies -/

def meta' (st : Store) := (st.forwarded, st.epoch, st.fromPeer, st.peers, st.effect)

theorem place_meta (c f b : Nat) (x : FpSlot) (st st' : Store) (h : Store.place c f b x st = .ok st') : meta' st' = meta' st := by
  induction f generalizing b x st with
  | zero =>
    unfold Store.place at h
    split at h
    · cases h
    · dsimp only at h
      split at h
      · cases h; rfl
      · cases h
  | succ f ih =>
    unfold Store.place at h
    split at h
    · cases h
    · dsimp only at h
      split at h
      · cases h; rfl
      · split at h
        · cases h
        · rw [ih _ _ _ h]; rfl

theorem insert_meta (c set f : Nat) (st : Store) : meta' (st.insert c set f).1 = meta' st := by
  unfold Store.insert
  extract_lets tag b1 b2 empty second start
  split
  · rfl
  · split
    · rfl
    · split
      · rename_i h; exact place_meta _ _ _ _ _ _ h
      · rfl

theorem delete_meta (set f : Nat) (st : Store) : meta' (st.delete set f).1 = meta' st := by
  unfold Store.delete
  dsimp only
  split
  · rfl
  · split <;> rfl

theorem record_meta (c : Nat) (r : Bytes) (st : Store) : meta' (st.record c r).1 = meta' st := by
  unfold Store.record
  dsimp only
  split
  · rw [delete_meta]; rfl
  · rw [insert_meta]; rfl

theorem losePage_meta (p : Nat) (s : State) : meta' (s.losePage p).store = meta' s.store := by
  unfold State.losePage
  split
  · rfl
  · extract_lets v
    generalize hw : State.eventAll _ _ _ _ = w
    have h : meta' w.store = meta' s.store := hw ▸ rfl
    obtain ⟨a, b, e, f, g, he, -⟩ := rep_cases Rep.fpLoss [1024 * p, min 1024 (s.store.nb - 1024 * p)] w
    rw [he]; exact h

theorem meetStore_meta (ps : List Nat) (s : State) : meta' (s.meetStore ps).store = meta' s.store := by
  unfold State.meetStore
  induction ps generalizing s with
  | nil => rfl
  | cons p ps ih =>
    rw [List.foldl_cons, ih]
    split
    · exact losePage_meta _ _
    · rfl

theorem storeRecord_meta (c : Nat) (r : Bytes) (s : State) : meta' (s.storeRecord c r).1.store = meta' s.store := by
  unfold State.storeRecord
  extract_lets v kept st x st1
  have h : meta' v.store = meta' s.store := meetStore_meta _ _
  rw [meetStore_meta]
  exact (record_meta c r { v.store with lost := kept ++ v.poisoned }).trans h

theorem storeRecords_meta (rs : List Bytes) (s : State) : meta' (s.storeRecords rs).1.store = meta' s.store := by
  unfold State.storeRecords
  have h : ∀ (l : List Bytes) (a : State × List FpOutcome), meta' (l.foldl (fun (a : State × List FpOutcome) r =>
      let x := a.1.storeRecord (s.freshCtr + a.2.length) r; (x.1, a.2 ++ [x.2])) a).1.store = meta' a.1.store := by
    intro l
    induction l with
    | nil => intro a; rfl
    | cons r l ih => intro a; rw [List.foldl_cons, ih]; exact storeRecord_meta _ _ _
  exact h rs (s, [])

theorem settle_forwarded (k : Bool) (st : Store) : (st.settle k).forwarded = st.forwarded := by
  unfold Store.settle
  dsimp only
  generalize st.touched = l
  induction l generalizing st with
  | nil => rfl
  | cons a l ih => rw [List.foldl_cons, ih]; rfl

theorem fold_setTally (k : Nat) (x : Tally) (l : List Nat) (s : State) :
    (l.foldl (fun (s : State) j => s.setTally (k + j) x) s) = { s with tallies := l.foldl (fun q j => tset q (k + j) x) s.tallies } := by
  induction l generalizing s with
  | nil => rfl
  | cons a l ih => rw [List.foldl_cons, ih]; rfl

theorem tget_fold (k : Nat) (x : Tally) (n : Nat) (q : Tbl Tally) (j : Nat) :
    tget ((List.range n).foldl (fun q j => tset q (k + j) x) q) j = if k ≤ j ∧ j < k + n then some x else tget q j := by
  induction n with
  | zero => rw [if_neg (by omega)]; rfl
  | succ n ih =>
    rw [List.range_succ, List.foldl_append, List.foldl_cons, List.foldl_nil]
    by_cases hj : j = k + n
    · subst hj
      rw [tget_tset_self, if_pos (by omega)]
    · rw [tget_tset_ne _ _ hj, ih]
      by_cases h : k ≤ j ∧ j < k + n
      · rw [if_pos h, if_pos (by omega)]
      · rw [if_neg h, if_neg (by omega)]

/-! ### Streams and items -/

theorem progress_none {s : State} {sid : Nat} (h : s.stream sid = none) : s.progress sid = s := by
  unfold State.progress
  have h1 : ∀ f, s.progressLoop sid f = s := by
    intro f
    cases f with
    | zero => rfl
    | succ f =>
      unfold State.progressLoop State.progressStep
      rw [h]
  rw [h1]
  unfold State.drainProgress
  rw [h]
  split <;> rfl

theorem taken_streams (s : State) (t port : Nat) (p : Bytes) : (taken s t port p).streams = s.streams ∧ (taken s t port p).items = s.items ∧ (taken s t port p).nextItem = s.nextItem := by
  unfold taken
  extract_lets s1
  obtain ⟨n, p1, hw, -⟩ := windowed_eq s t
  have h1 : s1.streams = s.streams ∧ s1.items = s.items ∧ s1.nextItem = s.nextItem := by
    simp only [s1, hw]; exact ⟨rfl, rfl, rfl⟩
  show (if _ then _ else _ : State).streams = _ ∧ (if _ then _ else _ : State).items = _ ∧ (if _ then _ else _ : State).nextItem = _
  split
  · exact h1
  · exact h1

theorem endRun_noop {s : State} {sid due reason : Nat} {x : Stream} (car : Option Nat) (hx : s.stream sid = some x) (hp : x.e.phase ≠ .generating) :
    ∃ l, s.endRun sid due reason car = { s with streams := l } ∧ tget l sid = some x := by
  refine ⟨_, rfl, ?_⟩
  rw [tget_tmod_of hx]
  rw [if_neg (fun h => hp h.2)]

theorem stream_mod {s : State} {sid : Nat} {x : Stream} (hx : s.stream sid = some x) (f : Stream → Stream) :
    (s.modStream sid f).stream sid = some (f x) := by
  show tget (tmod s.streams sid f) sid = _
  exact tget_tmod_of hx _

theorem stream_modE {s : State} {sid : Nat} {x : Stream} (hx : s.stream sid = some x) (f : Entry → Entry) :
    (s.modEntry sid f).stream sid = some { x with e := f x.e } := stream_mod hx _

theorem addItem_eq {s v : State} (it : Item) (h2 : v.items = s.items) (h3 : v.nextItem = s.nextItem) :
    v.addItem it = { v with items := tset s.items s.nextItem it, nextItem := s.nextItem + 1 } := by
  unfold State.addItem; rw [h2, h3]

theorem rep_replicas (c : Nat) (d : List Nat) (s : State) : (s.report c d).replicas = s.replicas := by
  obtain ⟨a, b, e, f, g, he, -⟩ := rep_cases c d s
  rw [he]

theorem retireSet_keeps (sid : Nat) (s : State) : (s.retireSet sid).replicas = s.replicas := by
  unfold State.retireSet
  extract_lets s1
  have h2 : s1.replicas = s.replicas := by
    have h := pagesOnly_fold ((s.pageSet sid).filter s.poisoned.contains) s
    unfold PagesOnly at h
    exact (congrArg State.replicas h).trans rfl
  clear_value s1
  split
  · exact h2
  · exact h2

theorem retry_replicas (s : State) : s.retryRetire.replicas = s.replicas := by
  unfold State.retryRetire
  extract_lets s1
  have : ∀ (l : List Nat) (v : State), (l.foldl (fun s sid => s.retireSet sid) v).replicas = v.replicas := by
    intro l
    induction l with
    | nil => intro v; rfl
    | cons a l ih => intro v; rw [List.foldl_cons, ih, retireSet_keeps a v]
  exact this _ _

theorem isChunk_of {it : Item} {b : ChunkBody} (h : it.body = .chunk b) : it.isChunk = true := by unfold Item.isChunk; rw [h]

theorem isChunk_not {it : Item} {b : CandBody} (h : it.body = .cand b) : it.isChunk = false := by unfold Item.isChunk; rw [h]

theorem drop_refused {s v : State} {n e : Nat} {it : Item} (hv : v.items = s.items) (hi : s.item n = some it) (h1 : it.refused = some e) (h2 : it.owned = false) :
    v.dropItem n = { v with items := tdel s.items n } := by
  unfold State.dropItem
  rw [show v.item n = some it from (congrArg (fun l => tget l n) hv).trans hi]
  dsimp only
  rw [if_neg (by rw [h1]; simp), hv]
  unfold State.touch
  rw [h2]
  rfl

theorem item_mod {s : State} {n : Nat} {x : Item} (hx : s.item n = some x) (f : Item → Item) : (s.modItem n f).item n = some (f x) := by
  show tget (tmod s.items n f) n = _
  exact tget_tmod_of hx _

theorem ctxCount_items (c k : Nat) (s : State) : (s.ctxCount c k).items = s.items := rfl

theorem calc_items {α : Type} (c : Nat) (m : Calc α) (s : State) : (s.calc c m).2.items = s.items := rfl

theorem fold_count_items (c : Nat) (l : List (Nat × Option Nat)) (s : State) :
    (l.foldl (fun (s : State) q => match q.2 with | some m => s.ctxCount c (Cnt.maskInvalid + m) | none => s) s).items = s.items := by
  induction l generalizing s with
  | nil => rfl
  | cons a l ih =>
    rw [List.foldl_cons, ih]
    split <;> rfl

end Sys2Proof.Safety
end

