-- ==== Sys2Proof/Laws/State.lean ====
section
/-! SUPPORT. What each field of State is after each named update. -/

namespace Sys2Proof.Machine

variable (s : State)

@[simp] theorem State.fresh_pending : s.fresh.pending = s.pending := rfl
@[simp] theorem State.fresh_freshCtr : s.fresh.freshCtr = s.freshCtr + 1 := rfl
@[simp] theorem State.fresh_nextItem : s.fresh.nextItem = s.nextItem := rfl
@[simp] theorem State.fresh_nextXfer : s.fresh.nextXfer = s.nextXfer := rfl
@[simp] theorem State.fresh_out : s.fresh.out = s.out := rfl
@[simp] theorem State.fresh_count : s.fresh.count = s.count := rfl
@[simp] theorem State.fresh_running : s.fresh.running = s.running := rfl
@[simp] theorem State.fresh_porst : s.fresh.porst = s.porst := rfl
@[simp] theorem State.fresh_pilotFault : s.fresh.pilotFault = s.pilotFault := rfl
@[simp] theorem State.fresh_mode : s.fresh.mode = s.mode := rfl
@[simp] theorem State.fresh_power : s.fresh.power = s.power := rfl
@[simp] theorem State.fresh_lastActivity : s.fresh.lastActivity = s.lastActivity := rfl
@[simp] theorem State.fresh_lamp : s.fresh.lamp = s.lamp := rfl
@[simp] theorem State.fresh_domains : s.fresh.domains = s.domains := rfl
@[simp] theorem State.fresh_routing : s.fresh.routing = s.routing := rfl
@[simp] theorem State.fresh_roots : s.fresh.roots = s.roots := rfl
@[simp] theorem State.fresh_remap : s.fresh.remap = s.remap := rfl
@[simp] theorem State.fresh_layoutRec : s.fresh.layoutRec = s.layoutRec := rfl
@[simp] theorem State.fresh_layout : s.fresh.layout = s.layout := rfl
@[simp] theorem State.fresh_norms : s.fresh.norms = s.norms := rfl
@[simp] theorem State.fresh_threshold : s.fresh.threshold = s.threshold := rfl
@[simp] theorem State.fresh_replicaEpoch : s.fresh.replicaEpoch = s.replicaEpoch := rfl
@[simp] theorem State.fresh_storeEpoch : s.fresh.storeEpoch = s.storeEpoch := rfl
@[simp] theorem State.fresh_reports : s.fresh.reports = s.reports := rfl
@[simp] theorem State.fresh_reportsDropped : s.fresh.reportsDropped = s.reportsDropped := rfl
@[simp] theorem State.fresh_reportSeq : s.fresh.reportSeq = s.reportSeq := rfl
@[simp] theorem State.fresh_tallies : s.fresh.tallies = s.tallies := rfl
@[simp] theorem State.fresh_domCounters : s.fresh.domCounters = s.domCounters := rfl
@[simp] theorem State.fresh_devCounters : s.fresh.devCounters = s.devCounters := rfl
@[simp] theorem State.fresh_recoveries : s.fresh.recoveries = s.recoveries := rfl
@[simp] theorem State.fresh_fuses : s.fresh.fuses = s.fuses := rfl
@[simp] theorem State.fresh_boot : s.fresh.boot = s.boot := rfl
@[simp] theorem State.fresh_recovery : s.fresh.recovery = s.recovery := rfl
@[simp] theorem State.fresh_pins : s.fresh.pins = s.pins := rfl
@[simp] theorem State.fresh_rows : s.fresh.rows = s.rows := rfl
@[simp] theorem State.fresh_insts : s.fresh.insts = s.insts := rfl
@[simp] theorem State.fresh_foreman : s.fresh.foreman = s.foreman := rfl
@[simp] theorem State.fresh_bulk : s.fresh.bulk = s.bulk := rfl
@[simp] theorem State.fresh_ctxs : s.fresh.ctxs = s.ctxs := rfl
@[simp] theorem State.fresh_adapters : s.fresh.adapters = s.adapters := rfl
@[simp] theorem State.fresh_vocabs : s.fresh.vocabs = s.vocabs := rfl
@[simp] theorem State.fresh_snapshots : s.fresh.snapshots = s.snapshots := rfl
@[simp] theorem State.fresh_snapClock : s.fresh.snapClock = s.snapClock := rfl
@[simp] theorem State.fresh_streams : s.fresh.streams = s.streams := rfl
@[simp] theorem State.fresh_items : s.fresh.items = s.items := rfl
@[simp] theorem State.fresh_store : s.fresh.store = s.store := rfl
@[simp] theorem State.fresh_failed : s.fresh.failed = s.failed := rfl
@[simp] theorem State.fresh_remapping : s.fresh.remapping = s.remapping := rfl
@[simp] theorem State.fresh_chains : s.fresh.chains = s.chains := rfl
@[simp] theorem State.fresh_passes : s.fresh.passes = s.passes := rfl
@[simp] theorem State.fresh_shaft : s.fresh.shaft = s.shaft := rfl
@[simp] theorem State.fresh_credits : s.fresh.credits = s.credits := rfl
@[simp] theorem State.fresh_queuedTx : s.fresh.queuedTx = s.queuedTx := rfl
@[simp] theorem State.fresh_mem : s.fresh.mem = s.mem := rfl
@[simp] theorem State.fresh_drift : s.fresh.drift = s.drift := rfl
@[simp] theorem State.fresh_replicas : s.fresh.replicas = s.replicas := rfl
@[simp] theorem State.fresh_dead : s.fresh.dead = s.dead := rfl
@[simp] theorem State.fresh_xfers : s.fresh.xfers = s.xfers := rfl
@[simp] theorem State.fresh_poisoned : s.fresh.poisoned = s.poisoned := rfl
@[simp] theorem State.fresh_spareUsed : s.fresh.spareUsed = s.spareUsed := rfl
@[simp] theorem State.fresh_zeroing : s.fresh.zeroing = s.zeroing := rfl
@[simp] theorem State.fresh_seamZero : s.fresh.seamZero = s.seamZero := rfl
@[simp] theorem State.fresh_seamPoison : s.fresh.seamPoison = s.seamPoison := rfl
@[simp] theorem State.fresh_quietAt : s.fresh.quietAt = s.quietAt := rfl
@[simp] theorem State.fresh_flueHomes : s.fresh.flueHomes = s.flueHomes := rfl
@[simp] theorem State.fresh_outOfUse : s.fresh.outOfUse = s.outOfUse := rfl
@[simp] theorem State.fresh_ledgerFault : s.fresh.ledgerFault = s.ledgerFault := rfl
@[simp] theorem State.fresh_degraded : s.fresh.degraded = s.degraded := rfl
@[simp] theorem State.fresh_hangs : s.fresh.hangs = s.hangs := rfl
@[simp] theorem State.fresh_nextHang : s.fresh.nextHang = s.nextHang := rfl
@[simp] theorem State.fresh_ashpit : s.fresh.ashpit = s.ashpit := rfl
@[simp] theorem State.fresh_ashpitNext : s.fresh.ashpitNext = s.ashpitNext := rfl
@[simp] theorem State.fresh_ashpitHead : s.fresh.ashpitHead = s.ashpitHead := rfl
@[simp] theorem State.fresh_mgmt : s.fresh.mgmt = s.mgmt := rfl

@[simp] theorem State.active_pending : s.active.pending = s.pending := rfl
@[simp] theorem State.active_freshCtr : s.active.freshCtr = s.freshCtr := rfl
@[simp] theorem State.active_nextItem : s.active.nextItem = s.nextItem := rfl
@[simp] theorem State.active_nextXfer : s.active.nextXfer = s.nextXfer := rfl
@[simp] theorem State.active_out : s.active.out = s.out := rfl
@[simp] theorem State.active_count : s.active.count = s.count := rfl
@[simp] theorem State.active_running : s.active.running = s.running := rfl
@[simp] theorem State.active_porst : s.active.porst = s.porst := rfl
@[simp] theorem State.active_pilotFault : s.active.pilotFault = s.pilotFault := rfl
@[simp] theorem State.active_mode : s.active.mode = s.mode := rfl
@[simp] theorem State.active_power : s.active.power = if s.power = .dormant then .run else s.power := rfl
@[simp] theorem State.active_lastActivity : s.active.lastActivity = s.count := rfl
@[simp] theorem State.active_lamp : s.active.lamp = s.lamp := rfl
@[simp] theorem State.active_domains : s.active.domains = s.domains := rfl
@[simp] theorem State.active_routing : s.active.routing = s.routing := rfl
@[simp] theorem State.active_roots : s.active.roots = s.roots := rfl
@[simp] theorem State.active_remap : s.active.remap = s.remap := rfl
@[simp] theorem State.active_layoutRec : s.active.layoutRec = s.layoutRec := rfl
@[simp] theorem State.active_layout : s.active.layout = s.layout := rfl
@[simp] theorem State.active_norms : s.active.norms = s.norms := rfl
@[simp] theorem State.active_threshold : s.active.threshold = s.threshold := rfl
@[simp] theorem State.active_replicaEpoch : s.active.replicaEpoch = s.replicaEpoch := rfl
@[simp] theorem State.active_storeEpoch : s.active.storeEpoch = s.storeEpoch := rfl
@[simp] theorem State.active_reports : s.active.reports = s.reports := rfl
@[simp] theorem State.active_reportsDropped : s.active.reportsDropped = s.reportsDropped := rfl
@[simp] theorem State.active_reportSeq : s.active.reportSeq = s.reportSeq := rfl
@[simp] theorem State.active_tallies : s.active.tallies = s.tallies := rfl
@[simp] theorem State.active_domCounters : s.active.domCounters = s.domCounters := rfl
@[simp] theorem State.active_devCounters : s.active.devCounters = s.devCounters := rfl
@[simp] theorem State.active_recoveries : s.active.recoveries = s.recoveries := rfl
@[simp] theorem State.active_fuses : s.active.fuses = s.fuses := rfl
@[simp] theorem State.active_boot : s.active.boot = s.boot := rfl
@[simp] theorem State.active_recovery : s.active.recovery = s.recovery := rfl
@[simp] theorem State.active_pins : s.active.pins = s.pins := rfl
@[simp] theorem State.active_rows : s.active.rows = s.rows := rfl
@[simp] theorem State.active_insts : s.active.insts = s.insts := rfl
@[simp] theorem State.active_foreman : s.active.foreman = s.foreman := rfl
@[simp] theorem State.active_bulk : s.active.bulk = s.bulk := rfl
@[simp] theorem State.active_ctxs : s.active.ctxs = s.ctxs := rfl
@[simp] theorem State.active_adapters : s.active.adapters = s.adapters := rfl
@[simp] theorem State.active_vocabs : s.active.vocabs = s.vocabs := rfl
@[simp] theorem State.active_snapshots : s.active.snapshots = s.snapshots := rfl
@[simp] theorem State.active_snapClock : s.active.snapClock = s.snapClock := rfl
@[simp] theorem State.active_streams : s.active.streams = s.streams := rfl
@[simp] theorem State.active_items : s.active.items = s.items := rfl
@[simp] theorem State.active_store : s.active.store = s.store := rfl
@[simp] theorem State.active_failed : s.active.failed = s.failed := rfl
@[simp] theorem State.active_remapping : s.active.remapping = s.remapping := rfl
@[simp] theorem State.active_chains : s.active.chains = s.chains := rfl
@[simp] theorem State.active_passes : s.active.passes = s.passes := rfl
@[simp] theorem State.active_shaft : s.active.shaft = s.shaft := rfl
@[simp] theorem State.active_credits : s.active.credits = s.credits := rfl
@[simp] theorem State.active_queuedTx : s.active.queuedTx = s.queuedTx := rfl
@[simp] theorem State.active_mem : s.active.mem = s.mem := rfl
@[simp] theorem State.active_drift : s.active.drift = s.drift := rfl
@[simp] theorem State.active_replicas : s.active.replicas = s.replicas := rfl
@[simp] theorem State.active_dead : s.active.dead = s.dead := rfl
@[simp] theorem State.active_xfers : s.active.xfers = s.xfers := rfl
@[simp] theorem State.active_poisoned : s.active.poisoned = s.poisoned := rfl
@[simp] theorem State.active_spareUsed : s.active.spareUsed = s.spareUsed := rfl
@[simp] theorem State.active_zeroing : s.active.zeroing = s.zeroing := rfl
@[simp] theorem State.active_seamZero : s.active.seamZero = s.seamZero := rfl
@[simp] theorem State.active_seamPoison : s.active.seamPoison = s.seamPoison := rfl
@[simp] theorem State.active_quietAt : s.active.quietAt = s.quietAt := rfl
@[simp] theorem State.active_flueHomes : s.active.flueHomes = s.flueHomes := rfl
@[simp] theorem State.active_outOfUse : s.active.outOfUse = s.outOfUse := rfl
@[simp] theorem State.active_ledgerFault : s.active.ledgerFault = s.ledgerFault := rfl
@[simp] theorem State.active_degraded : s.active.degraded = s.degraded := rfl
@[simp] theorem State.active_hangs : s.active.hangs = s.hangs := rfl
@[simp] theorem State.active_nextHang : s.active.nextHang = s.nextHang := rfl
@[simp] theorem State.active_ashpit : s.active.ashpit = s.ashpit := rfl
@[simp] theorem State.active_ashpitNext : s.active.ashpitNext = s.ashpitNext := rfl
@[simp] theorem State.active_ashpitHead : s.active.ashpitHead = s.ashpitHead := rfl
@[simp] theorem State.active_mgmt : s.active.mgmt = s.mgmt := rfl

@[simp] theorem State.emit_pending (o : Out) : (s.emit o).pending = s.pending := rfl
@[simp] theorem State.emit_freshCtr (o : Out) : (s.emit o).freshCtr = s.freshCtr := rfl
@[simp] theorem State.emit_nextItem (o : Out) : (s.emit o).nextItem = s.nextItem := rfl
@[simp] theorem State.emit_nextXfer (o : Out) : (s.emit o).nextXfer = s.nextXfer := rfl
@[simp] theorem State.emit_out (o : Out) : (s.emit o).out = s.out ++ [o] := rfl
@[simp] theorem State.emit_count (o : Out) : (s.emit o).count = s.count := rfl
@[simp] theorem State.emit_running (o : Out) : (s.emit o).running = s.running := rfl
@[simp] theorem State.emit_porst (o : Out) : (s.emit o).porst = s.porst := rfl
@[simp] theorem State.emit_pilotFault (o : Out) : (s.emit o).pilotFault = s.pilotFault := rfl
@[simp] theorem State.emit_mode (o : Out) : (s.emit o).mode = s.mode := rfl
@[simp] theorem State.emit_power (o : Out) : (s.emit o).power = s.power := rfl
@[simp] theorem State.emit_lastActivity (o : Out) : (s.emit o).lastActivity = s.lastActivity := rfl
@[simp] theorem State.emit_lamp (o : Out) : (s.emit o).lamp = s.lamp := rfl
@[simp] theorem State.emit_domains (o : Out) : (s.emit o).domains = s.domains := rfl
@[simp] theorem State.emit_routing (o : Out) : (s.emit o).routing = s.routing := rfl
@[simp] theorem State.emit_roots (o : Out) : (s.emit o).roots = s.roots := rfl
@[simp] theorem State.emit_remap (o : Out) : (s.emit o).remap = s.remap := rfl
@[simp] theorem State.emit_layoutRec (o : Out) : (s.emit o).layoutRec = s.layoutRec := rfl
@[simp] theorem State.emit_layout (o : Out) : (s.emit o).layout = s.layout := rfl
@[simp] theorem State.emit_norms (o : Out) : (s.emit o).norms = s.norms := rfl
@[simp] theorem State.emit_threshold (o : Out) : (s.emit o).threshold = s.threshold := rfl
@[simp] theorem State.emit_replicaEpoch (o : Out) : (s.emit o).replicaEpoch = s.replicaEpoch := rfl
@[simp] theorem State.emit_storeEpoch (o : Out) : (s.emit o).storeEpoch = s.storeEpoch := rfl
@[simp] theorem State.emit_reports (o : Out) : (s.emit o).reports = s.reports := rfl
@[simp] theorem State.emit_reportsDropped (o : Out) : (s.emit o).reportsDropped = s.reportsDropped := rfl
@[simp] theorem State.emit_reportSeq (o : Out) : (s.emit o).reportSeq = s.reportSeq := rfl
@[simp] theorem State.emit_tallies (o : Out) : (s.emit o).tallies = s.tallies := rfl
@[simp] theorem State.emit_domCounters (o : Out) : (s.emit o).domCounters = s.domCounters := rfl
@[simp] theorem State.emit_devCounters (o : Out) : (s.emit o).devCounters = s.devCounters := rfl
@[simp] theorem State.emit_recoveries (o : Out) : (s.emit o).recoveries = s.recoveries := rfl
@[simp] theorem State.emit_fuses (o : Out) : (s.emit o).fuses = s.fuses := rfl
@[simp] theorem State.emit_boot (o : Out) : (s.emit o).boot = s.boot := rfl
@[simp] theorem State.emit_recovery (o : Out) : (s.emit o).recovery = s.recovery := rfl
@[simp] theorem State.emit_pins (o : Out) : (s.emit o).pins = s.pins := rfl
@[simp] theorem State.emit_rows (o : Out) : (s.emit o).rows = s.rows := rfl
@[simp] theorem State.emit_insts (o : Out) : (s.emit o).insts = s.insts := rfl
@[simp] theorem State.emit_foreman (o : Out) : (s.emit o).foreman = s.foreman := rfl
@[simp] theorem State.emit_bulk (o : Out) : (s.emit o).bulk = s.bulk := rfl
@[simp] theorem State.emit_ctxs (o : Out) : (s.emit o).ctxs = s.ctxs := rfl
@[simp] theorem State.emit_adapters (o : Out) : (s.emit o).adapters = s.adapters := rfl
@[simp] theorem State.emit_vocabs (o : Out) : (s.emit o).vocabs = s.vocabs := rfl
@[simp] theorem State.emit_snapshots (o : Out) : (s.emit o).snapshots = s.snapshots := rfl
@[simp] theorem State.emit_snapClock (o : Out) : (s.emit o).snapClock = s.snapClock := rfl
@[simp] theorem State.emit_streams (o : Out) : (s.emit o).streams = s.streams := rfl
@[simp] theorem State.emit_items (o : Out) : (s.emit o).items = s.items := rfl
@[simp] theorem State.emit_store (o : Out) : (s.emit o).store = s.store := rfl
@[simp] theorem State.emit_failed (o : Out) : (s.emit o).failed = s.failed := rfl
@[simp] theorem State.emit_remapping (o : Out) : (s.emit o).remapping = s.remapping := rfl
@[simp] theorem State.emit_chains (o : Out) : (s.emit o).chains = s.chains := rfl
@[simp] theorem State.emit_passes (o : Out) : (s.emit o).passes = s.passes := rfl
@[simp] theorem State.emit_shaft (o : Out) : (s.emit o).shaft = s.shaft := rfl
@[simp] theorem State.emit_credits (o : Out) : (s.emit o).credits = s.credits := rfl
@[simp] theorem State.emit_queuedTx (o : Out) : (s.emit o).queuedTx = s.queuedTx := rfl
@[simp] theorem State.emit_mem (o : Out) : (s.emit o).mem = s.mem := rfl
@[simp] theorem State.emit_drift (o : Out) : (s.emit o).drift = s.drift := rfl
@[simp] theorem State.emit_replicas (o : Out) : (s.emit o).replicas = s.replicas := rfl
@[simp] theorem State.emit_dead (o : Out) : (s.emit o).dead = s.dead := rfl
@[simp] theorem State.emit_xfers (o : Out) : (s.emit o).xfers = s.xfers := rfl
@[simp] theorem State.emit_poisoned (o : Out) : (s.emit o).poisoned = s.poisoned := rfl
@[simp] theorem State.emit_spareUsed (o : Out) : (s.emit o).spareUsed = s.spareUsed := rfl
@[simp] theorem State.emit_zeroing (o : Out) : (s.emit o).zeroing = s.zeroing := rfl
@[simp] theorem State.emit_seamZero (o : Out) : (s.emit o).seamZero = s.seamZero := rfl
@[simp] theorem State.emit_seamPoison (o : Out) : (s.emit o).seamPoison = s.seamPoison := rfl
@[simp] theorem State.emit_quietAt (o : Out) : (s.emit o).quietAt = s.quietAt := rfl
@[simp] theorem State.emit_flueHomes (o : Out) : (s.emit o).flueHomes = s.flueHomes := rfl
@[simp] theorem State.emit_outOfUse (o : Out) : (s.emit o).outOfUse = s.outOfUse := rfl
@[simp] theorem State.emit_ledgerFault (o : Out) : (s.emit o).ledgerFault = s.ledgerFault := rfl
@[simp] theorem State.emit_degraded (o : Out) : (s.emit o).degraded = s.degraded := rfl
@[simp] theorem State.emit_hangs (o : Out) : (s.emit o).hangs = s.hangs := rfl
@[simp] theorem State.emit_nextHang (o : Out) : (s.emit o).nextHang = s.nextHang := rfl
@[simp] theorem State.emit_ashpit (o : Out) : (s.emit o).ashpit = s.ashpit := rfl
@[simp] theorem State.emit_ashpitNext (o : Out) : (s.emit o).ashpitNext = s.ashpitNext := rfl
@[simp] theorem State.emit_ashpitHead (o : Out) : (s.emit o).ashpitHead = s.ashpitHead := rfl
@[simp] theorem State.emit_mgmt (o : Out) : (s.emit o).mgmt = s.mgmt := rfl

@[simp] theorem State.domCount_pending (d i : Nat) : (s.domCount d i).pending = s.pending := rfl
@[simp] theorem State.domCount_freshCtr (d i : Nat) : (s.domCount d i).freshCtr = s.freshCtr := rfl
@[simp] theorem State.domCount_nextItem (d i : Nat) : (s.domCount d i).nextItem = s.nextItem := rfl
@[simp] theorem State.domCount_nextXfer (d i : Nat) : (s.domCount d i).nextXfer = s.nextXfer := rfl
@[simp] theorem State.domCount_out (d i : Nat) : (s.domCount d i).out = s.out := rfl
@[simp] theorem State.domCount_count (d i : Nat) : (s.domCount d i).count = s.count := rfl
@[simp] theorem State.domCount_running (d i : Nat) : (s.domCount d i).running = s.running := rfl
@[simp] theorem State.domCount_porst (d i : Nat) : (s.domCount d i).porst = s.porst := rfl
@[simp] theorem State.domCount_pilotFault (d i : Nat) : (s.domCount d i).pilotFault = s.pilotFault := rfl
@[simp] theorem State.domCount_mode (d i : Nat) : (s.domCount d i).mode = s.mode := rfl
@[simp] theorem State.domCount_power (d i : Nat) : (s.domCount d i).power = s.power := rfl
@[simp] theorem State.domCount_lastActivity (d i : Nat) : (s.domCount d i).lastActivity = s.lastActivity := rfl
@[simp] theorem State.domCount_lamp (d i : Nat) : (s.domCount d i).lamp = s.lamp := rfl
@[simp] theorem State.domCount_domains (d i : Nat) : (s.domCount d i).domains = s.domains := rfl
@[simp] theorem State.domCount_routing (d i : Nat) : (s.domCount d i).routing = s.routing := rfl
@[simp] theorem State.domCount_roots (d i : Nat) : (s.domCount d i).roots = s.roots := rfl
@[simp] theorem State.domCount_remap (d i : Nat) : (s.domCount d i).remap = s.remap := rfl
@[simp] theorem State.domCount_layoutRec (d i : Nat) : (s.domCount d i).layoutRec = s.layoutRec := rfl
@[simp] theorem State.domCount_layout (d i : Nat) : (s.domCount d i).layout = s.layout := rfl
@[simp] theorem State.domCount_norms (d i : Nat) : (s.domCount d i).norms = s.norms := rfl
@[simp] theorem State.domCount_threshold (d i : Nat) : (s.domCount d i).threshold = s.threshold := rfl
@[simp] theorem State.domCount_replicaEpoch (d i : Nat) : (s.domCount d i).replicaEpoch = s.replicaEpoch := rfl
@[simp] theorem State.domCount_storeEpoch (d i : Nat) : (s.domCount d i).storeEpoch = s.storeEpoch := rfl
@[simp] theorem State.domCount_reports (d i : Nat) : (s.domCount d i).reports = s.reports := rfl
@[simp] theorem State.domCount_reportsDropped (d i : Nat) : (s.domCount d i).reportsDropped = s.reportsDropped := rfl
@[simp] theorem State.domCount_reportSeq (d i : Nat) : (s.domCount d i).reportSeq = s.reportSeq := rfl
@[simp] theorem State.domCount_tallies (d i : Nat) : (s.domCount d i).tallies = s.tallies := rfl
@[simp] theorem State.domCount_domCounters (d i : Nat) : (s.domCount d i).domCounters = lmod s.domCounters d fun l => lmod l i fun v => (v + 1) % 2 ^ 64 := rfl
@[simp] theorem State.domCount_devCounters (d i : Nat) : (s.domCount d i).devCounters = s.devCounters := rfl
@[simp] theorem State.domCount_recoveries (d i : Nat) : (s.domCount d i).recoveries = s.recoveries := rfl
@[simp] theorem State.domCount_fuses (d i : Nat) : (s.domCount d i).fuses = s.fuses := rfl
@[simp] theorem State.domCount_boot (d i : Nat) : (s.domCount d i).boot = s.boot := rfl
@[simp] theorem State.domCount_recovery (d i : Nat) : (s.domCount d i).recovery = s.recovery := rfl
@[simp] theorem State.domCount_pins (d i : Nat) : (s.domCount d i).pins = s.pins := rfl
@[simp] theorem State.domCount_rows (d i : Nat) : (s.domCount d i).rows = s.rows := rfl
@[simp] theorem State.domCount_insts (d i : Nat) : (s.domCount d i).insts = s.insts := rfl
@[simp] theorem State.domCount_foreman (d i : Nat) : (s.domCount d i).foreman = s.foreman := rfl
@[simp] theorem State.domCount_bulk (d i : Nat) : (s.domCount d i).bulk = s.bulk := rfl
@[simp] theorem State.domCount_ctxs (d i : Nat) : (s.domCount d i).ctxs = s.ctxs := rfl
@[simp] theorem State.domCount_adapters (d i : Nat) : (s.domCount d i).adapters = s.adapters := rfl
@[simp] theorem State.domCount_vocabs (d i : Nat) : (s.domCount d i).vocabs = s.vocabs := rfl
@[simp] theorem State.domCount_snapshots (d i : Nat) : (s.domCount d i).snapshots = s.snapshots := rfl
@[simp] theorem State.domCount_snapClock (d i : Nat) : (s.domCount d i).snapClock = s.snapClock := rfl
@[simp] theorem State.domCount_streams (d i : Nat) : (s.domCount d i).streams = s.streams := rfl
@[simp] theorem State.domCount_items (d i : Nat) : (s.domCount d i).items = s.items := rfl
@[simp] theorem State.domCount_store (d i : Nat) : (s.domCount d i).store = s.store := rfl
@[simp] theorem State.domCount_failed (d i : Nat) : (s.domCount d i).failed = s.failed := rfl
@[simp] theorem State.domCount_remapping (d i : Nat) : (s.domCount d i).remapping = s.remapping := rfl
@[simp] theorem State.domCount_chains (d i : Nat) : (s.domCount d i).chains = s.chains := rfl
@[simp] theorem State.domCount_passes (d i : Nat) : (s.domCount d i).passes = s.passes := rfl
@[simp] theorem State.domCount_shaft (d i : Nat) : (s.domCount d i).shaft = s.shaft := rfl
@[simp] theorem State.domCount_credits (d i : Nat) : (s.domCount d i).credits = s.credits := rfl
@[simp] theorem State.domCount_queuedTx (d i : Nat) : (s.domCount d i).queuedTx = s.queuedTx := rfl
@[simp] theorem State.domCount_mem (d i : Nat) : (s.domCount d i).mem = s.mem := rfl
@[simp] theorem State.domCount_drift (d i : Nat) : (s.domCount d i).drift = s.drift := rfl
@[simp] theorem State.domCount_replicas (d i : Nat) : (s.domCount d i).replicas = s.replicas := rfl
@[simp] theorem State.domCount_dead (d i : Nat) : (s.domCount d i).dead = s.dead := rfl
@[simp] theorem State.domCount_xfers (d i : Nat) : (s.domCount d i).xfers = s.xfers := rfl
@[simp] theorem State.domCount_poisoned (d i : Nat) : (s.domCount d i).poisoned = s.poisoned := rfl
@[simp] theorem State.domCount_spareUsed (d i : Nat) : (s.domCount d i).spareUsed = s.spareUsed := rfl
@[simp] theorem State.domCount_zeroing (d i : Nat) : (s.domCount d i).zeroing = s.zeroing := rfl
@[simp] theorem State.domCount_seamZero (d i : Nat) : (s.domCount d i).seamZero = s.seamZero := rfl
@[simp] theorem State.domCount_seamPoison (d i : Nat) : (s.domCount d i).seamPoison = s.seamPoison := rfl
@[simp] theorem State.domCount_quietAt (d i : Nat) : (s.domCount d i).quietAt = s.quietAt := rfl
@[simp] theorem State.domCount_flueHomes (d i : Nat) : (s.domCount d i).flueHomes = s.flueHomes := rfl
@[simp] theorem State.domCount_outOfUse (d i : Nat) : (s.domCount d i).outOfUse = s.outOfUse := rfl
@[simp] theorem State.domCount_ledgerFault (d i : Nat) : (s.domCount d i).ledgerFault = s.ledgerFault := rfl
@[simp] theorem State.domCount_degraded (d i : Nat) : (s.domCount d i).degraded = s.degraded := rfl
@[simp] theorem State.domCount_hangs (d i : Nat) : (s.domCount d i).hangs = s.hangs := rfl
@[simp] theorem State.domCount_nextHang (d i : Nat) : (s.domCount d i).nextHang = s.nextHang := rfl
@[simp] theorem State.domCount_ashpit (d i : Nat) : (s.domCount d i).ashpit = s.ashpit := rfl
@[simp] theorem State.domCount_ashpitNext (d i : Nat) : (s.domCount d i).ashpitNext = s.ashpitNext := rfl
@[simp] theorem State.domCount_ashpitHead (d i : Nat) : (s.domCount d i).ashpitHead = s.ashpitHead := rfl
@[simp] theorem State.domCount_mgmt (d i : Nat) : (s.domCount d i).mgmt = s.mgmt := rfl

@[simp] theorem State.devCount_pending (i n : Nat) : (s.devCount i n).pending = s.pending := rfl
@[simp] theorem State.devCount_freshCtr (i n : Nat) : (s.devCount i n).freshCtr = s.freshCtr := rfl
@[simp] theorem State.devCount_nextItem (i n : Nat) : (s.devCount i n).nextItem = s.nextItem := rfl
@[simp] theorem State.devCount_nextXfer (i n : Nat) : (s.devCount i n).nextXfer = s.nextXfer := rfl
@[simp] theorem State.devCount_out (i n : Nat) : (s.devCount i n).out = s.out := rfl
@[simp] theorem State.devCount_count (i n : Nat) : (s.devCount i n).count = s.count := rfl
@[simp] theorem State.devCount_running (i n : Nat) : (s.devCount i n).running = s.running := rfl
@[simp] theorem State.devCount_porst (i n : Nat) : (s.devCount i n).porst = s.porst := rfl
@[simp] theorem State.devCount_pilotFault (i n : Nat) : (s.devCount i n).pilotFault = s.pilotFault := rfl
@[simp] theorem State.devCount_mode (i n : Nat) : (s.devCount i n).mode = s.mode := rfl
@[simp] theorem State.devCount_power (i n : Nat) : (s.devCount i n).power = s.power := rfl
@[simp] theorem State.devCount_lastActivity (i n : Nat) : (s.devCount i n).lastActivity = s.lastActivity := rfl
@[simp] theorem State.devCount_lamp (i n : Nat) : (s.devCount i n).lamp = s.lamp := rfl
@[simp] theorem State.devCount_domains (i n : Nat) : (s.devCount i n).domains = s.domains := rfl
@[simp] theorem State.devCount_routing (i n : Nat) : (s.devCount i n).routing = s.routing := rfl
@[simp] theorem State.devCount_roots (i n : Nat) : (s.devCount i n).roots = s.roots := rfl
@[simp] theorem State.devCount_remap (i n : Nat) : (s.devCount i n).remap = s.remap := rfl
@[simp] theorem State.devCount_layoutRec (i n : Nat) : (s.devCount i n).layoutRec = s.layoutRec := rfl
@[simp] theorem State.devCount_layout (i n : Nat) : (s.devCount i n).layout = s.layout := rfl
@[simp] theorem State.devCount_norms (i n : Nat) : (s.devCount i n).norms = s.norms := rfl
@[simp] theorem State.devCount_threshold (i n : Nat) : (s.devCount i n).threshold = s.threshold := rfl
@[simp] theorem State.devCount_replicaEpoch (i n : Nat) : (s.devCount i n).replicaEpoch = s.replicaEpoch := rfl
@[simp] theorem State.devCount_storeEpoch (i n : Nat) : (s.devCount i n).storeEpoch = s.storeEpoch := rfl
@[simp] theorem State.devCount_reports (i n : Nat) : (s.devCount i n).reports = s.reports := rfl
@[simp] theorem State.devCount_reportsDropped (i n : Nat) : (s.devCount i n).reportsDropped = s.reportsDropped := rfl
@[simp] theorem State.devCount_reportSeq (i n : Nat) : (s.devCount i n).reportSeq = s.reportSeq := rfl
@[simp] theorem State.devCount_tallies (i n : Nat) : (s.devCount i n).tallies = s.tallies := rfl
@[simp] theorem State.devCount_domCounters (i n : Nat) : (s.devCount i n).domCounters = s.domCounters := rfl
@[simp] theorem State.devCount_devCounters (i n : Nat) : (s.devCount i n).devCounters = lmod s.devCounters i fun v => (v + n) % 2 ^ 64 := rfl
@[simp] theorem State.devCount_recoveries (i n : Nat) : (s.devCount i n).recoveries = s.recoveries := rfl
@[simp] theorem State.devCount_fuses (i n : Nat) : (s.devCount i n).fuses = s.fuses := rfl
@[simp] theorem State.devCount_boot (i n : Nat) : (s.devCount i n).boot = s.boot := rfl
@[simp] theorem State.devCount_recovery (i n : Nat) : (s.devCount i n).recovery = s.recovery := rfl
@[simp] theorem State.devCount_pins (i n : Nat) : (s.devCount i n).pins = s.pins := rfl
@[simp] theorem State.devCount_rows (i n : Nat) : (s.devCount i n).rows = s.rows := rfl
@[simp] theorem State.devCount_insts (i n : Nat) : (s.devCount i n).insts = s.insts := rfl
@[simp] theorem State.devCount_foreman (i n : Nat) : (s.devCount i n).foreman = s.foreman := rfl
@[simp] theorem State.devCount_bulk (i n : Nat) : (s.devCount i n).bulk = s.bulk := rfl
@[simp] theorem State.devCount_ctxs (i n : Nat) : (s.devCount i n).ctxs = s.ctxs := rfl
@[simp] theorem State.devCount_adapters (i n : Nat) : (s.devCount i n).adapters = s.adapters := rfl
@[simp] theorem State.devCount_vocabs (i n : Nat) : (s.devCount i n).vocabs = s.vocabs := rfl
@[simp] theorem State.devCount_snapshots (i n : Nat) : (s.devCount i n).snapshots = s.snapshots := rfl
@[simp] theorem State.devCount_snapClock (i n : Nat) : (s.devCount i n).snapClock = s.snapClock := rfl
@[simp] theorem State.devCount_streams (i n : Nat) : (s.devCount i n).streams = s.streams := rfl
@[simp] theorem State.devCount_items (i n : Nat) : (s.devCount i n).items = s.items := rfl
@[simp] theorem State.devCount_store (i n : Nat) : (s.devCount i n).store = s.store := rfl
@[simp] theorem State.devCount_failed (i n : Nat) : (s.devCount i n).failed = s.failed := rfl
@[simp] theorem State.devCount_remapping (i n : Nat) : (s.devCount i n).remapping = s.remapping := rfl
@[simp] theorem State.devCount_chains (i n : Nat) : (s.devCount i n).chains = s.chains := rfl
@[simp] theorem State.devCount_passes (i n : Nat) : (s.devCount i n).passes = s.passes := rfl
@[simp] theorem State.devCount_shaft (i n : Nat) : (s.devCount i n).shaft = s.shaft := rfl
@[simp] theorem State.devCount_credits (i n : Nat) : (s.devCount i n).credits = s.credits := rfl
@[simp] theorem State.devCount_queuedTx (i n : Nat) : (s.devCount i n).queuedTx = s.queuedTx := rfl
@[simp] theorem State.devCount_mem (i n : Nat) : (s.devCount i n).mem = s.mem := rfl
@[simp] theorem State.devCount_drift (i n : Nat) : (s.devCount i n).drift = s.drift := rfl
@[simp] theorem State.devCount_replicas (i n : Nat) : (s.devCount i n).replicas = s.replicas := rfl
@[simp] theorem State.devCount_dead (i n : Nat) : (s.devCount i n).dead = s.dead := rfl
@[simp] theorem State.devCount_xfers (i n : Nat) : (s.devCount i n).xfers = s.xfers := rfl
@[simp] theorem State.devCount_poisoned (i n : Nat) : (s.devCount i n).poisoned = s.poisoned := rfl
@[simp] theorem State.devCount_spareUsed (i n : Nat) : (s.devCount i n).spareUsed = s.spareUsed := rfl
@[simp] theorem State.devCount_zeroing (i n : Nat) : (s.devCount i n).zeroing = s.zeroing := rfl
@[simp] theorem State.devCount_seamZero (i n : Nat) : (s.devCount i n).seamZero = s.seamZero := rfl
@[simp] theorem State.devCount_seamPoison (i n : Nat) : (s.devCount i n).seamPoison = s.seamPoison := rfl
@[simp] theorem State.devCount_quietAt (i n : Nat) : (s.devCount i n).quietAt = s.quietAt := rfl
@[simp] theorem State.devCount_flueHomes (i n : Nat) : (s.devCount i n).flueHomes = s.flueHomes := rfl
@[simp] theorem State.devCount_outOfUse (i n : Nat) : (s.devCount i n).outOfUse = s.outOfUse := rfl
@[simp] theorem State.devCount_ledgerFault (i n : Nat) : (s.devCount i n).ledgerFault = s.ledgerFault := rfl
@[simp] theorem State.devCount_degraded (i n : Nat) : (s.devCount i n).degraded = s.degraded := rfl
@[simp] theorem State.devCount_hangs (i n : Nat) : (s.devCount i n).hangs = s.hangs := rfl
@[simp] theorem State.devCount_nextHang (i n : Nat) : (s.devCount i n).nextHang = s.nextHang := rfl
@[simp] theorem State.devCount_ashpit (i n : Nat) : (s.devCount i n).ashpit = s.ashpit := rfl
@[simp] theorem State.devCount_ashpitNext (i n : Nat) : (s.devCount i n).ashpitNext = s.ashpitNext := rfl
@[simp] theorem State.devCount_ashpitHead (i n : Nat) : (s.devCount i n).ashpitHead = s.ashpitHead := rfl
@[simp] theorem State.devCount_mgmt (i n : Nat) : (s.devCount i n).mgmt = s.mgmt := rfl

@[simp] theorem State.modCtx_pending (c : Nat) (f : Ctx → Ctx) : (s.modCtx c f).pending = s.pending := rfl
@[simp] theorem State.modCtx_freshCtr (c : Nat) (f : Ctx → Ctx) : (s.modCtx c f).freshCtr = s.freshCtr := rfl
@[simp] theorem State.modCtx_nextItem (c : Nat) (f : Ctx → Ctx) : (s.modCtx c f).nextItem = s.nextItem := rfl
@[simp] theorem State.modCtx_nextXfer (c : Nat) (f : Ctx → Ctx) : (s.modCtx c f).nextXfer = s.nextXfer := rfl
@[simp] theorem State.modCtx_out (c : Nat) (f : Ctx → Ctx) : (s.modCtx c f).out = s.out := rfl
@[simp] theorem State.modCtx_count (c : Nat) (f : Ctx → Ctx) : (s.modCtx c f).count = s.count := rfl
@[simp] theorem State.modCtx_running (c : Nat) (f : Ctx → Ctx) : (s.modCtx c f).running = s.running := rfl
@[simp] theorem State.modCtx_porst (c : Nat) (f : Ctx → Ctx) : (s.modCtx c f).porst = s.porst := rfl
@[simp] theorem State.modCtx_pilotFault (c : Nat) (f : Ctx → Ctx) : (s.modCtx c f).pilotFault = s.pilotFault := rfl
@[simp] theorem State.modCtx_mode (c : Nat) (f : Ctx → Ctx) : (s.modCtx c f).mode = s.mode := rfl
@[simp] theorem State.modCtx_power (c : Nat) (f : Ctx → Ctx) : (s.modCtx c f).power = s.power := rfl
@[simp] theorem State.modCtx_lastActivity (c : Nat) (f : Ctx → Ctx) : (s.modCtx c f).lastActivity = s.lastActivity := rfl
@[simp] theorem State.modCtx_lamp (c : Nat) (f : Ctx → Ctx) : (s.modCtx c f).lamp = s.lamp := rfl
@[simp] theorem State.modCtx_domains (c : Nat) (f : Ctx → Ctx) : (s.modCtx c f).domains = s.domains := rfl
@[simp] theorem State.modCtx_routing (c : Nat) (f : Ctx → Ctx) : (s.modCtx c f).routing = s.routing := rfl
@[simp] theorem State.modCtx_roots (c : Nat) (f : Ctx → Ctx) : (s.modCtx c f).roots = s.roots := rfl
@[simp] theorem State.modCtx_remap (c : Nat) (f : Ctx → Ctx) : (s.modCtx c f).remap = s.remap := rfl
@[simp] theorem State.modCtx_layoutRec (c : Nat) (f : Ctx → Ctx) : (s.modCtx c f).layoutRec = s.layoutRec := rfl
@[simp] theorem State.modCtx_layout (c : Nat) (f : Ctx → Ctx) : (s.modCtx c f).layout = s.layout := rfl
@[simp] theorem State.modCtx_norms (c : Nat) (f : Ctx → Ctx) : (s.modCtx c f).norms = s.norms := rfl
@[simp] theorem State.modCtx_threshold (c : Nat) (f : Ctx → Ctx) : (s.modCtx c f).threshold = s.threshold := rfl
@[simp] theorem State.modCtx_replicaEpoch (c : Nat) (f : Ctx → Ctx) : (s.modCtx c f).replicaEpoch = s.replicaEpoch := rfl
@[simp] theorem State.modCtx_storeEpoch (c : Nat) (f : Ctx → Ctx) : (s.modCtx c f).storeEpoch = s.storeEpoch := rfl
@[simp] theorem State.modCtx_reports (c : Nat) (f : Ctx → Ctx) : (s.modCtx c f).reports = s.reports := rfl
@[simp] theorem State.modCtx_reportsDropped (c : Nat) (f : Ctx → Ctx) : (s.modCtx c f).reportsDropped = s.reportsDropped := rfl
@[simp] theorem State.modCtx_reportSeq (c : Nat) (f : Ctx → Ctx) : (s.modCtx c f).reportSeq = s.reportSeq := rfl
@[simp] theorem State.modCtx_tallies (c : Nat) (f : Ctx → Ctx) : (s.modCtx c f).tallies = s.tallies := rfl
@[simp] theorem State.modCtx_domCounters (c : Nat) (f : Ctx → Ctx) : (s.modCtx c f).domCounters = s.domCounters := rfl
@[simp] theorem State.modCtx_devCounters (c : Nat) (f : Ctx → Ctx) : (s.modCtx c f).devCounters = s.devCounters := rfl
@[simp] theorem State.modCtx_recoveries (c : Nat) (f : Ctx → Ctx) : (s.modCtx c f).recoveries = s.recoveries := rfl
@[simp] theorem State.modCtx_fuses (c : Nat) (f : Ctx → Ctx) : (s.modCtx c f).fuses = s.fuses := rfl
@[simp] theorem State.modCtx_boot (c : Nat) (f : Ctx → Ctx) : (s.modCtx c f).boot = s.boot := rfl
@[simp] theorem State.modCtx_recovery (c : Nat) (f : Ctx → Ctx) : (s.modCtx c f).recovery = s.recovery := rfl
@[simp] theorem State.modCtx_pins (c : Nat) (f : Ctx → Ctx) : (s.modCtx c f).pins = s.pins := rfl
@[simp] theorem State.modCtx_rows (c : Nat) (f : Ctx → Ctx) : (s.modCtx c f).rows = s.rows := rfl
@[simp] theorem State.modCtx_insts (c : Nat) (f : Ctx → Ctx) : (s.modCtx c f).insts = s.insts := rfl
@[simp] theorem State.modCtx_foreman (c : Nat) (f : Ctx → Ctx) : (s.modCtx c f).foreman = s.foreman := rfl
@[simp] theorem State.modCtx_bulk (c : Nat) (f : Ctx → Ctx) : (s.modCtx c f).bulk = s.bulk := rfl
@[simp] theorem State.modCtx_ctxs (c : Nat) (f : Ctx → Ctx) : (s.modCtx c f).ctxs = tmod s.ctxs c f := rfl
@[simp] theorem State.modCtx_adapters (c : Nat) (f : Ctx → Ctx) : (s.modCtx c f).adapters = s.adapters := rfl
@[simp] theorem State.modCtx_vocabs (c : Nat) (f : Ctx → Ctx) : (s.modCtx c f).vocabs = s.vocabs := rfl
@[simp] theorem State.modCtx_snapshots (c : Nat) (f : Ctx → Ctx) : (s.modCtx c f).snapshots = s.snapshots := rfl
@[simp] theorem State.modCtx_snapClock (c : Nat) (f : Ctx → Ctx) : (s.modCtx c f).snapClock = s.snapClock := rfl
@[simp] theorem State.modCtx_streams (c : Nat) (f : Ctx → Ctx) : (s.modCtx c f).streams = s.streams := rfl
@[simp] theorem State.modCtx_items (c : Nat) (f : Ctx → Ctx) : (s.modCtx c f).items = s.items := rfl
@[simp] theorem State.modCtx_store (c : Nat) (f : Ctx → Ctx) : (s.modCtx c f).store = s.store := rfl
@[simp] theorem State.modCtx_failed (c : Nat) (f : Ctx → Ctx) : (s.modCtx c f).failed = s.failed := rfl
@[simp] theorem State.modCtx_remapping (c : Nat) (f : Ctx → Ctx) : (s.modCtx c f).remapping = s.remapping := rfl
@[simp] theorem State.modCtx_chains (c : Nat) (f : Ctx → Ctx) : (s.modCtx c f).chains = s.chains := rfl
@[simp] theorem State.modCtx_passes (c : Nat) (f : Ctx → Ctx) : (s.modCtx c f).passes = s.passes := rfl
@[simp] theorem State.modCtx_shaft (c : Nat) (f : Ctx → Ctx) : (s.modCtx c f).shaft = s.shaft := rfl
@[simp] theorem State.modCtx_credits (c : Nat) (f : Ctx → Ctx) : (s.modCtx c f).credits = s.credits := rfl
@[simp] theorem State.modCtx_queuedTx (c : Nat) (f : Ctx → Ctx) : (s.modCtx c f).queuedTx = s.queuedTx := rfl
@[simp] theorem State.modCtx_mem (c : Nat) (f : Ctx → Ctx) : (s.modCtx c f).mem = s.mem := rfl
@[simp] theorem State.modCtx_drift (c : Nat) (f : Ctx → Ctx) : (s.modCtx c f).drift = s.drift := rfl
@[simp] theorem State.modCtx_replicas (c : Nat) (f : Ctx → Ctx) : (s.modCtx c f).replicas = s.replicas := rfl
@[simp] theorem State.modCtx_dead (c : Nat) (f : Ctx → Ctx) : (s.modCtx c f).dead = s.dead := rfl
@[simp] theorem State.modCtx_xfers (c : Nat) (f : Ctx → Ctx) : (s.modCtx c f).xfers = s.xfers := rfl
@[simp] theorem State.modCtx_poisoned (c : Nat) (f : Ctx → Ctx) : (s.modCtx c f).poisoned = s.poisoned := rfl
@[simp] theorem State.modCtx_spareUsed (c : Nat) (f : Ctx → Ctx) : (s.modCtx c f).spareUsed = s.spareUsed := rfl
@[simp] theorem State.modCtx_zeroing (c : Nat) (f : Ctx → Ctx) : (s.modCtx c f).zeroing = s.zeroing := rfl
@[simp] theorem State.modCtx_seamZero (c : Nat) (f : Ctx → Ctx) : (s.modCtx c f).seamZero = s.seamZero := rfl
@[simp] theorem State.modCtx_seamPoison (c : Nat) (f : Ctx → Ctx) : (s.modCtx c f).seamPoison = s.seamPoison := rfl
@[simp] theorem State.modCtx_quietAt (c : Nat) (f : Ctx → Ctx) : (s.modCtx c f).quietAt = s.quietAt := rfl
@[simp] theorem State.modCtx_flueHomes (c : Nat) (f : Ctx → Ctx) : (s.modCtx c f).flueHomes = s.flueHomes := rfl
@[simp] theorem State.modCtx_outOfUse (c : Nat) (f : Ctx → Ctx) : (s.modCtx c f).outOfUse = s.outOfUse := rfl
@[simp] theorem State.modCtx_ledgerFault (c : Nat) (f : Ctx → Ctx) : (s.modCtx c f).ledgerFault = s.ledgerFault := rfl
@[simp] theorem State.modCtx_degraded (c : Nat) (f : Ctx → Ctx) : (s.modCtx c f).degraded = s.degraded := rfl
@[simp] theorem State.modCtx_hangs (c : Nat) (f : Ctx → Ctx) : (s.modCtx c f).hangs = s.hangs := rfl
@[simp] theorem State.modCtx_nextHang (c : Nat) (f : Ctx → Ctx) : (s.modCtx c f).nextHang = s.nextHang := rfl
@[simp] theorem State.modCtx_ashpit (c : Nat) (f : Ctx → Ctx) : (s.modCtx c f).ashpit = s.ashpit := rfl
@[simp] theorem State.modCtx_ashpitNext (c : Nat) (f : Ctx → Ctx) : (s.modCtx c f).ashpitNext = s.ashpitNext := rfl
@[simp] theorem State.modCtx_ashpitHead (c : Nat) (f : Ctx → Ctx) : (s.modCtx c f).ashpitHead = s.ashpitHead := rfl
@[simp] theorem State.modCtx_mgmt (c : Nat) (f : Ctx → Ctx) : (s.modCtx c f).mgmt = s.mgmt := rfl

@[simp] theorem State.setCtx_pending (c : Nat) (x : Ctx) : (s.setCtx c x).pending = s.pending := rfl
@[simp] theorem State.setCtx_freshCtr (c : Nat) (x : Ctx) : (s.setCtx c x).freshCtr = s.freshCtr := rfl
@[simp] theorem State.setCtx_nextItem (c : Nat) (x : Ctx) : (s.setCtx c x).nextItem = s.nextItem := rfl
@[simp] theorem State.setCtx_nextXfer (c : Nat) (x : Ctx) : (s.setCtx c x).nextXfer = s.nextXfer := rfl
@[simp] theorem State.setCtx_out (c : Nat) (x : Ctx) : (s.setCtx c x).out = s.out := rfl
@[simp] theorem State.setCtx_count (c : Nat) (x : Ctx) : (s.setCtx c x).count = s.count := rfl
@[simp] theorem State.setCtx_running (c : Nat) (x : Ctx) : (s.setCtx c x).running = s.running := rfl
@[simp] theorem State.setCtx_porst (c : Nat) (x : Ctx) : (s.setCtx c x).porst = s.porst := rfl
@[simp] theorem State.setCtx_pilotFault (c : Nat) (x : Ctx) : (s.setCtx c x).pilotFault = s.pilotFault := rfl
@[simp] theorem State.setCtx_mode (c : Nat) (x : Ctx) : (s.setCtx c x).mode = s.mode := rfl
@[simp] theorem State.setCtx_power (c : Nat) (x : Ctx) : (s.setCtx c x).power = s.power := rfl
@[simp] theorem State.setCtx_lastActivity (c : Nat) (x : Ctx) : (s.setCtx c x).lastActivity = s.lastActivity := rfl
@[simp] theorem State.setCtx_lamp (c : Nat) (x : Ctx) : (s.setCtx c x).lamp = s.lamp := rfl
@[simp] theorem State.setCtx_domains (c : Nat) (x : Ctx) : (s.setCtx c x).domains = s.domains := rfl
@[simp] theorem State.setCtx_routing (c : Nat) (x : Ctx) : (s.setCtx c x).routing = s.routing := rfl
@[simp] theorem State.setCtx_roots (c : Nat) (x : Ctx) : (s.setCtx c x).roots = s.roots := rfl
@[simp] theorem State.setCtx_remap (c : Nat) (x : Ctx) : (s.setCtx c x).remap = s.remap := rfl
@[simp] theorem State.setCtx_layoutRec (c : Nat) (x : Ctx) : (s.setCtx c x).layoutRec = s.layoutRec := rfl
@[simp] theorem State.setCtx_layout (c : Nat) (x : Ctx) : (s.setCtx c x).layout = s.layout := rfl
@[simp] theorem State.setCtx_norms (c : Nat) (x : Ctx) : (s.setCtx c x).norms = s.norms := rfl
@[simp] theorem State.setCtx_threshold (c : Nat) (x : Ctx) : (s.setCtx c x).threshold = s.threshold := rfl
@[simp] theorem State.setCtx_replicaEpoch (c : Nat) (x : Ctx) : (s.setCtx c x).replicaEpoch = s.replicaEpoch := rfl
@[simp] theorem State.setCtx_storeEpoch (c : Nat) (x : Ctx) : (s.setCtx c x).storeEpoch = s.storeEpoch := rfl
@[simp] theorem State.setCtx_reports (c : Nat) (x : Ctx) : (s.setCtx c x).reports = s.reports := rfl
@[simp] theorem State.setCtx_reportsDropped (c : Nat) (x : Ctx) : (s.setCtx c x).reportsDropped = s.reportsDropped := rfl
@[simp] theorem State.setCtx_reportSeq (c : Nat) (x : Ctx) : (s.setCtx c x).reportSeq = s.reportSeq := rfl
@[simp] theorem State.setCtx_tallies (c : Nat) (x : Ctx) : (s.setCtx c x).tallies = s.tallies := rfl
@[simp] theorem State.setCtx_domCounters (c : Nat) (x : Ctx) : (s.setCtx c x).domCounters = s.domCounters := rfl
@[simp] theorem State.setCtx_devCounters (c : Nat) (x : Ctx) : (s.setCtx c x).devCounters = s.devCounters := rfl
@[simp] theorem State.setCtx_recoveries (c : Nat) (x : Ctx) : (s.setCtx c x).recoveries = s.recoveries := rfl
@[simp] theorem State.setCtx_fuses (c : Nat) (x : Ctx) : (s.setCtx c x).fuses = s.fuses := rfl
@[simp] theorem State.setCtx_boot (c : Nat) (x : Ctx) : (s.setCtx c x).boot = s.boot := rfl
@[simp] theorem State.setCtx_recovery (c : Nat) (x : Ctx) : (s.setCtx c x).recovery = s.recovery := rfl
@[simp] theorem State.setCtx_pins (c : Nat) (x : Ctx) : (s.setCtx c x).pins = s.pins := rfl
@[simp] theorem State.setCtx_rows (c : Nat) (x : Ctx) : (s.setCtx c x).rows = s.rows := rfl
@[simp] theorem State.setCtx_insts (c : Nat) (x : Ctx) : (s.setCtx c x).insts = s.insts := rfl
@[simp] theorem State.setCtx_foreman (c : Nat) (x : Ctx) : (s.setCtx c x).foreman = s.foreman := rfl
@[simp] theorem State.setCtx_bulk (c : Nat) (x : Ctx) : (s.setCtx c x).bulk = s.bulk := rfl
@[simp] theorem State.setCtx_ctxs (c : Nat) (x : Ctx) : (s.setCtx c x).ctxs = tset s.ctxs c x := rfl
@[simp] theorem State.setCtx_adapters (c : Nat) (x : Ctx) : (s.setCtx c x).adapters = s.adapters := rfl
@[simp] theorem State.setCtx_vocabs (c : Nat) (x : Ctx) : (s.setCtx c x).vocabs = s.vocabs := rfl
@[simp] theorem State.setCtx_snapshots (c : Nat) (x : Ctx) : (s.setCtx c x).snapshots = s.snapshots := rfl
@[simp] theorem State.setCtx_snapClock (c : Nat) (x : Ctx) : (s.setCtx c x).snapClock = s.snapClock := rfl
@[simp] theorem State.setCtx_streams (c : Nat) (x : Ctx) : (s.setCtx c x).streams = s.streams := rfl
@[simp] theorem State.setCtx_items (c : Nat) (x : Ctx) : (s.setCtx c x).items = s.items := rfl
@[simp] theorem State.setCtx_store (c : Nat) (x : Ctx) : (s.setCtx c x).store = s.store := rfl
@[simp] theorem State.setCtx_failed (c : Nat) (x : Ctx) : (s.setCtx c x).failed = s.failed := rfl
@[simp] theorem State.setCtx_remapping (c : Nat) (x : Ctx) : (s.setCtx c x).remapping = s.remapping := rfl
@[simp] theorem State.setCtx_chains (c : Nat) (x : Ctx) : (s.setCtx c x).chains = s.chains := rfl
@[simp] theorem State.setCtx_passes (c : Nat) (x : Ctx) : (s.setCtx c x).passes = s.passes := rfl
@[simp] theorem State.setCtx_shaft (c : Nat) (x : Ctx) : (s.setCtx c x).shaft = s.shaft := rfl
@[simp] theorem State.setCtx_credits (c : Nat) (x : Ctx) : (s.setCtx c x).credits = s.credits := rfl
@[simp] theorem State.setCtx_queuedTx (c : Nat) (x : Ctx) : (s.setCtx c x).queuedTx = s.queuedTx := rfl
@[simp] theorem State.setCtx_mem (c : Nat) (x : Ctx) : (s.setCtx c x).mem = s.mem := rfl
@[simp] theorem State.setCtx_drift (c : Nat) (x : Ctx) : (s.setCtx c x).drift = s.drift := rfl
@[simp] theorem State.setCtx_replicas (c : Nat) (x : Ctx) : (s.setCtx c x).replicas = s.replicas := rfl
@[simp] theorem State.setCtx_dead (c : Nat) (x : Ctx) : (s.setCtx c x).dead = s.dead := rfl
@[simp] theorem State.setCtx_xfers (c : Nat) (x : Ctx) : (s.setCtx c x).xfers = s.xfers := rfl
@[simp] theorem State.setCtx_poisoned (c : Nat) (x : Ctx) : (s.setCtx c x).poisoned = s.poisoned := rfl
@[simp] theorem State.setCtx_spareUsed (c : Nat) (x : Ctx) : (s.setCtx c x).spareUsed = s.spareUsed := rfl
@[simp] theorem State.setCtx_zeroing (c : Nat) (x : Ctx) : (s.setCtx c x).zeroing = s.zeroing := rfl
@[simp] theorem State.setCtx_seamZero (c : Nat) (x : Ctx) : (s.setCtx c x).seamZero = s.seamZero := rfl
@[simp] theorem State.setCtx_seamPoison (c : Nat) (x : Ctx) : (s.setCtx c x).seamPoison = s.seamPoison := rfl
@[simp] theorem State.setCtx_quietAt (c : Nat) (x : Ctx) : (s.setCtx c x).quietAt = s.quietAt := rfl
@[simp] theorem State.setCtx_flueHomes (c : Nat) (x : Ctx) : (s.setCtx c x).flueHomes = s.flueHomes := rfl
@[simp] theorem State.setCtx_outOfUse (c : Nat) (x : Ctx) : (s.setCtx c x).outOfUse = s.outOfUse := rfl
@[simp] theorem State.setCtx_ledgerFault (c : Nat) (x : Ctx) : (s.setCtx c x).ledgerFault = s.ledgerFault := rfl
@[simp] theorem State.setCtx_degraded (c : Nat) (x : Ctx) : (s.setCtx c x).degraded = s.degraded := rfl
@[simp] theorem State.setCtx_hangs (c : Nat) (x : Ctx) : (s.setCtx c x).hangs = s.hangs := rfl
@[simp] theorem State.setCtx_nextHang (c : Nat) (x : Ctx) : (s.setCtx c x).nextHang = s.nextHang := rfl
@[simp] theorem State.setCtx_ashpit (c : Nat) (x : Ctx) : (s.setCtx c x).ashpit = s.ashpit := rfl
@[simp] theorem State.setCtx_ashpitNext (c : Nat) (x : Ctx) : (s.setCtx c x).ashpitNext = s.ashpitNext := rfl
@[simp] theorem State.setCtx_ashpitHead (c : Nat) (x : Ctx) : (s.setCtx c x).ashpitHead = s.ashpitHead := rfl
@[simp] theorem State.setCtx_mgmt (c : Nat) (x : Ctx) : (s.setCtx c x).mgmt = s.mgmt := rfl

@[simp] theorem State.modInst_pending (i : Inst) (f : InstState → InstState) : (s.modInst i f).pending = s.pending := rfl
@[simp] theorem State.modInst_freshCtr (i : Inst) (f : InstState → InstState) : (s.modInst i f).freshCtr = s.freshCtr := rfl
@[simp] theorem State.modInst_nextItem (i : Inst) (f : InstState → InstState) : (s.modInst i f).nextItem = s.nextItem := rfl
@[simp] theorem State.modInst_nextXfer (i : Inst) (f : InstState → InstState) : (s.modInst i f).nextXfer = s.nextXfer := rfl
@[simp] theorem State.modInst_out (i : Inst) (f : InstState → InstState) : (s.modInst i f).out = s.out := rfl
@[simp] theorem State.modInst_count (i : Inst) (f : InstState → InstState) : (s.modInst i f).count = s.count := rfl
@[simp] theorem State.modInst_running (i : Inst) (f : InstState → InstState) : (s.modInst i f).running = s.running := rfl
@[simp] theorem State.modInst_porst (i : Inst) (f : InstState → InstState) : (s.modInst i f).porst = s.porst := rfl
@[simp] theorem State.modInst_pilotFault (i : Inst) (f : InstState → InstState) : (s.modInst i f).pilotFault = s.pilotFault := rfl
@[simp] theorem State.modInst_mode (i : Inst) (f : InstState → InstState) : (s.modInst i f).mode = s.mode := rfl
@[simp] theorem State.modInst_power (i : Inst) (f : InstState → InstState) : (s.modInst i f).power = s.power := rfl
@[simp] theorem State.modInst_lastActivity (i : Inst) (f : InstState → InstState) : (s.modInst i f).lastActivity = s.lastActivity := rfl
@[simp] theorem State.modInst_lamp (i : Inst) (f : InstState → InstState) : (s.modInst i f).lamp = s.lamp := rfl
@[simp] theorem State.modInst_domains (i : Inst) (f : InstState → InstState) : (s.modInst i f).domains = s.domains := rfl
@[simp] theorem State.modInst_routing (i : Inst) (f : InstState → InstState) : (s.modInst i f).routing = s.routing := rfl
@[simp] theorem State.modInst_roots (i : Inst) (f : InstState → InstState) : (s.modInst i f).roots = s.roots := rfl
@[simp] theorem State.modInst_remap (i : Inst) (f : InstState → InstState) : (s.modInst i f).remap = s.remap := rfl
@[simp] theorem State.modInst_layoutRec (i : Inst) (f : InstState → InstState) : (s.modInst i f).layoutRec = s.layoutRec := rfl
@[simp] theorem State.modInst_layout (i : Inst) (f : InstState → InstState) : (s.modInst i f).layout = s.layout := rfl
@[simp] theorem State.modInst_norms (i : Inst) (f : InstState → InstState) : (s.modInst i f).norms = s.norms := rfl
@[simp] theorem State.modInst_threshold (i : Inst) (f : InstState → InstState) : (s.modInst i f).threshold = s.threshold := rfl
@[simp] theorem State.modInst_replicaEpoch (i : Inst) (f : InstState → InstState) : (s.modInst i f).replicaEpoch = s.replicaEpoch := rfl
@[simp] theorem State.modInst_storeEpoch (i : Inst) (f : InstState → InstState) : (s.modInst i f).storeEpoch = s.storeEpoch := rfl
@[simp] theorem State.modInst_reports (i : Inst) (f : InstState → InstState) : (s.modInst i f).reports = s.reports := rfl
@[simp] theorem State.modInst_reportsDropped (i : Inst) (f : InstState → InstState) : (s.modInst i f).reportsDropped = s.reportsDropped := rfl
@[simp] theorem State.modInst_reportSeq (i : Inst) (f : InstState → InstState) : (s.modInst i f).reportSeq = s.reportSeq := rfl
@[simp] theorem State.modInst_tallies (i : Inst) (f : InstState → InstState) : (s.modInst i f).tallies = s.tallies := rfl
@[simp] theorem State.modInst_domCounters (i : Inst) (f : InstState → InstState) : (s.modInst i f).domCounters = s.domCounters := rfl
@[simp] theorem State.modInst_devCounters (i : Inst) (f : InstState → InstState) : (s.modInst i f).devCounters = s.devCounters := rfl
@[simp] theorem State.modInst_recoveries (i : Inst) (f : InstState → InstState) : (s.modInst i f).recoveries = s.recoveries := rfl
@[simp] theorem State.modInst_fuses (i : Inst) (f : InstState → InstState) : (s.modInst i f).fuses = s.fuses := rfl
@[simp] theorem State.modInst_boot (i : Inst) (f : InstState → InstState) : (s.modInst i f).boot = s.boot := rfl
@[simp] theorem State.modInst_recovery (i : Inst) (f : InstState → InstState) : (s.modInst i f).recovery = s.recovery := rfl
@[simp] theorem State.modInst_pins (i : Inst) (f : InstState → InstState) : (s.modInst i f).pins = s.pins := rfl
@[simp] theorem State.modInst_rows (i : Inst) (f : InstState → InstState) : (s.modInst i f).rows = s.rows := rfl
@[simp] theorem State.modInst_insts (i : Inst) (f : InstState → InstState) : (s.modInst i f).insts = lmod s.insts i.idx f := rfl
@[simp] theorem State.modInst_foreman (i : Inst) (f : InstState → InstState) : (s.modInst i f).foreman = s.foreman := rfl
@[simp] theorem State.modInst_bulk (i : Inst) (f : InstState → InstState) : (s.modInst i f).bulk = s.bulk := rfl
@[simp] theorem State.modInst_ctxs (i : Inst) (f : InstState → InstState) : (s.modInst i f).ctxs = s.ctxs := rfl
@[simp] theorem State.modInst_adapters (i : Inst) (f : InstState → InstState) : (s.modInst i f).adapters = s.adapters := rfl
@[simp] theorem State.modInst_vocabs (i : Inst) (f : InstState → InstState) : (s.modInst i f).vocabs = s.vocabs := rfl
@[simp] theorem State.modInst_snapshots (i : Inst) (f : InstState → InstState) : (s.modInst i f).snapshots = s.snapshots := rfl
@[simp] theorem State.modInst_snapClock (i : Inst) (f : InstState → InstState) : (s.modInst i f).snapClock = s.snapClock := rfl
@[simp] theorem State.modInst_streams (i : Inst) (f : InstState → InstState) : (s.modInst i f).streams = s.streams := rfl
@[simp] theorem State.modInst_items (i : Inst) (f : InstState → InstState) : (s.modInst i f).items = s.items := rfl
@[simp] theorem State.modInst_store (i : Inst) (f : InstState → InstState) : (s.modInst i f).store = s.store := rfl
@[simp] theorem State.modInst_failed (i : Inst) (f : InstState → InstState) : (s.modInst i f).failed = s.failed := rfl
@[simp] theorem State.modInst_remapping (i : Inst) (f : InstState → InstState) : (s.modInst i f).remapping = s.remapping := rfl
@[simp] theorem State.modInst_chains (i : Inst) (f : InstState → InstState) : (s.modInst i f).chains = s.chains := rfl
@[simp] theorem State.modInst_passes (i : Inst) (f : InstState → InstState) : (s.modInst i f).passes = s.passes := rfl
@[simp] theorem State.modInst_shaft (i : Inst) (f : InstState → InstState) : (s.modInst i f).shaft = s.shaft := rfl
@[simp] theorem State.modInst_credits (i : Inst) (f : InstState → InstState) : (s.modInst i f).credits = s.credits := rfl
@[simp] theorem State.modInst_queuedTx (i : Inst) (f : InstState → InstState) : (s.modInst i f).queuedTx = s.queuedTx := rfl
@[simp] theorem State.modInst_mem (i : Inst) (f : InstState → InstState) : (s.modInst i f).mem = s.mem := rfl
@[simp] theorem State.modInst_drift (i : Inst) (f : InstState → InstState) : (s.modInst i f).drift = s.drift := rfl
@[simp] theorem State.modInst_replicas (i : Inst) (f : InstState → InstState) : (s.modInst i f).replicas = s.replicas := rfl
@[simp] theorem State.modInst_dead (i : Inst) (f : InstState → InstState) : (s.modInst i f).dead = s.dead := rfl
@[simp] theorem State.modInst_xfers (i : Inst) (f : InstState → InstState) : (s.modInst i f).xfers = s.xfers := rfl
@[simp] theorem State.modInst_poisoned (i : Inst) (f : InstState → InstState) : (s.modInst i f).poisoned = s.poisoned := rfl
@[simp] theorem State.modInst_spareUsed (i : Inst) (f : InstState → InstState) : (s.modInst i f).spareUsed = s.spareUsed := rfl
@[simp] theorem State.modInst_zeroing (i : Inst) (f : InstState → InstState) : (s.modInst i f).zeroing = s.zeroing := rfl
@[simp] theorem State.modInst_seamZero (i : Inst) (f : InstState → InstState) : (s.modInst i f).seamZero = s.seamZero := rfl
@[simp] theorem State.modInst_seamPoison (i : Inst) (f : InstState → InstState) : (s.modInst i f).seamPoison = s.seamPoison := rfl
@[simp] theorem State.modInst_quietAt (i : Inst) (f : InstState → InstState) : (s.modInst i f).quietAt = s.quietAt := rfl
@[simp] theorem State.modInst_flueHomes (i : Inst) (f : InstState → InstState) : (s.modInst i f).flueHomes = s.flueHomes := rfl
@[simp] theorem State.modInst_outOfUse (i : Inst) (f : InstState → InstState) : (s.modInst i f).outOfUse = s.outOfUse := rfl
@[simp] theorem State.modInst_ledgerFault (i : Inst) (f : InstState → InstState) : (s.modInst i f).ledgerFault = s.ledgerFault := rfl
@[simp] theorem State.modInst_degraded (i : Inst) (f : InstState → InstState) : (s.modInst i f).degraded = s.degraded := rfl
@[simp] theorem State.modInst_hangs (i : Inst) (f : InstState → InstState) : (s.modInst i f).hangs = s.hangs := rfl
@[simp] theorem State.modInst_nextHang (i : Inst) (f : InstState → InstState) : (s.modInst i f).nextHang = s.nextHang := rfl
@[simp] theorem State.modInst_ashpit (i : Inst) (f : InstState → InstState) : (s.modInst i f).ashpit = s.ashpit := rfl
@[simp] theorem State.modInst_ashpitNext (i : Inst) (f : InstState → InstState) : (s.modInst i f).ashpitNext = s.ashpitNext := rfl
@[simp] theorem State.modInst_ashpitHead (i : Inst) (f : InstState → InstState) : (s.modInst i f).ashpitHead = s.ashpitHead := rfl
@[simp] theorem State.modInst_mgmt (i : Inst) (f : InstState → InstState) : (s.modInst i f).mgmt = s.mgmt := rfl

@[simp] theorem State.modStream_pending (n : Nat) (f : Stream → Stream) : (s.modStream n f).pending = s.pending := rfl
@[simp] theorem State.modStream_freshCtr (n : Nat) (f : Stream → Stream) : (s.modStream n f).freshCtr = s.freshCtr := rfl
@[simp] theorem State.modStream_nextItem (n : Nat) (f : Stream → Stream) : (s.modStream n f).nextItem = s.nextItem := rfl
@[simp] theorem State.modStream_nextXfer (n : Nat) (f : Stream → Stream) : (s.modStream n f).nextXfer = s.nextXfer := rfl
@[simp] theorem State.modStream_out (n : Nat) (f : Stream → Stream) : (s.modStream n f).out = s.out := rfl
@[simp] theorem State.modStream_count (n : Nat) (f : Stream → Stream) : (s.modStream n f).count = s.count := rfl
@[simp] theorem State.modStream_running (n : Nat) (f : Stream → Stream) : (s.modStream n f).running = s.running := rfl
@[simp] theorem State.modStream_porst (n : Nat) (f : Stream → Stream) : (s.modStream n f).porst = s.porst := rfl
@[simp] theorem State.modStream_pilotFault (n : Nat) (f : Stream → Stream) : (s.modStream n f).pilotFault = s.pilotFault := rfl
@[simp] theorem State.modStream_mode (n : Nat) (f : Stream → Stream) : (s.modStream n f).mode = s.mode := rfl
@[simp] theorem State.modStream_power (n : Nat) (f : Stream → Stream) : (s.modStream n f).power = s.power := rfl
@[simp] theorem State.modStream_lastActivity (n : Nat) (f : Stream → Stream) : (s.modStream n f).lastActivity = s.lastActivity := rfl
@[simp] theorem State.modStream_lamp (n : Nat) (f : Stream → Stream) : (s.modStream n f).lamp = s.lamp := rfl
@[simp] theorem State.modStream_domains (n : Nat) (f : Stream → Stream) : (s.modStream n f).domains = s.domains := rfl
@[simp] theorem State.modStream_routing (n : Nat) (f : Stream → Stream) : (s.modStream n f).routing = s.routing := rfl
@[simp] theorem State.modStream_roots (n : Nat) (f : Stream → Stream) : (s.modStream n f).roots = s.roots := rfl
@[simp] theorem State.modStream_remap (n : Nat) (f : Stream → Stream) : (s.modStream n f).remap = s.remap := rfl
@[simp] theorem State.modStream_layoutRec (n : Nat) (f : Stream → Stream) : (s.modStream n f).layoutRec = s.layoutRec := rfl
@[simp] theorem State.modStream_layout (n : Nat) (f : Stream → Stream) : (s.modStream n f).layout = s.layout := rfl
@[simp] theorem State.modStream_norms (n : Nat) (f : Stream → Stream) : (s.modStream n f).norms = s.norms := rfl
@[simp] theorem State.modStream_threshold (n : Nat) (f : Stream → Stream) : (s.modStream n f).threshold = s.threshold := rfl
@[simp] theorem State.modStream_replicaEpoch (n : Nat) (f : Stream → Stream) : (s.modStream n f).replicaEpoch = s.replicaEpoch := rfl
@[simp] theorem State.modStream_storeEpoch (n : Nat) (f : Stream → Stream) : (s.modStream n f).storeEpoch = s.storeEpoch := rfl
@[simp] theorem State.modStream_reports (n : Nat) (f : Stream → Stream) : (s.modStream n f).reports = s.reports := rfl
@[simp] theorem State.modStream_reportsDropped (n : Nat) (f : Stream → Stream) : (s.modStream n f).reportsDropped = s.reportsDropped := rfl
@[simp] theorem State.modStream_reportSeq (n : Nat) (f : Stream → Stream) : (s.modStream n f).reportSeq = s.reportSeq := rfl
@[simp] theorem State.modStream_tallies (n : Nat) (f : Stream → Stream) : (s.modStream n f).tallies = s.tallies := rfl
@[simp] theorem State.modStream_domCounters (n : Nat) (f : Stream → Stream) : (s.modStream n f).domCounters = s.domCounters := rfl
@[simp] theorem State.modStream_devCounters (n : Nat) (f : Stream → Stream) : (s.modStream n f).devCounters = s.devCounters := rfl
@[simp] theorem State.modStream_recoveries (n : Nat) (f : Stream → Stream) : (s.modStream n f).recoveries = s.recoveries := rfl
@[simp] theorem State.modStream_fuses (n : Nat) (f : Stream → Stream) : (s.modStream n f).fuses = s.fuses := rfl
@[simp] theorem State.modStream_boot (n : Nat) (f : Stream → Stream) : (s.modStream n f).boot = s.boot := rfl
@[simp] theorem State.modStream_recovery (n : Nat) (f : Stream → Stream) : (s.modStream n f).recovery = s.recovery := rfl
@[simp] theorem State.modStream_pins (n : Nat) (f : Stream → Stream) : (s.modStream n f).pins = s.pins := rfl
@[simp] theorem State.modStream_rows (n : Nat) (f : Stream → Stream) : (s.modStream n f).rows = s.rows := rfl
@[simp] theorem State.modStream_insts (n : Nat) (f : Stream → Stream) : (s.modStream n f).insts = s.insts := rfl
@[simp] theorem State.modStream_foreman (n : Nat) (f : Stream → Stream) : (s.modStream n f).foreman = s.foreman := rfl
@[simp] theorem State.modStream_bulk (n : Nat) (f : Stream → Stream) : (s.modStream n f).bulk = s.bulk := rfl
@[simp] theorem State.modStream_ctxs (n : Nat) (f : Stream → Stream) : (s.modStream n f).ctxs = s.ctxs := rfl
@[simp] theorem State.modStream_adapters (n : Nat) (f : Stream → Stream) : (s.modStream n f).adapters = s.adapters := rfl
@[simp] theorem State.modStream_vocabs (n : Nat) (f : Stream → Stream) : (s.modStream n f).vocabs = s.vocabs := rfl
@[simp] theorem State.modStream_snapshots (n : Nat) (f : Stream → Stream) : (s.modStream n f).snapshots = s.snapshots := rfl
@[simp] theorem State.modStream_snapClock (n : Nat) (f : Stream → Stream) : (s.modStream n f).snapClock = s.snapClock := rfl
@[simp] theorem State.modStream_streams (n : Nat) (f : Stream → Stream) : (s.modStream n f).streams = tmod s.streams n f := rfl
@[simp] theorem State.modStream_items (n : Nat) (f : Stream → Stream) : (s.modStream n f).items = s.items := rfl
@[simp] theorem State.modStream_store (n : Nat) (f : Stream → Stream) : (s.modStream n f).store = s.store := rfl
@[simp] theorem State.modStream_failed (n : Nat) (f : Stream → Stream) : (s.modStream n f).failed = s.failed := rfl
@[simp] theorem State.modStream_remapping (n : Nat) (f : Stream → Stream) : (s.modStream n f).remapping = s.remapping := rfl
@[simp] theorem State.modStream_chains (n : Nat) (f : Stream → Stream) : (s.modStream n f).chains = s.chains := rfl
@[simp] theorem State.modStream_passes (n : Nat) (f : Stream → Stream) : (s.modStream n f).passes = s.passes := rfl
@[simp] theorem State.modStream_shaft (n : Nat) (f : Stream → Stream) : (s.modStream n f).shaft = s.shaft := rfl
@[simp] theorem State.modStream_credits (n : Nat) (f : Stream → Stream) : (s.modStream n f).credits = s.credits := rfl
@[simp] theorem State.modStream_queuedTx (n : Nat) (f : Stream → Stream) : (s.modStream n f).queuedTx = s.queuedTx := rfl
@[simp] theorem State.modStream_mem (n : Nat) (f : Stream → Stream) : (s.modStream n f).mem = s.mem := rfl
@[simp] theorem State.modStream_drift (n : Nat) (f : Stream → Stream) : (s.modStream n f).drift = s.drift := rfl
@[simp] theorem State.modStream_replicas (n : Nat) (f : Stream → Stream) : (s.modStream n f).replicas = s.replicas := rfl
@[simp] theorem State.modStream_dead (n : Nat) (f : Stream → Stream) : (s.modStream n f).dead = s.dead := rfl
@[simp] theorem State.modStream_xfers (n : Nat) (f : Stream → Stream) : (s.modStream n f).xfers = s.xfers := rfl
@[simp] theorem State.modStream_poisoned (n : Nat) (f : Stream → Stream) : (s.modStream n f).poisoned = s.poisoned := rfl
@[simp] theorem State.modStream_spareUsed (n : Nat) (f : Stream → Stream) : (s.modStream n f).spareUsed = s.spareUsed := rfl
@[simp] theorem State.modStream_zeroing (n : Nat) (f : Stream → Stream) : (s.modStream n f).zeroing = s.zeroing := rfl
@[simp] theorem State.modStream_seamZero (n : Nat) (f : Stream → Stream) : (s.modStream n f).seamZero = s.seamZero := rfl
@[simp] theorem State.modStream_seamPoison (n : Nat) (f : Stream → Stream) : (s.modStream n f).seamPoison = s.seamPoison := rfl
@[simp] theorem State.modStream_quietAt (n : Nat) (f : Stream → Stream) : (s.modStream n f).quietAt = s.quietAt := rfl
@[simp] theorem State.modStream_flueHomes (n : Nat) (f : Stream → Stream) : (s.modStream n f).flueHomes = s.flueHomes := rfl
@[simp] theorem State.modStream_outOfUse (n : Nat) (f : Stream → Stream) : (s.modStream n f).outOfUse = s.outOfUse := rfl
@[simp] theorem State.modStream_ledgerFault (n : Nat) (f : Stream → Stream) : (s.modStream n f).ledgerFault = s.ledgerFault := rfl
@[simp] theorem State.modStream_degraded (n : Nat) (f : Stream → Stream) : (s.modStream n f).degraded = s.degraded := rfl
@[simp] theorem State.modStream_hangs (n : Nat) (f : Stream → Stream) : (s.modStream n f).hangs = s.hangs := rfl
@[simp] theorem State.modStream_nextHang (n : Nat) (f : Stream → Stream) : (s.modStream n f).nextHang = s.nextHang := rfl
@[simp] theorem State.modStream_ashpit (n : Nat) (f : Stream → Stream) : (s.modStream n f).ashpit = s.ashpit := rfl
@[simp] theorem State.modStream_ashpitNext (n : Nat) (f : Stream → Stream) : (s.modStream n f).ashpitNext = s.ashpitNext := rfl
@[simp] theorem State.modStream_ashpitHead (n : Nat) (f : Stream → Stream) : (s.modStream n f).ashpitHead = s.ashpitHead := rfl
@[simp] theorem State.modStream_mgmt (n : Nat) (f : Stream → Stream) : (s.modStream n f).mgmt = s.mgmt := rfl

@[simp] theorem State.modEntry_pending (n : Nat) (f : Entry → Entry) : (s.modEntry n f).pending = s.pending := rfl
@[simp] theorem State.modEntry_freshCtr (n : Nat) (f : Entry → Entry) : (s.modEntry n f).freshCtr = s.freshCtr := rfl
@[simp] theorem State.modEntry_nextItem (n : Nat) (f : Entry → Entry) : (s.modEntry n f).nextItem = s.nextItem := rfl
@[simp] theorem State.modEntry_nextXfer (n : Nat) (f : Entry → Entry) : (s.modEntry n f).nextXfer = s.nextXfer := rfl
@[simp] theorem State.modEntry_out (n : Nat) (f : Entry → Entry) : (s.modEntry n f).out = s.out := rfl
@[simp] theorem State.modEntry_count (n : Nat) (f : Entry → Entry) : (s.modEntry n f).count = s.count := rfl
@[simp] theorem State.modEntry_running (n : Nat) (f : Entry → Entry) : (s.modEntry n f).running = s.running := rfl
@[simp] theorem State.modEntry_porst (n : Nat) (f : Entry → Entry) : (s.modEntry n f).porst = s.porst := rfl
@[simp] theorem State.modEntry_pilotFault (n : Nat) (f : Entry → Entry) : (s.modEntry n f).pilotFault = s.pilotFault := rfl
@[simp] theorem State.modEntry_mode (n : Nat) (f : Entry → Entry) : (s.modEntry n f).mode = s.mode := rfl
@[simp] theorem State.modEntry_power (n : Nat) (f : Entry → Entry) : (s.modEntry n f).power = s.power := rfl
@[simp] theorem State.modEntry_lastActivity (n : Nat) (f : Entry → Entry) : (s.modEntry n f).lastActivity = s.lastActivity := rfl
@[simp] theorem State.modEntry_lamp (n : Nat) (f : Entry → Entry) : (s.modEntry n f).lamp = s.lamp := rfl
@[simp] theorem State.modEntry_domains (n : Nat) (f : Entry → Entry) : (s.modEntry n f).domains = s.domains := rfl
@[simp] theorem State.modEntry_routing (n : Nat) (f : Entry → Entry) : (s.modEntry n f).routing = s.routing := rfl
@[simp] theorem State.modEntry_roots (n : Nat) (f : Entry → Entry) : (s.modEntry n f).roots = s.roots := rfl
@[simp] theorem State.modEntry_remap (n : Nat) (f : Entry → Entry) : (s.modEntry n f).remap = s.remap := rfl
@[simp] theorem State.modEntry_layoutRec (n : Nat) (f : Entry → Entry) : (s.modEntry n f).layoutRec = s.layoutRec := rfl
@[simp] theorem State.modEntry_layout (n : Nat) (f : Entry → Entry) : (s.modEntry n f).layout = s.layout := rfl
@[simp] theorem State.modEntry_norms (n : Nat) (f : Entry → Entry) : (s.modEntry n f).norms = s.norms := rfl
@[simp] theorem State.modEntry_threshold (n : Nat) (f : Entry → Entry) : (s.modEntry n f).threshold = s.threshold := rfl
@[simp] theorem State.modEntry_replicaEpoch (n : Nat) (f : Entry → Entry) : (s.modEntry n f).replicaEpoch = s.replicaEpoch := rfl
@[simp] theorem State.modEntry_storeEpoch (n : Nat) (f : Entry → Entry) : (s.modEntry n f).storeEpoch = s.storeEpoch := rfl
@[simp] theorem State.modEntry_reports (n : Nat) (f : Entry → Entry) : (s.modEntry n f).reports = s.reports := rfl
@[simp] theorem State.modEntry_reportsDropped (n : Nat) (f : Entry → Entry) : (s.modEntry n f).reportsDropped = s.reportsDropped := rfl
@[simp] theorem State.modEntry_reportSeq (n : Nat) (f : Entry → Entry) : (s.modEntry n f).reportSeq = s.reportSeq := rfl
@[simp] theorem State.modEntry_tallies (n : Nat) (f : Entry → Entry) : (s.modEntry n f).tallies = s.tallies := rfl
@[simp] theorem State.modEntry_domCounters (n : Nat) (f : Entry → Entry) : (s.modEntry n f).domCounters = s.domCounters := rfl
@[simp] theorem State.modEntry_devCounters (n : Nat) (f : Entry → Entry) : (s.modEntry n f).devCounters = s.devCounters := rfl
@[simp] theorem State.modEntry_recoveries (n : Nat) (f : Entry → Entry) : (s.modEntry n f).recoveries = s.recoveries := rfl
@[simp] theorem State.modEntry_fuses (n : Nat) (f : Entry → Entry) : (s.modEntry n f).fuses = s.fuses := rfl
@[simp] theorem State.modEntry_boot (n : Nat) (f : Entry → Entry) : (s.modEntry n f).boot = s.boot := rfl
@[simp] theorem State.modEntry_recovery (n : Nat) (f : Entry → Entry) : (s.modEntry n f).recovery = s.recovery := rfl
@[simp] theorem State.modEntry_pins (n : Nat) (f : Entry → Entry) : (s.modEntry n f).pins = s.pins := rfl
@[simp] theorem State.modEntry_rows (n : Nat) (f : Entry → Entry) : (s.modEntry n f).rows = s.rows := rfl
@[simp] theorem State.modEntry_insts (n : Nat) (f : Entry → Entry) : (s.modEntry n f).insts = s.insts := rfl
@[simp] theorem State.modEntry_foreman (n : Nat) (f : Entry → Entry) : (s.modEntry n f).foreman = s.foreman := rfl
@[simp] theorem State.modEntry_bulk (n : Nat) (f : Entry → Entry) : (s.modEntry n f).bulk = s.bulk := rfl
@[simp] theorem State.modEntry_ctxs (n : Nat) (f : Entry → Entry) : (s.modEntry n f).ctxs = s.ctxs := rfl
@[simp] theorem State.modEntry_adapters (n : Nat) (f : Entry → Entry) : (s.modEntry n f).adapters = s.adapters := rfl
@[simp] theorem State.modEntry_vocabs (n : Nat) (f : Entry → Entry) : (s.modEntry n f).vocabs = s.vocabs := rfl
@[simp] theorem State.modEntry_snapshots (n : Nat) (f : Entry → Entry) : (s.modEntry n f).snapshots = s.snapshots := rfl
@[simp] theorem State.modEntry_snapClock (n : Nat) (f : Entry → Entry) : (s.modEntry n f).snapClock = s.snapClock := rfl
@[simp] theorem State.modEntry_streams (n : Nat) (f : Entry → Entry) : (s.modEntry n f).streams = tmod s.streams n fun x => { x with e := f x.e } := rfl
@[simp] theorem State.modEntry_items (n : Nat) (f : Entry → Entry) : (s.modEntry n f).items = s.items := rfl
@[simp] theorem State.modEntry_store (n : Nat) (f : Entry → Entry) : (s.modEntry n f).store = s.store := rfl
@[simp] theorem State.modEntry_failed (n : Nat) (f : Entry → Entry) : (s.modEntry n f).failed = s.failed := rfl
@[simp] theorem State.modEntry_remapping (n : Nat) (f : Entry → Entry) : (s.modEntry n f).remapping = s.remapping := rfl
@[simp] theorem State.modEntry_chains (n : Nat) (f : Entry → Entry) : (s.modEntry n f).chains = s.chains := rfl
@[simp] theorem State.modEntry_passes (n : Nat) (f : Entry → Entry) : (s.modEntry n f).passes = s.passes := rfl
@[simp] theorem State.modEntry_shaft (n : Nat) (f : Entry → Entry) : (s.modEntry n f).shaft = s.shaft := rfl
@[simp] theorem State.modEntry_credits (n : Nat) (f : Entry → Entry) : (s.modEntry n f).credits = s.credits := rfl
@[simp] theorem State.modEntry_queuedTx (n : Nat) (f : Entry → Entry) : (s.modEntry n f).queuedTx = s.queuedTx := rfl
@[simp] theorem State.modEntry_mem (n : Nat) (f : Entry → Entry) : (s.modEntry n f).mem = s.mem := rfl
@[simp] theorem State.modEntry_drift (n : Nat) (f : Entry → Entry) : (s.modEntry n f).drift = s.drift := rfl
@[simp] theorem State.modEntry_replicas (n : Nat) (f : Entry → Entry) : (s.modEntry n f).replicas = s.replicas := rfl
@[simp] theorem State.modEntry_dead (n : Nat) (f : Entry → Entry) : (s.modEntry n f).dead = s.dead := rfl
@[simp] theorem State.modEntry_xfers (n : Nat) (f : Entry → Entry) : (s.modEntry n f).xfers = s.xfers := rfl
@[simp] theorem State.modEntry_poisoned (n : Nat) (f : Entry → Entry) : (s.modEntry n f).poisoned = s.poisoned := rfl
@[simp] theorem State.modEntry_spareUsed (n : Nat) (f : Entry → Entry) : (s.modEntry n f).spareUsed = s.spareUsed := rfl
@[simp] theorem State.modEntry_zeroing (n : Nat) (f : Entry → Entry) : (s.modEntry n f).zeroing = s.zeroing := rfl
@[simp] theorem State.modEntry_seamZero (n : Nat) (f : Entry → Entry) : (s.modEntry n f).seamZero = s.seamZero := rfl
@[simp] theorem State.modEntry_seamPoison (n : Nat) (f : Entry → Entry) : (s.modEntry n f).seamPoison = s.seamPoison := rfl
@[simp] theorem State.modEntry_quietAt (n : Nat) (f : Entry → Entry) : (s.modEntry n f).quietAt = s.quietAt := rfl
@[simp] theorem State.modEntry_flueHomes (n : Nat) (f : Entry → Entry) : (s.modEntry n f).flueHomes = s.flueHomes := rfl
@[simp] theorem State.modEntry_outOfUse (n : Nat) (f : Entry → Entry) : (s.modEntry n f).outOfUse = s.outOfUse := rfl
@[simp] theorem State.modEntry_ledgerFault (n : Nat) (f : Entry → Entry) : (s.modEntry n f).ledgerFault = s.ledgerFault := rfl
@[simp] theorem State.modEntry_degraded (n : Nat) (f : Entry → Entry) : (s.modEntry n f).degraded = s.degraded := rfl
@[simp] theorem State.modEntry_hangs (n : Nat) (f : Entry → Entry) : (s.modEntry n f).hangs = s.hangs := rfl
@[simp] theorem State.modEntry_nextHang (n : Nat) (f : Entry → Entry) : (s.modEntry n f).nextHang = s.nextHang := rfl
@[simp] theorem State.modEntry_ashpit (n : Nat) (f : Entry → Entry) : (s.modEntry n f).ashpit = s.ashpit := rfl
@[simp] theorem State.modEntry_ashpitNext (n : Nat) (f : Entry → Entry) : (s.modEntry n f).ashpitNext = s.ashpitNext := rfl
@[simp] theorem State.modEntry_ashpitHead (n : Nat) (f : Entry → Entry) : (s.modEntry n f).ashpitHead = s.ashpitHead := rfl
@[simp] theorem State.modEntry_mgmt (n : Nat) (f : Entry → Entry) : (s.modEntry n f).mgmt = s.mgmt := rfl

@[simp] theorem State.modItem_pending (n : Nat) (f : Item → Item) : (s.modItem n f).pending = s.pending := rfl
@[simp] theorem State.modItem_freshCtr (n : Nat) (f : Item → Item) : (s.modItem n f).freshCtr = s.freshCtr := rfl
@[simp] theorem State.modItem_nextItem (n : Nat) (f : Item → Item) : (s.modItem n f).nextItem = s.nextItem := rfl
@[simp] theorem State.modItem_nextXfer (n : Nat) (f : Item → Item) : (s.modItem n f).nextXfer = s.nextXfer := rfl
@[simp] theorem State.modItem_out (n : Nat) (f : Item → Item) : (s.modItem n f).out = s.out := rfl
@[simp] theorem State.modItem_count (n : Nat) (f : Item → Item) : (s.modItem n f).count = s.count := rfl
@[simp] theorem State.modItem_running (n : Nat) (f : Item → Item) : (s.modItem n f).running = s.running := rfl
@[simp] theorem State.modItem_porst (n : Nat) (f : Item → Item) : (s.modItem n f).porst = s.porst := rfl
@[simp] theorem State.modItem_pilotFault (n : Nat) (f : Item → Item) : (s.modItem n f).pilotFault = s.pilotFault := rfl
@[simp] theorem State.modItem_mode (n : Nat) (f : Item → Item) : (s.modItem n f).mode = s.mode := rfl
@[simp] theorem State.modItem_power (n : Nat) (f : Item → Item) : (s.modItem n f).power = s.power := rfl
@[simp] theorem State.modItem_lastActivity (n : Nat) (f : Item → Item) : (s.modItem n f).lastActivity = s.lastActivity := rfl
@[simp] theorem State.modItem_lamp (n : Nat) (f : Item → Item) : (s.modItem n f).lamp = s.lamp := rfl
@[simp] theorem State.modItem_domains (n : Nat) (f : Item → Item) : (s.modItem n f).domains = s.domains := rfl
@[simp] theorem State.modItem_routing (n : Nat) (f : Item → Item) : (s.modItem n f).routing = s.routing := rfl
@[simp] theorem State.modItem_roots (n : Nat) (f : Item → Item) : (s.modItem n f).roots = s.roots := rfl
@[simp] theorem State.modItem_remap (n : Nat) (f : Item → Item) : (s.modItem n f).remap = s.remap := rfl
@[simp] theorem State.modItem_layoutRec (n : Nat) (f : Item → Item) : (s.modItem n f).layoutRec = s.layoutRec := rfl
@[simp] theorem State.modItem_layout (n : Nat) (f : Item → Item) : (s.modItem n f).layout = s.layout := rfl
@[simp] theorem State.modItem_norms (n : Nat) (f : Item → Item) : (s.modItem n f).norms = s.norms := rfl
@[simp] theorem State.modItem_threshold (n : Nat) (f : Item → Item) : (s.modItem n f).threshold = s.threshold := rfl
@[simp] theorem State.modItem_replicaEpoch (n : Nat) (f : Item → Item) : (s.modItem n f).replicaEpoch = s.replicaEpoch := rfl
@[simp] theorem State.modItem_storeEpoch (n : Nat) (f : Item → Item) : (s.modItem n f).storeEpoch = s.storeEpoch := rfl
@[simp] theorem State.modItem_reports (n : Nat) (f : Item → Item) : (s.modItem n f).reports = s.reports := rfl
@[simp] theorem State.modItem_reportsDropped (n : Nat) (f : Item → Item) : (s.modItem n f).reportsDropped = s.reportsDropped := rfl
@[simp] theorem State.modItem_reportSeq (n : Nat) (f : Item → Item) : (s.modItem n f).reportSeq = s.reportSeq := rfl
@[simp] theorem State.modItem_tallies (n : Nat) (f : Item → Item) : (s.modItem n f).tallies = s.tallies := rfl
@[simp] theorem State.modItem_domCounters (n : Nat) (f : Item → Item) : (s.modItem n f).domCounters = s.domCounters := rfl
@[simp] theorem State.modItem_devCounters (n : Nat) (f : Item → Item) : (s.modItem n f).devCounters = s.devCounters := rfl
@[simp] theorem State.modItem_recoveries (n : Nat) (f : Item → Item) : (s.modItem n f).recoveries = s.recoveries := rfl
@[simp] theorem State.modItem_fuses (n : Nat) (f : Item → Item) : (s.modItem n f).fuses = s.fuses := rfl
@[simp] theorem State.modItem_boot (n : Nat) (f : Item → Item) : (s.modItem n f).boot = s.boot := rfl
@[simp] theorem State.modItem_recovery (n : Nat) (f : Item → Item) : (s.modItem n f).recovery = s.recovery := rfl
@[simp] theorem State.modItem_pins (n : Nat) (f : Item → Item) : (s.modItem n f).pins = s.pins := rfl
@[simp] theorem State.modItem_rows (n : Nat) (f : Item → Item) : (s.modItem n f).rows = s.rows := rfl
@[simp] theorem State.modItem_insts (n : Nat) (f : Item → Item) : (s.modItem n f).insts = s.insts := rfl
@[simp] theorem State.modItem_foreman (n : Nat) (f : Item → Item) : (s.modItem n f).foreman = s.foreman := rfl
@[simp] theorem State.modItem_bulk (n : Nat) (f : Item → Item) : (s.modItem n f).bulk = s.bulk := rfl
@[simp] theorem State.modItem_ctxs (n : Nat) (f : Item → Item) : (s.modItem n f).ctxs = s.ctxs := rfl
@[simp] theorem State.modItem_adapters (n : Nat) (f : Item → Item) : (s.modItem n f).adapters = s.adapters := rfl
@[simp] theorem State.modItem_vocabs (n : Nat) (f : Item → Item) : (s.modItem n f).vocabs = s.vocabs := rfl
@[simp] theorem State.modItem_snapshots (n : Nat) (f : Item → Item) : (s.modItem n f).snapshots = s.snapshots := rfl
@[simp] theorem State.modItem_snapClock (n : Nat) (f : Item → Item) : (s.modItem n f).snapClock = s.snapClock := rfl
@[simp] theorem State.modItem_streams (n : Nat) (f : Item → Item) : (s.modItem n f).streams = s.streams := rfl
@[simp] theorem State.modItem_items (n : Nat) (f : Item → Item) : (s.modItem n f).items = tmod s.items n f := rfl
@[simp] theorem State.modItem_store (n : Nat) (f : Item → Item) : (s.modItem n f).store = s.store := rfl
@[simp] theorem State.modItem_failed (n : Nat) (f : Item → Item) : (s.modItem n f).failed = s.failed := rfl
@[simp] theorem State.modItem_remapping (n : Nat) (f : Item → Item) : (s.modItem n f).remapping = s.remapping := rfl
@[simp] theorem State.modItem_chains (n : Nat) (f : Item → Item) : (s.modItem n f).chains = s.chains := rfl
@[simp] theorem State.modItem_passes (n : Nat) (f : Item → Item) : (s.modItem n f).passes = s.passes := rfl
@[simp] theorem State.modItem_shaft (n : Nat) (f : Item → Item) : (s.modItem n f).shaft = s.shaft := rfl
@[simp] theorem State.modItem_credits (n : Nat) (f : Item → Item) : (s.modItem n f).credits = s.credits := rfl
@[simp] theorem State.modItem_queuedTx (n : Nat) (f : Item → Item) : (s.modItem n f).queuedTx = s.queuedTx := rfl
@[simp] theorem State.modItem_mem (n : Nat) (f : Item → Item) : (s.modItem n f).mem = s.mem := rfl
@[simp] theorem State.modItem_drift (n : Nat) (f : Item → Item) : (s.modItem n f).drift = s.drift := rfl
@[simp] theorem State.modItem_replicas (n : Nat) (f : Item → Item) : (s.modItem n f).replicas = s.replicas := rfl
@[simp] theorem State.modItem_dead (n : Nat) (f : Item → Item) : (s.modItem n f).dead = s.dead := rfl
@[simp] theorem State.modItem_xfers (n : Nat) (f : Item → Item) : (s.modItem n f).xfers = s.xfers := rfl
@[simp] theorem State.modItem_poisoned (n : Nat) (f : Item → Item) : (s.modItem n f).poisoned = s.poisoned := rfl
@[simp] theorem State.modItem_spareUsed (n : Nat) (f : Item → Item) : (s.modItem n f).spareUsed = s.spareUsed := rfl
@[simp] theorem State.modItem_zeroing (n : Nat) (f : Item → Item) : (s.modItem n f).zeroing = s.zeroing := rfl
@[simp] theorem State.modItem_seamZero (n : Nat) (f : Item → Item) : (s.modItem n f).seamZero = s.seamZero := rfl
@[simp] theorem State.modItem_seamPoison (n : Nat) (f : Item → Item) : (s.modItem n f).seamPoison = s.seamPoison := rfl
@[simp] theorem State.modItem_quietAt (n : Nat) (f : Item → Item) : (s.modItem n f).quietAt = s.quietAt := rfl
@[simp] theorem State.modItem_flueHomes (n : Nat) (f : Item → Item) : (s.modItem n f).flueHomes = s.flueHomes := rfl
@[simp] theorem State.modItem_outOfUse (n : Nat) (f : Item → Item) : (s.modItem n f).outOfUse = s.outOfUse := rfl
@[simp] theorem State.modItem_ledgerFault (n : Nat) (f : Item → Item) : (s.modItem n f).ledgerFault = s.ledgerFault := rfl
@[simp] theorem State.modItem_degraded (n : Nat) (f : Item → Item) : (s.modItem n f).degraded = s.degraded := rfl
@[simp] theorem State.modItem_hangs (n : Nat) (f : Item → Item) : (s.modItem n f).hangs = s.hangs := rfl
@[simp] theorem State.modItem_nextHang (n : Nat) (f : Item → Item) : (s.modItem n f).nextHang = s.nextHang := rfl
@[simp] theorem State.modItem_ashpit (n : Nat) (f : Item → Item) : (s.modItem n f).ashpit = s.ashpit := rfl
@[simp] theorem State.modItem_ashpitNext (n : Nat) (f : Item → Item) : (s.modItem n f).ashpitNext = s.ashpitNext := rfl
@[simp] theorem State.modItem_ashpitHead (n : Nat) (f : Item → Item) : (s.modItem n f).ashpitHead = s.ashpitHead := rfl
@[simp] theorem State.modItem_mgmt (n : Nat) (f : Item → Item) : (s.modItem n f).mgmt = s.mgmt := rfl

@[simp] theorem State.addItem_pending (it : Item) : (s.addItem it).pending = s.pending := rfl
@[simp] theorem State.addItem_freshCtr (it : Item) : (s.addItem it).freshCtr = s.freshCtr := rfl
@[simp] theorem State.addItem_nextItem (it : Item) : (s.addItem it).nextItem = s.nextItem + 1 := rfl
@[simp] theorem State.addItem_nextXfer (it : Item) : (s.addItem it).nextXfer = s.nextXfer := rfl
@[simp] theorem State.addItem_out (it : Item) : (s.addItem it).out = s.out := rfl
@[simp] theorem State.addItem_count (it : Item) : (s.addItem it).count = s.count := rfl
@[simp] theorem State.addItem_running (it : Item) : (s.addItem it).running = s.running := rfl
@[simp] theorem State.addItem_porst (it : Item) : (s.addItem it).porst = s.porst := rfl
@[simp] theorem State.addItem_pilotFault (it : Item) : (s.addItem it).pilotFault = s.pilotFault := rfl
@[simp] theorem State.addItem_mode (it : Item) : (s.addItem it).mode = s.mode := rfl
@[simp] theorem State.addItem_power (it : Item) : (s.addItem it).power = s.power := rfl
@[simp] theorem State.addItem_lastActivity (it : Item) : (s.addItem it).lastActivity = s.lastActivity := rfl
@[simp] theorem State.addItem_lamp (it : Item) : (s.addItem it).lamp = s.lamp := rfl
@[simp] theorem State.addItem_domains (it : Item) : (s.addItem it).domains = s.domains := rfl
@[simp] theorem State.addItem_routing (it : Item) : (s.addItem it).routing = s.routing := rfl
@[simp] theorem State.addItem_roots (it : Item) : (s.addItem it).roots = s.roots := rfl
@[simp] theorem State.addItem_remap (it : Item) : (s.addItem it).remap = s.remap := rfl
@[simp] theorem State.addItem_layoutRec (it : Item) : (s.addItem it).layoutRec = s.layoutRec := rfl
@[simp] theorem State.addItem_layout (it : Item) : (s.addItem it).layout = s.layout := rfl
@[simp] theorem State.addItem_norms (it : Item) : (s.addItem it).norms = s.norms := rfl
@[simp] theorem State.addItem_threshold (it : Item) : (s.addItem it).threshold = s.threshold := rfl
@[simp] theorem State.addItem_replicaEpoch (it : Item) : (s.addItem it).replicaEpoch = s.replicaEpoch := rfl
@[simp] theorem State.addItem_storeEpoch (it : Item) : (s.addItem it).storeEpoch = s.storeEpoch := rfl
@[simp] theorem State.addItem_reports (it : Item) : (s.addItem it).reports = s.reports := rfl
@[simp] theorem State.addItem_reportsDropped (it : Item) : (s.addItem it).reportsDropped = s.reportsDropped := rfl
@[simp] theorem State.addItem_reportSeq (it : Item) : (s.addItem it).reportSeq = s.reportSeq := rfl
@[simp] theorem State.addItem_tallies (it : Item) : (s.addItem it).tallies = s.tallies := rfl
@[simp] theorem State.addItem_domCounters (it : Item) : (s.addItem it).domCounters = s.domCounters := rfl
@[simp] theorem State.addItem_devCounters (it : Item) : (s.addItem it).devCounters = s.devCounters := rfl
@[simp] theorem State.addItem_recoveries (it : Item) : (s.addItem it).recoveries = s.recoveries := rfl
@[simp] theorem State.addItem_fuses (it : Item) : (s.addItem it).fuses = s.fuses := rfl
@[simp] theorem State.addItem_boot (it : Item) : (s.addItem it).boot = s.boot := rfl
@[simp] theorem State.addItem_recovery (it : Item) : (s.addItem it).recovery = s.recovery := rfl
@[simp] theorem State.addItem_pins (it : Item) : (s.addItem it).pins = s.pins := rfl
@[simp] theorem State.addItem_rows (it : Item) : (s.addItem it).rows = s.rows := rfl
@[simp] theorem State.addItem_insts (it : Item) : (s.addItem it).insts = s.insts := rfl
@[simp] theorem State.addItem_foreman (it : Item) : (s.addItem it).foreman = s.foreman := rfl
@[simp] theorem State.addItem_bulk (it : Item) : (s.addItem it).bulk = s.bulk := rfl
@[simp] theorem State.addItem_ctxs (it : Item) : (s.addItem it).ctxs = s.ctxs := rfl
@[simp] theorem State.addItem_adapters (it : Item) : (s.addItem it).adapters = s.adapters := rfl
@[simp] theorem State.addItem_vocabs (it : Item) : (s.addItem it).vocabs = s.vocabs := rfl
@[simp] theorem State.addItem_snapshots (it : Item) : (s.addItem it).snapshots = s.snapshots := rfl
@[simp] theorem State.addItem_snapClock (it : Item) : (s.addItem it).snapClock = s.snapClock := rfl
@[simp] theorem State.addItem_streams (it : Item) : (s.addItem it).streams = s.streams := rfl
@[simp] theorem State.addItem_items (it : Item) : (s.addItem it).items = tset s.items s.nextItem it := rfl
@[simp] theorem State.addItem_store (it : Item) : (s.addItem it).store = s.store := rfl
@[simp] theorem State.addItem_failed (it : Item) : (s.addItem it).failed = s.failed := rfl
@[simp] theorem State.addItem_remapping (it : Item) : (s.addItem it).remapping = s.remapping := rfl
@[simp] theorem State.addItem_chains (it : Item) : (s.addItem it).chains = s.chains := rfl
@[simp] theorem State.addItem_passes (it : Item) : (s.addItem it).passes = s.passes := rfl
@[simp] theorem State.addItem_shaft (it : Item) : (s.addItem it).shaft = s.shaft := rfl
@[simp] theorem State.addItem_credits (it : Item) : (s.addItem it).credits = s.credits := rfl
@[simp] theorem State.addItem_queuedTx (it : Item) : (s.addItem it).queuedTx = s.queuedTx := rfl
@[simp] theorem State.addItem_mem (it : Item) : (s.addItem it).mem = s.mem := rfl
@[simp] theorem State.addItem_drift (it : Item) : (s.addItem it).drift = s.drift := rfl
@[simp] theorem State.addItem_replicas (it : Item) : (s.addItem it).replicas = s.replicas := rfl
@[simp] theorem State.addItem_dead (it : Item) : (s.addItem it).dead = s.dead := rfl
@[simp] theorem State.addItem_xfers (it : Item) : (s.addItem it).xfers = s.xfers := rfl
@[simp] theorem State.addItem_poisoned (it : Item) : (s.addItem it).poisoned = s.poisoned := rfl
@[simp] theorem State.addItem_spareUsed (it : Item) : (s.addItem it).spareUsed = s.spareUsed := rfl
@[simp] theorem State.addItem_zeroing (it : Item) : (s.addItem it).zeroing = s.zeroing := rfl
@[simp] theorem State.addItem_seamZero (it : Item) : (s.addItem it).seamZero = s.seamZero := rfl
@[simp] theorem State.addItem_seamPoison (it : Item) : (s.addItem it).seamPoison = s.seamPoison := rfl
@[simp] theorem State.addItem_quietAt (it : Item) : (s.addItem it).quietAt = s.quietAt := rfl
@[simp] theorem State.addItem_flueHomes (it : Item) : (s.addItem it).flueHomes = s.flueHomes := rfl
@[simp] theorem State.addItem_outOfUse (it : Item) : (s.addItem it).outOfUse = s.outOfUse := rfl
@[simp] theorem State.addItem_ledgerFault (it : Item) : (s.addItem it).ledgerFault = s.ledgerFault := rfl
@[simp] theorem State.addItem_degraded (it : Item) : (s.addItem it).degraded = s.degraded := rfl
@[simp] theorem State.addItem_hangs (it : Item) : (s.addItem it).hangs = s.hangs := rfl
@[simp] theorem State.addItem_nextHang (it : Item) : (s.addItem it).nextHang = s.nextHang := rfl
@[simp] theorem State.addItem_ashpit (it : Item) : (s.addItem it).ashpit = s.ashpit := rfl
@[simp] theorem State.addItem_ashpitNext (it : Item) : (s.addItem it).ashpitNext = s.ashpitNext := rfl
@[simp] theorem State.addItem_ashpitHead (it : Item) : (s.addItem it).ashpitHead = s.ashpitHead := rfl
@[simp] theorem State.addItem_mgmt (it : Item) : (s.addItem it).mgmt = s.mgmt := rfl

@[simp] theorem State.newXfer_pending (k : XferKind) (c : Nat) (sid : Option Nat) : (s.newXfer k c sid).pending = s.pending := rfl
@[simp] theorem State.newXfer_freshCtr (k : XferKind) (c : Nat) (sid : Option Nat) : (s.newXfer k c sid).freshCtr = s.freshCtr := rfl
@[simp] theorem State.newXfer_nextItem (k : XferKind) (c : Nat) (sid : Option Nat) : (s.newXfer k c sid).nextItem = s.nextItem := rfl
@[simp] theorem State.newXfer_nextXfer (k : XferKind) (c : Nat) (sid : Option Nat) : (s.newXfer k c sid).nextXfer = s.nextXfer + 1 := rfl
@[simp] theorem State.newXfer_out (k : XferKind) (c : Nat) (sid : Option Nat) : (s.newXfer k c sid).out = s.out := rfl
@[simp] theorem State.newXfer_count (k : XferKind) (c : Nat) (sid : Option Nat) : (s.newXfer k c sid).count = s.count := rfl
@[simp] theorem State.newXfer_running (k : XferKind) (c : Nat) (sid : Option Nat) : (s.newXfer k c sid).running = s.running := rfl
@[simp] theorem State.newXfer_porst (k : XferKind) (c : Nat) (sid : Option Nat) : (s.newXfer k c sid).porst = s.porst := rfl
@[simp] theorem State.newXfer_pilotFault (k : XferKind) (c : Nat) (sid : Option Nat) : (s.newXfer k c sid).pilotFault = s.pilotFault := rfl
@[simp] theorem State.newXfer_mode (k : XferKind) (c : Nat) (sid : Option Nat) : (s.newXfer k c sid).mode = s.mode := rfl
@[simp] theorem State.newXfer_power (k : XferKind) (c : Nat) (sid : Option Nat) : (s.newXfer k c sid).power = s.power := rfl
@[simp] theorem State.newXfer_lastActivity (k : XferKind) (c : Nat) (sid : Option Nat) : (s.newXfer k c sid).lastActivity = s.lastActivity := rfl
@[simp] theorem State.newXfer_lamp (k : XferKind) (c : Nat) (sid : Option Nat) : (s.newXfer k c sid).lamp = s.lamp := rfl
@[simp] theorem State.newXfer_domains (k : XferKind) (c : Nat) (sid : Option Nat) : (s.newXfer k c sid).domains = s.domains := rfl
@[simp] theorem State.newXfer_routing (k : XferKind) (c : Nat) (sid : Option Nat) : (s.newXfer k c sid).routing = s.routing := rfl
@[simp] theorem State.newXfer_roots (k : XferKind) (c : Nat) (sid : Option Nat) : (s.newXfer k c sid).roots = s.roots := rfl
@[simp] theorem State.newXfer_remap (k : XferKind) (c : Nat) (sid : Option Nat) : (s.newXfer k c sid).remap = s.remap := rfl
@[simp] theorem State.newXfer_layoutRec (k : XferKind) (c : Nat) (sid : Option Nat) : (s.newXfer k c sid).layoutRec = s.layoutRec := rfl
@[simp] theorem State.newXfer_layout (k : XferKind) (c : Nat) (sid : Option Nat) : (s.newXfer k c sid).layout = s.layout := rfl
@[simp] theorem State.newXfer_norms (k : XferKind) (c : Nat) (sid : Option Nat) : (s.newXfer k c sid).norms = s.norms := rfl
@[simp] theorem State.newXfer_threshold (k : XferKind) (c : Nat) (sid : Option Nat) : (s.newXfer k c sid).threshold = s.threshold := rfl
@[simp] theorem State.newXfer_replicaEpoch (k : XferKind) (c : Nat) (sid : Option Nat) : (s.newXfer k c sid).replicaEpoch = s.replicaEpoch := rfl
@[simp] theorem State.newXfer_storeEpoch (k : XferKind) (c : Nat) (sid : Option Nat) : (s.newXfer k c sid).storeEpoch = s.storeEpoch := rfl
@[simp] theorem State.newXfer_reports (k : XferKind) (c : Nat) (sid : Option Nat) : (s.newXfer k c sid).reports = s.reports := rfl
@[simp] theorem State.newXfer_reportsDropped (k : XferKind) (c : Nat) (sid : Option Nat) : (s.newXfer k c sid).reportsDropped = s.reportsDropped := rfl
@[simp] theorem State.newXfer_reportSeq (k : XferKind) (c : Nat) (sid : Option Nat) : (s.newXfer k c sid).reportSeq = s.reportSeq := rfl
@[simp] theorem State.newXfer_tallies (k : XferKind) (c : Nat) (sid : Option Nat) : (s.newXfer k c sid).tallies = s.tallies := rfl
@[simp] theorem State.newXfer_domCounters (k : XferKind) (c : Nat) (sid : Option Nat) : (s.newXfer k c sid).domCounters = s.domCounters := rfl
@[simp] theorem State.newXfer_devCounters (k : XferKind) (c : Nat) (sid : Option Nat) : (s.newXfer k c sid).devCounters = s.devCounters := rfl
@[simp] theorem State.newXfer_recoveries (k : XferKind) (c : Nat) (sid : Option Nat) : (s.newXfer k c sid).recoveries = s.recoveries := rfl
@[simp] theorem State.newXfer_fuses (k : XferKind) (c : Nat) (sid : Option Nat) : (s.newXfer k c sid).fuses = s.fuses := rfl
@[simp] theorem State.newXfer_boot (k : XferKind) (c : Nat) (sid : Option Nat) : (s.newXfer k c sid).boot = s.boot := rfl
@[simp] theorem State.newXfer_recovery (k : XferKind) (c : Nat) (sid : Option Nat) : (s.newXfer k c sid).recovery = s.recovery := rfl
@[simp] theorem State.newXfer_pins (k : XferKind) (c : Nat) (sid : Option Nat) : (s.newXfer k c sid).pins = s.pins := rfl
@[simp] theorem State.newXfer_rows (k : XferKind) (c : Nat) (sid : Option Nat) : (s.newXfer k c sid).rows = s.rows := rfl
@[simp] theorem State.newXfer_insts (k : XferKind) (c : Nat) (sid : Option Nat) : (s.newXfer k c sid).insts = s.insts := rfl
@[simp] theorem State.newXfer_foreman (k : XferKind) (c : Nat) (sid : Option Nat) : (s.newXfer k c sid).foreman = s.foreman := rfl
@[simp] theorem State.newXfer_bulk (k : XferKind) (c : Nat) (sid : Option Nat) : (s.newXfer k c sid).bulk = s.bulk := rfl
@[simp] theorem State.newXfer_ctxs (k : XferKind) (c : Nat) (sid : Option Nat) : (s.newXfer k c sid).ctxs = s.ctxs := rfl
@[simp] theorem State.newXfer_adapters (k : XferKind) (c : Nat) (sid : Option Nat) : (s.newXfer k c sid).adapters = s.adapters := rfl
@[simp] theorem State.newXfer_vocabs (k : XferKind) (c : Nat) (sid : Option Nat) : (s.newXfer k c sid).vocabs = s.vocabs := rfl
@[simp] theorem State.newXfer_snapshots (k : XferKind) (c : Nat) (sid : Option Nat) : (s.newXfer k c sid).snapshots = s.snapshots := rfl
@[simp] theorem State.newXfer_snapClock (k : XferKind) (c : Nat) (sid : Option Nat) : (s.newXfer k c sid).snapClock = s.snapClock := rfl
@[simp] theorem State.newXfer_streams (k : XferKind) (c : Nat) (sid : Option Nat) : (s.newXfer k c sid).streams = s.streams := rfl
@[simp] theorem State.newXfer_items (k : XferKind) (c : Nat) (sid : Option Nat) : (s.newXfer k c sid).items = s.items := rfl
@[simp] theorem State.newXfer_store (k : XferKind) (c : Nat) (sid : Option Nat) : (s.newXfer k c sid).store = s.store := rfl
@[simp] theorem State.newXfer_failed (k : XferKind) (c : Nat) (sid : Option Nat) : (s.newXfer k c sid).failed = s.failed := rfl
@[simp] theorem State.newXfer_remapping (k : XferKind) (c : Nat) (sid : Option Nat) : (s.newXfer k c sid).remapping = s.remapping := rfl
@[simp] theorem State.newXfer_chains (k : XferKind) (c : Nat) (sid : Option Nat) : (s.newXfer k c sid).chains = s.chains := rfl
@[simp] theorem State.newXfer_passes (k : XferKind) (c : Nat) (sid : Option Nat) : (s.newXfer k c sid).passes = s.passes := rfl
@[simp] theorem State.newXfer_shaft (k : XferKind) (c : Nat) (sid : Option Nat) : (s.newXfer k c sid).shaft = s.shaft := rfl
@[simp] theorem State.newXfer_credits (k : XferKind) (c : Nat) (sid : Option Nat) : (s.newXfer k c sid).credits = s.credits := rfl
@[simp] theorem State.newXfer_queuedTx (k : XferKind) (c : Nat) (sid : Option Nat) : (s.newXfer k c sid).queuedTx = s.queuedTx := rfl
@[simp] theorem State.newXfer_mem (k : XferKind) (c : Nat) (sid : Option Nat) : (s.newXfer k c sid).mem = s.mem := rfl
@[simp] theorem State.newXfer_drift (k : XferKind) (c : Nat) (sid : Option Nat) : (s.newXfer k c sid).drift = s.drift := rfl
@[simp] theorem State.newXfer_replicas (k : XferKind) (c : Nat) (sid : Option Nat) : (s.newXfer k c sid).replicas = s.replicas := rfl
@[simp] theorem State.newXfer_dead (k : XferKind) (c : Nat) (sid : Option Nat) : (s.newXfer k c sid).dead = s.dead := rfl
@[simp] theorem State.newXfer_xfers (k : XferKind) (c : Nat) (sid : Option Nat) : (s.newXfer k c sid).xfers = tset s.xfers s.nextXfer ⟨k, c, (s.ctx c).gen, sid, false, s.count, []⟩ := rfl
@[simp] theorem State.newXfer_poisoned (k : XferKind) (c : Nat) (sid : Option Nat) : (s.newXfer k c sid).poisoned = s.poisoned := rfl
@[simp] theorem State.newXfer_spareUsed (k : XferKind) (c : Nat) (sid : Option Nat) : (s.newXfer k c sid).spareUsed = s.spareUsed := rfl
@[simp] theorem State.newXfer_zeroing (k : XferKind) (c : Nat) (sid : Option Nat) : (s.newXfer k c sid).zeroing = s.zeroing := rfl
@[simp] theorem State.newXfer_seamZero (k : XferKind) (c : Nat) (sid : Option Nat) : (s.newXfer k c sid).seamZero = s.seamZero := rfl
@[simp] theorem State.newXfer_seamPoison (k : XferKind) (c : Nat) (sid : Option Nat) : (s.newXfer k c sid).seamPoison = s.seamPoison := rfl
@[simp] theorem State.newXfer_quietAt (k : XferKind) (c : Nat) (sid : Option Nat) : (s.newXfer k c sid).quietAt = s.quietAt := rfl
@[simp] theorem State.newXfer_flueHomes (k : XferKind) (c : Nat) (sid : Option Nat) : (s.newXfer k c sid).flueHomes = s.flueHomes := rfl
@[simp] theorem State.newXfer_outOfUse (k : XferKind) (c : Nat) (sid : Option Nat) : (s.newXfer k c sid).outOfUse = s.outOfUse := rfl
@[simp] theorem State.newXfer_ledgerFault (k : XferKind) (c : Nat) (sid : Option Nat) : (s.newXfer k c sid).ledgerFault = s.ledgerFault := rfl
@[simp] theorem State.newXfer_degraded (k : XferKind) (c : Nat) (sid : Option Nat) : (s.newXfer k c sid).degraded = s.degraded := rfl
@[simp] theorem State.newXfer_hangs (k : XferKind) (c : Nat) (sid : Option Nat) : (s.newXfer k c sid).hangs = s.hangs := rfl
@[simp] theorem State.newXfer_nextHang (k : XferKind) (c : Nat) (sid : Option Nat) : (s.newXfer k c sid).nextHang = s.nextHang := rfl
@[simp] theorem State.newXfer_ashpit (k : XferKind) (c : Nat) (sid : Option Nat) : (s.newXfer k c sid).ashpit = s.ashpit := rfl
@[simp] theorem State.newXfer_ashpitNext (k : XferKind) (c : Nat) (sid : Option Nat) : (s.newXfer k c sid).ashpitNext = s.ashpitNext := rfl
@[simp] theorem State.newXfer_ashpitHead (k : XferKind) (c : Nat) (sid : Option Nat) : (s.newXfer k c sid).ashpitHead = s.ashpitHead := rfl
@[simp] theorem State.newXfer_mgmt (k : XferKind) (c : Nat) (sid : Option Nat) : (s.newXfer k c sid).mgmt = s.mgmt := rfl

@[simp] theorem State.setTally_pending (n : Nat) (x : Tally) : (s.setTally n x).pending = s.pending := rfl
@[simp] theorem State.setTally_freshCtr (n : Nat) (x : Tally) : (s.setTally n x).freshCtr = s.freshCtr := rfl
@[simp] theorem State.setTally_nextItem (n : Nat) (x : Tally) : (s.setTally n x).nextItem = s.nextItem := rfl
@[simp] theorem State.setTally_nextXfer (n : Nat) (x : Tally) : (s.setTally n x).nextXfer = s.nextXfer := rfl
@[simp] theorem State.setTally_out (n : Nat) (x : Tally) : (s.setTally n x).out = s.out := rfl
@[simp] theorem State.setTally_count (n : Nat) (x : Tally) : (s.setTally n x).count = s.count := rfl
@[simp] theorem State.setTally_running (n : Nat) (x : Tally) : (s.setTally n x).running = s.running := rfl
@[simp] theorem State.setTally_porst (n : Nat) (x : Tally) : (s.setTally n x).porst = s.porst := rfl
@[simp] theorem State.setTally_pilotFault (n : Nat) (x : Tally) : (s.setTally n x).pilotFault = s.pilotFault := rfl
@[simp] theorem State.setTally_mode (n : Nat) (x : Tally) : (s.setTally n x).mode = s.mode := rfl
@[simp] theorem State.setTally_power (n : Nat) (x : Tally) : (s.setTally n x).power = s.power := rfl
@[simp] theorem State.setTally_lastActivity (n : Nat) (x : Tally) : (s.setTally n x).lastActivity = s.lastActivity := rfl
@[simp] theorem State.setTally_lamp (n : Nat) (x : Tally) : (s.setTally n x).lamp = s.lamp := rfl
@[simp] theorem State.setTally_domains (n : Nat) (x : Tally) : (s.setTally n x).domains = s.domains := rfl
@[simp] theorem State.setTally_routing (n : Nat) (x : Tally) : (s.setTally n x).routing = s.routing := rfl
@[simp] theorem State.setTally_roots (n : Nat) (x : Tally) : (s.setTally n x).roots = s.roots := rfl
@[simp] theorem State.setTally_remap (n : Nat) (x : Tally) : (s.setTally n x).remap = s.remap := rfl
@[simp] theorem State.setTally_layoutRec (n : Nat) (x : Tally) : (s.setTally n x).layoutRec = s.layoutRec := rfl
@[simp] theorem State.setTally_layout (n : Nat) (x : Tally) : (s.setTally n x).layout = s.layout := rfl
@[simp] theorem State.setTally_norms (n : Nat) (x : Tally) : (s.setTally n x).norms = s.norms := rfl
@[simp] theorem State.setTally_threshold (n : Nat) (x : Tally) : (s.setTally n x).threshold = s.threshold := rfl
@[simp] theorem State.setTally_replicaEpoch (n : Nat) (x : Tally) : (s.setTally n x).replicaEpoch = s.replicaEpoch := rfl
@[simp] theorem State.setTally_storeEpoch (n : Nat) (x : Tally) : (s.setTally n x).storeEpoch = s.storeEpoch := rfl
@[simp] theorem State.setTally_reports (n : Nat) (x : Tally) : (s.setTally n x).reports = s.reports := rfl
@[simp] theorem State.setTally_reportsDropped (n : Nat) (x : Tally) : (s.setTally n x).reportsDropped = s.reportsDropped := rfl
@[simp] theorem State.setTally_reportSeq (n : Nat) (x : Tally) : (s.setTally n x).reportSeq = s.reportSeq := rfl
@[simp] theorem State.setTally_tallies (n : Nat) (x : Tally) : (s.setTally n x).tallies = tset s.tallies n x := rfl
@[simp] theorem State.setTally_domCounters (n : Nat) (x : Tally) : (s.setTally n x).domCounters = s.domCounters := rfl
@[simp] theorem State.setTally_devCounters (n : Nat) (x : Tally) : (s.setTally n x).devCounters = s.devCounters := rfl
@[simp] theorem State.setTally_recoveries (n : Nat) (x : Tally) : (s.setTally n x).recoveries = s.recoveries := rfl
@[simp] theorem State.setTally_fuses (n : Nat) (x : Tally) : (s.setTally n x).fuses = s.fuses := rfl
@[simp] theorem State.setTally_boot (n : Nat) (x : Tally) : (s.setTally n x).boot = s.boot := rfl
@[simp] theorem State.setTally_recovery (n : Nat) (x : Tally) : (s.setTally n x).recovery = s.recovery := rfl
@[simp] theorem State.setTally_pins (n : Nat) (x : Tally) : (s.setTally n x).pins = s.pins := rfl
@[simp] theorem State.setTally_rows (n : Nat) (x : Tally) : (s.setTally n x).rows = s.rows := rfl
@[simp] theorem State.setTally_insts (n : Nat) (x : Tally) : (s.setTally n x).insts = s.insts := rfl
@[simp] theorem State.setTally_foreman (n : Nat) (x : Tally) : (s.setTally n x).foreman = s.foreman := rfl
@[simp] theorem State.setTally_bulk (n : Nat) (x : Tally) : (s.setTally n x).bulk = s.bulk := rfl
@[simp] theorem State.setTally_ctxs (n : Nat) (x : Tally) : (s.setTally n x).ctxs = s.ctxs := rfl
@[simp] theorem State.setTally_adapters (n : Nat) (x : Tally) : (s.setTally n x).adapters = s.adapters := rfl
@[simp] theorem State.setTally_vocabs (n : Nat) (x : Tally) : (s.setTally n x).vocabs = s.vocabs := rfl
@[simp] theorem State.setTally_snapshots (n : Nat) (x : Tally) : (s.setTally n x).snapshots = s.snapshots := rfl
@[simp] theorem State.setTally_snapClock (n : Nat) (x : Tally) : (s.setTally n x).snapClock = s.snapClock := rfl
@[simp] theorem State.setTally_streams (n : Nat) (x : Tally) : (s.setTally n x).streams = s.streams := rfl
@[simp] theorem State.setTally_items (n : Nat) (x : Tally) : (s.setTally n x).items = s.items := rfl
@[simp] theorem State.setTally_store (n : Nat) (x : Tally) : (s.setTally n x).store = s.store := rfl
@[simp] theorem State.setTally_failed (n : Nat) (x : Tally) : (s.setTally n x).failed = s.failed := rfl
@[simp] theorem State.setTally_remapping (n : Nat) (x : Tally) : (s.setTally n x).remapping = s.remapping := rfl
@[simp] theorem State.setTally_chains (n : Nat) (x : Tally) : (s.setTally n x).chains = s.chains := rfl
@[simp] theorem State.setTally_passes (n : Nat) (x : Tally) : (s.setTally n x).passes = s.passes := rfl
@[simp] theorem State.setTally_shaft (n : Nat) (x : Tally) : (s.setTally n x).shaft = s.shaft := rfl
@[simp] theorem State.setTally_credits (n : Nat) (x : Tally) : (s.setTally n x).credits = s.credits := rfl
@[simp] theorem State.setTally_queuedTx (n : Nat) (x : Tally) : (s.setTally n x).queuedTx = s.queuedTx := rfl
@[simp] theorem State.setTally_mem (n : Nat) (x : Tally) : (s.setTally n x).mem = s.mem := rfl
@[simp] theorem State.setTally_drift (n : Nat) (x : Tally) : (s.setTally n x).drift = s.drift := rfl
@[simp] theorem State.setTally_replicas (n : Nat) (x : Tally) : (s.setTally n x).replicas = s.replicas := rfl
@[simp] theorem State.setTally_dead (n : Nat) (x : Tally) : (s.setTally n x).dead = s.dead := rfl
@[simp] theorem State.setTally_xfers (n : Nat) (x : Tally) : (s.setTally n x).xfers = s.xfers := rfl
@[simp] theorem State.setTally_poisoned (n : Nat) (x : Tally) : (s.setTally n x).poisoned = s.poisoned := rfl
@[simp] theorem State.setTally_spareUsed (n : Nat) (x : Tally) : (s.setTally n x).spareUsed = s.spareUsed := rfl
@[simp] theorem State.setTally_zeroing (n : Nat) (x : Tally) : (s.setTally n x).zeroing = s.zeroing := rfl
@[simp] theorem State.setTally_seamZero (n : Nat) (x : Tally) : (s.setTally n x).seamZero = s.seamZero := rfl
@[simp] theorem State.setTally_seamPoison (n : Nat) (x : Tally) : (s.setTally n x).seamPoison = s.seamPoison := rfl
@[simp] theorem State.setTally_quietAt (n : Nat) (x : Tally) : (s.setTally n x).quietAt = s.quietAt := rfl
@[simp] theorem State.setTally_flueHomes (n : Nat) (x : Tally) : (s.setTally n x).flueHomes = s.flueHomes := rfl
@[simp] theorem State.setTally_outOfUse (n : Nat) (x : Tally) : (s.setTally n x).outOfUse = s.outOfUse := rfl
@[simp] theorem State.setTally_ledgerFault (n : Nat) (x : Tally) : (s.setTally n x).ledgerFault = s.ledgerFault := rfl
@[simp] theorem State.setTally_degraded (n : Nat) (x : Tally) : (s.setTally n x).degraded = s.degraded := rfl
@[simp] theorem State.setTally_hangs (n : Nat) (x : Tally) : (s.setTally n x).hangs = s.hangs := rfl
@[simp] theorem State.setTally_nextHang (n : Nat) (x : Tally) : (s.setTally n x).nextHang = s.nextHang := rfl
@[simp] theorem State.setTally_ashpit (n : Nat) (x : Tally) : (s.setTally n x).ashpit = s.ashpit := rfl
@[simp] theorem State.setTally_ashpitNext (n : Nat) (x : Tally) : (s.setTally n x).ashpitNext = s.ashpitNext := rfl
@[simp] theorem State.setTally_ashpitHead (n : Nat) (x : Tally) : (s.setTally n x).ashpitHead = s.ashpitHead := rfl
@[simp] theorem State.setTally_mgmt (n : Nat) (x : Tally) : (s.setTally n x).mgmt = s.mgmt := rfl

@[simp] theorem State.modShaft_pending (p : Nat) (f : ShaftPort → ShaftPort) : (s.modShaft p f).pending = s.pending := rfl
@[simp] theorem State.modShaft_freshCtr (p : Nat) (f : ShaftPort → ShaftPort) : (s.modShaft p f).freshCtr = s.freshCtr := rfl
@[simp] theorem State.modShaft_nextItem (p : Nat) (f : ShaftPort → ShaftPort) : (s.modShaft p f).nextItem = s.nextItem := rfl
@[simp] theorem State.modShaft_nextXfer (p : Nat) (f : ShaftPort → ShaftPort) : (s.modShaft p f).nextXfer = s.nextXfer := rfl
@[simp] theorem State.modShaft_out (p : Nat) (f : ShaftPort → ShaftPort) : (s.modShaft p f).out = s.out := rfl
@[simp] theorem State.modShaft_count (p : Nat) (f : ShaftPort → ShaftPort) : (s.modShaft p f).count = s.count := rfl
@[simp] theorem State.modShaft_running (p : Nat) (f : ShaftPort → ShaftPort) : (s.modShaft p f).running = s.running := rfl
@[simp] theorem State.modShaft_porst (p : Nat) (f : ShaftPort → ShaftPort) : (s.modShaft p f).porst = s.porst := rfl
@[simp] theorem State.modShaft_pilotFault (p : Nat) (f : ShaftPort → ShaftPort) : (s.modShaft p f).pilotFault = s.pilotFault := rfl
@[simp] theorem State.modShaft_mode (p : Nat) (f : ShaftPort → ShaftPort) : (s.modShaft p f).mode = s.mode := rfl
@[simp] theorem State.modShaft_power (p : Nat) (f : ShaftPort → ShaftPort) : (s.modShaft p f).power = s.power := rfl
@[simp] theorem State.modShaft_lastActivity (p : Nat) (f : ShaftPort → ShaftPort) : (s.modShaft p f).lastActivity = s.lastActivity := rfl
@[simp] theorem State.modShaft_lamp (p : Nat) (f : ShaftPort → ShaftPort) : (s.modShaft p f).lamp = s.lamp := rfl
@[simp] theorem State.modShaft_domains (p : Nat) (f : ShaftPort → ShaftPort) : (s.modShaft p f).domains = s.domains := rfl
@[simp] theorem State.modShaft_routing (p : Nat) (f : ShaftPort → ShaftPort) : (s.modShaft p f).routing = s.routing := rfl
@[simp] theorem State.modShaft_roots (p : Nat) (f : ShaftPort → ShaftPort) : (s.modShaft p f).roots = s.roots := rfl
@[simp] theorem State.modShaft_remap (p : Nat) (f : ShaftPort → ShaftPort) : (s.modShaft p f).remap = s.remap := rfl
@[simp] theorem State.modShaft_layoutRec (p : Nat) (f : ShaftPort → ShaftPort) : (s.modShaft p f).layoutRec = s.layoutRec := rfl
@[simp] theorem State.modShaft_layout (p : Nat) (f : ShaftPort → ShaftPort) : (s.modShaft p f).layout = s.layout := rfl
@[simp] theorem State.modShaft_norms (p : Nat) (f : ShaftPort → ShaftPort) : (s.modShaft p f).norms = s.norms := rfl
@[simp] theorem State.modShaft_threshold (p : Nat) (f : ShaftPort → ShaftPort) : (s.modShaft p f).threshold = s.threshold := rfl
@[simp] theorem State.modShaft_replicaEpoch (p : Nat) (f : ShaftPort → ShaftPort) : (s.modShaft p f).replicaEpoch = s.replicaEpoch := rfl
@[simp] theorem State.modShaft_storeEpoch (p : Nat) (f : ShaftPort → ShaftPort) : (s.modShaft p f).storeEpoch = s.storeEpoch := rfl
@[simp] theorem State.modShaft_reports (p : Nat) (f : ShaftPort → ShaftPort) : (s.modShaft p f).reports = s.reports := rfl
@[simp] theorem State.modShaft_reportsDropped (p : Nat) (f : ShaftPort → ShaftPort) : (s.modShaft p f).reportsDropped = s.reportsDropped := rfl
@[simp] theorem State.modShaft_reportSeq (p : Nat) (f : ShaftPort → ShaftPort) : (s.modShaft p f).reportSeq = s.reportSeq := rfl
@[simp] theorem State.modShaft_tallies (p : Nat) (f : ShaftPort → ShaftPort) : (s.modShaft p f).tallies = s.tallies := rfl
@[simp] theorem State.modShaft_domCounters (p : Nat) (f : ShaftPort → ShaftPort) : (s.modShaft p f).domCounters = s.domCounters := rfl
@[simp] theorem State.modShaft_devCounters (p : Nat) (f : ShaftPort → ShaftPort) : (s.modShaft p f).devCounters = s.devCounters := rfl
@[simp] theorem State.modShaft_recoveries (p : Nat) (f : ShaftPort → ShaftPort) : (s.modShaft p f).recoveries = s.recoveries := rfl
@[simp] theorem State.modShaft_fuses (p : Nat) (f : ShaftPort → ShaftPort) : (s.modShaft p f).fuses = s.fuses := rfl
@[simp] theorem State.modShaft_boot (p : Nat) (f : ShaftPort → ShaftPort) : (s.modShaft p f).boot = s.boot := rfl
@[simp] theorem State.modShaft_recovery (p : Nat) (f : ShaftPort → ShaftPort) : (s.modShaft p f).recovery = s.recovery := rfl
@[simp] theorem State.modShaft_pins (p : Nat) (f : ShaftPort → ShaftPort) : (s.modShaft p f).pins = s.pins := rfl
@[simp] theorem State.modShaft_rows (p : Nat) (f : ShaftPort → ShaftPort) : (s.modShaft p f).rows = s.rows := rfl
@[simp] theorem State.modShaft_insts (p : Nat) (f : ShaftPort → ShaftPort) : (s.modShaft p f).insts = s.insts := rfl
@[simp] theorem State.modShaft_foreman (p : Nat) (f : ShaftPort → ShaftPort) : (s.modShaft p f).foreman = s.foreman := rfl
@[simp] theorem State.modShaft_bulk (p : Nat) (f : ShaftPort → ShaftPort) : (s.modShaft p f).bulk = s.bulk := rfl
@[simp] theorem State.modShaft_ctxs (p : Nat) (f : ShaftPort → ShaftPort) : (s.modShaft p f).ctxs = s.ctxs := rfl
@[simp] theorem State.modShaft_adapters (p : Nat) (f : ShaftPort → ShaftPort) : (s.modShaft p f).adapters = s.adapters := rfl
@[simp] theorem State.modShaft_vocabs (p : Nat) (f : ShaftPort → ShaftPort) : (s.modShaft p f).vocabs = s.vocabs := rfl
@[simp] theorem State.modShaft_snapshots (p : Nat) (f : ShaftPort → ShaftPort) : (s.modShaft p f).snapshots = s.snapshots := rfl
@[simp] theorem State.modShaft_snapClock (p : Nat) (f : ShaftPort → ShaftPort) : (s.modShaft p f).snapClock = s.snapClock := rfl
@[simp] theorem State.modShaft_streams (p : Nat) (f : ShaftPort → ShaftPort) : (s.modShaft p f).streams = s.streams := rfl
@[simp] theorem State.modShaft_items (p : Nat) (f : ShaftPort → ShaftPort) : (s.modShaft p f).items = s.items := rfl
@[simp] theorem State.modShaft_store (p : Nat) (f : ShaftPort → ShaftPort) : (s.modShaft p f).store = s.store := rfl
@[simp] theorem State.modShaft_failed (p : Nat) (f : ShaftPort → ShaftPort) : (s.modShaft p f).failed = s.failed := rfl
@[simp] theorem State.modShaft_remapping (p : Nat) (f : ShaftPort → ShaftPort) : (s.modShaft p f).remapping = s.remapping := rfl
@[simp] theorem State.modShaft_chains (p : Nat) (f : ShaftPort → ShaftPort) : (s.modShaft p f).chains = s.chains := rfl
@[simp] theorem State.modShaft_passes (p : Nat) (f : ShaftPort → ShaftPort) : (s.modShaft p f).passes = s.passes := rfl
@[simp] theorem State.modShaft_shaft (p : Nat) (f : ShaftPort → ShaftPort) : (s.modShaft p f).shaft = lmod s.shaft p f := rfl
@[simp] theorem State.modShaft_credits (p : Nat) (f : ShaftPort → ShaftPort) : (s.modShaft p f).credits = s.credits := rfl
@[simp] theorem State.modShaft_queuedTx (p : Nat) (f : ShaftPort → ShaftPort) : (s.modShaft p f).queuedTx = s.queuedTx := rfl
@[simp] theorem State.modShaft_mem (p : Nat) (f : ShaftPort → ShaftPort) : (s.modShaft p f).mem = s.mem := rfl
@[simp] theorem State.modShaft_drift (p : Nat) (f : ShaftPort → ShaftPort) : (s.modShaft p f).drift = s.drift := rfl
@[simp] theorem State.modShaft_replicas (p : Nat) (f : ShaftPort → ShaftPort) : (s.modShaft p f).replicas = s.replicas := rfl
@[simp] theorem State.modShaft_dead (p : Nat) (f : ShaftPort → ShaftPort) : (s.modShaft p f).dead = s.dead := rfl
@[simp] theorem State.modShaft_xfers (p : Nat) (f : ShaftPort → ShaftPort) : (s.modShaft p f).xfers = s.xfers := rfl
@[simp] theorem State.modShaft_poisoned (p : Nat) (f : ShaftPort → ShaftPort) : (s.modShaft p f).poisoned = s.poisoned := rfl
@[simp] theorem State.modShaft_spareUsed (p : Nat) (f : ShaftPort → ShaftPort) : (s.modShaft p f).spareUsed = s.spareUsed := rfl
@[simp] theorem State.modShaft_zeroing (p : Nat) (f : ShaftPort → ShaftPort) : (s.modShaft p f).zeroing = s.zeroing := rfl
@[simp] theorem State.modShaft_seamZero (p : Nat) (f : ShaftPort → ShaftPort) : (s.modShaft p f).seamZero = s.seamZero := rfl
@[simp] theorem State.modShaft_seamPoison (p : Nat) (f : ShaftPort → ShaftPort) : (s.modShaft p f).seamPoison = s.seamPoison := rfl
@[simp] theorem State.modShaft_quietAt (p : Nat) (f : ShaftPort → ShaftPort) : (s.modShaft p f).quietAt = s.quietAt := rfl
@[simp] theorem State.modShaft_flueHomes (p : Nat) (f : ShaftPort → ShaftPort) : (s.modShaft p f).flueHomes = s.flueHomes := rfl
@[simp] theorem State.modShaft_outOfUse (p : Nat) (f : ShaftPort → ShaftPort) : (s.modShaft p f).outOfUse = s.outOfUse := rfl
@[simp] theorem State.modShaft_ledgerFault (p : Nat) (f : ShaftPort → ShaftPort) : (s.modShaft p f).ledgerFault = s.ledgerFault := rfl
@[simp] theorem State.modShaft_degraded (p : Nat) (f : ShaftPort → ShaftPort) : (s.modShaft p f).degraded = s.degraded := rfl
@[simp] theorem State.modShaft_hangs (p : Nat) (f : ShaftPort → ShaftPort) : (s.modShaft p f).hangs = s.hangs := rfl
@[simp] theorem State.modShaft_nextHang (p : Nat) (f : ShaftPort → ShaftPort) : (s.modShaft p f).nextHang = s.nextHang := rfl
@[simp] theorem State.modShaft_ashpit (p : Nat) (f : ShaftPort → ShaftPort) : (s.modShaft p f).ashpit = s.ashpit := rfl
@[simp] theorem State.modShaft_ashpitNext (p : Nat) (f : ShaftPort → ShaftPort) : (s.modShaft p f).ashpitNext = s.ashpitNext := rfl
@[simp] theorem State.modShaft_ashpitHead (p : Nat) (f : ShaftPort → ShaftPort) : (s.modShaft p f).ashpitHead = s.ashpitHead := rfl
@[simp] theorem State.modShaft_mgmt (p : Nat) (f : ShaftPort → ShaftPort) : (s.modShaft p f).mgmt = s.mgmt := rfl

@[simp] theorem State.modCredits_pending (d : Nat) (f : DomCredits → DomCredits) : (s.modCredits d f).pending = s.pending := rfl
@[simp] theorem State.modCredits_freshCtr (d : Nat) (f : DomCredits → DomCredits) : (s.modCredits d f).freshCtr = s.freshCtr := rfl
@[simp] theorem State.modCredits_nextItem (d : Nat) (f : DomCredits → DomCredits) : (s.modCredits d f).nextItem = s.nextItem := rfl
@[simp] theorem State.modCredits_nextXfer (d : Nat) (f : DomCredits → DomCredits) : (s.modCredits d f).nextXfer = s.nextXfer := rfl
@[simp] theorem State.modCredits_out (d : Nat) (f : DomCredits → DomCredits) : (s.modCredits d f).out = s.out := rfl
@[simp] theorem State.modCredits_count (d : Nat) (f : DomCredits → DomCredits) : (s.modCredits d f).count = s.count := rfl
@[simp] theorem State.modCredits_running (d : Nat) (f : DomCredits → DomCredits) : (s.modCredits d f).running = s.running := rfl
@[simp] theorem State.modCredits_porst (d : Nat) (f : DomCredits → DomCredits) : (s.modCredits d f).porst = s.porst := rfl
@[simp] theorem State.modCredits_pilotFault (d : Nat) (f : DomCredits → DomCredits) : (s.modCredits d f).pilotFault = s.pilotFault := rfl
@[simp] theorem State.modCredits_mode (d : Nat) (f : DomCredits → DomCredits) : (s.modCredits d f).mode = s.mode := rfl
@[simp] theorem State.modCredits_power (d : Nat) (f : DomCredits → DomCredits) : (s.modCredits d f).power = s.power := rfl
@[simp] theorem State.modCredits_lastActivity (d : Nat) (f : DomCredits → DomCredits) : (s.modCredits d f).lastActivity = s.lastActivity := rfl
@[simp] theorem State.modCredits_lamp (d : Nat) (f : DomCredits → DomCredits) : (s.modCredits d f).lamp = s.lamp := rfl
@[simp] theorem State.modCredits_domains (d : Nat) (f : DomCredits → DomCredits) : (s.modCredits d f).domains = s.domains := rfl
@[simp] theorem State.modCredits_routing (d : Nat) (f : DomCredits → DomCredits) : (s.modCredits d f).routing = s.routing := rfl
@[simp] theorem State.modCredits_roots (d : Nat) (f : DomCredits → DomCredits) : (s.modCredits d f).roots = s.roots := rfl
@[simp] theorem State.modCredits_remap (d : Nat) (f : DomCredits → DomCredits) : (s.modCredits d f).remap = s.remap := rfl
@[simp] theorem State.modCredits_layoutRec (d : Nat) (f : DomCredits → DomCredits) : (s.modCredits d f).layoutRec = s.layoutRec := rfl
@[simp] theorem State.modCredits_layout (d : Nat) (f : DomCredits → DomCredits) : (s.modCredits d f).layout = s.layout := rfl
@[simp] theorem State.modCredits_norms (d : Nat) (f : DomCredits → DomCredits) : (s.modCredits d f).norms = s.norms := rfl
@[simp] theorem State.modCredits_threshold (d : Nat) (f : DomCredits → DomCredits) : (s.modCredits d f).threshold = s.threshold := rfl
@[simp] theorem State.modCredits_replicaEpoch (d : Nat) (f : DomCredits → DomCredits) : (s.modCredits d f).replicaEpoch = s.replicaEpoch := rfl
@[simp] theorem State.modCredits_storeEpoch (d : Nat) (f : DomCredits → DomCredits) : (s.modCredits d f).storeEpoch = s.storeEpoch := rfl
@[simp] theorem State.modCredits_reports (d : Nat) (f : DomCredits → DomCredits) : (s.modCredits d f).reports = s.reports := rfl
@[simp] theorem State.modCredits_reportsDropped (d : Nat) (f : DomCredits → DomCredits) : (s.modCredits d f).reportsDropped = s.reportsDropped := rfl
@[simp] theorem State.modCredits_reportSeq (d : Nat) (f : DomCredits → DomCredits) : (s.modCredits d f).reportSeq = s.reportSeq := rfl
@[simp] theorem State.modCredits_tallies (d : Nat) (f : DomCredits → DomCredits) : (s.modCredits d f).tallies = s.tallies := rfl
@[simp] theorem State.modCredits_domCounters (d : Nat) (f : DomCredits → DomCredits) : (s.modCredits d f).domCounters = s.domCounters := rfl
@[simp] theorem State.modCredits_devCounters (d : Nat) (f : DomCredits → DomCredits) : (s.modCredits d f).devCounters = s.devCounters := rfl
@[simp] theorem State.modCredits_recoveries (d : Nat) (f : DomCredits → DomCredits) : (s.modCredits d f).recoveries = s.recoveries := rfl
@[simp] theorem State.modCredits_fuses (d : Nat) (f : DomCredits → DomCredits) : (s.modCredits d f).fuses = s.fuses := rfl
@[simp] theorem State.modCredits_boot (d : Nat) (f : DomCredits → DomCredits) : (s.modCredits d f).boot = s.boot := rfl
@[simp] theorem State.modCredits_recovery (d : Nat) (f : DomCredits → DomCredits) : (s.modCredits d f).recovery = s.recovery := rfl
@[simp] theorem State.modCredits_pins (d : Nat) (f : DomCredits → DomCredits) : (s.modCredits d f).pins = s.pins := rfl
@[simp] theorem State.modCredits_rows (d : Nat) (f : DomCredits → DomCredits) : (s.modCredits d f).rows = s.rows := rfl
@[simp] theorem State.modCredits_insts (d : Nat) (f : DomCredits → DomCredits) : (s.modCredits d f).insts = s.insts := rfl
@[simp] theorem State.modCredits_foreman (d : Nat) (f : DomCredits → DomCredits) : (s.modCredits d f).foreman = s.foreman := rfl
@[simp] theorem State.modCredits_bulk (d : Nat) (f : DomCredits → DomCredits) : (s.modCredits d f).bulk = s.bulk := rfl
@[simp] theorem State.modCredits_ctxs (d : Nat) (f : DomCredits → DomCredits) : (s.modCredits d f).ctxs = s.ctxs := rfl
@[simp] theorem State.modCredits_adapters (d : Nat) (f : DomCredits → DomCredits) : (s.modCredits d f).adapters = s.adapters := rfl
@[simp] theorem State.modCredits_vocabs (d : Nat) (f : DomCredits → DomCredits) : (s.modCredits d f).vocabs = s.vocabs := rfl
@[simp] theorem State.modCredits_snapshots (d : Nat) (f : DomCredits → DomCredits) : (s.modCredits d f).snapshots = s.snapshots := rfl
@[simp] theorem State.modCredits_snapClock (d : Nat) (f : DomCredits → DomCredits) : (s.modCredits d f).snapClock = s.snapClock := rfl
@[simp] theorem State.modCredits_streams (d : Nat) (f : DomCredits → DomCredits) : (s.modCredits d f).streams = s.streams := rfl
@[simp] theorem State.modCredits_items (d : Nat) (f : DomCredits → DomCredits) : (s.modCredits d f).items = s.items := rfl
@[simp] theorem State.modCredits_store (d : Nat) (f : DomCredits → DomCredits) : (s.modCredits d f).store = s.store := rfl
@[simp] theorem State.modCredits_failed (d : Nat) (f : DomCredits → DomCredits) : (s.modCredits d f).failed = s.failed := rfl
@[simp] theorem State.modCredits_remapping (d : Nat) (f : DomCredits → DomCredits) : (s.modCredits d f).remapping = s.remapping := rfl
@[simp] theorem State.modCredits_chains (d : Nat) (f : DomCredits → DomCredits) : (s.modCredits d f).chains = s.chains := rfl
@[simp] theorem State.modCredits_passes (d : Nat) (f : DomCredits → DomCredits) : (s.modCredits d f).passes = s.passes := rfl
@[simp] theorem State.modCredits_shaft (d : Nat) (f : DomCredits → DomCredits) : (s.modCredits d f).shaft = s.shaft := rfl
@[simp] theorem State.modCredits_credits (d : Nat) (f : DomCredits → DomCredits) : (s.modCredits d f).credits = lmod s.credits d f := rfl
@[simp] theorem State.modCredits_queuedTx (d : Nat) (f : DomCredits → DomCredits) : (s.modCredits d f).queuedTx = s.queuedTx := rfl
@[simp] theorem State.modCredits_mem (d : Nat) (f : DomCredits → DomCredits) : (s.modCredits d f).mem = s.mem := rfl
@[simp] theorem State.modCredits_drift (d : Nat) (f : DomCredits → DomCredits) : (s.modCredits d f).drift = s.drift := rfl
@[simp] theorem State.modCredits_replicas (d : Nat) (f : DomCredits → DomCredits) : (s.modCredits d f).replicas = s.replicas := rfl
@[simp] theorem State.modCredits_dead (d : Nat) (f : DomCredits → DomCredits) : (s.modCredits d f).dead = s.dead := rfl
@[simp] theorem State.modCredits_xfers (d : Nat) (f : DomCredits → DomCredits) : (s.modCredits d f).xfers = s.xfers := rfl
@[simp] theorem State.modCredits_poisoned (d : Nat) (f : DomCredits → DomCredits) : (s.modCredits d f).poisoned = s.poisoned := rfl
@[simp] theorem State.modCredits_spareUsed (d : Nat) (f : DomCredits → DomCredits) : (s.modCredits d f).spareUsed = s.spareUsed := rfl
@[simp] theorem State.modCredits_zeroing (d : Nat) (f : DomCredits → DomCredits) : (s.modCredits d f).zeroing = s.zeroing := rfl
@[simp] theorem State.modCredits_seamZero (d : Nat) (f : DomCredits → DomCredits) : (s.modCredits d f).seamZero = s.seamZero := rfl
@[simp] theorem State.modCredits_seamPoison (d : Nat) (f : DomCredits → DomCredits) : (s.modCredits d f).seamPoison = s.seamPoison := rfl
@[simp] theorem State.modCredits_quietAt (d : Nat) (f : DomCredits → DomCredits) : (s.modCredits d f).quietAt = s.quietAt := rfl
@[simp] theorem State.modCredits_flueHomes (d : Nat) (f : DomCredits → DomCredits) : (s.modCredits d f).flueHomes = s.flueHomes := rfl
@[simp] theorem State.modCredits_outOfUse (d : Nat) (f : DomCredits → DomCredits) : (s.modCredits d f).outOfUse = s.outOfUse := rfl
@[simp] theorem State.modCredits_ledgerFault (d : Nat) (f : DomCredits → DomCredits) : (s.modCredits d f).ledgerFault = s.ledgerFault := rfl
@[simp] theorem State.modCredits_degraded (d : Nat) (f : DomCredits → DomCredits) : (s.modCredits d f).degraded = s.degraded := rfl
@[simp] theorem State.modCredits_hangs (d : Nat) (f : DomCredits → DomCredits) : (s.modCredits d f).hangs = s.hangs := rfl
@[simp] theorem State.modCredits_nextHang (d : Nat) (f : DomCredits → DomCredits) : (s.modCredits d f).nextHang = s.nextHang := rfl
@[simp] theorem State.modCredits_ashpit (d : Nat) (f : DomCredits → DomCredits) : (s.modCredits d f).ashpit = s.ashpit := rfl
@[simp] theorem State.modCredits_ashpitNext (d : Nat) (f : DomCredits → DomCredits) : (s.modCredits d f).ashpitNext = s.ashpitNext := rfl
@[simp] theorem State.modCredits_ashpitHead (d : Nat) (f : DomCredits → DomCredits) : (s.modCredits d f).ashpitHead = s.ashpitHead := rfl
@[simp] theorem State.modCredits_mgmt (d : Nat) (f : DomCredits → DomCredits) : (s.modCredits d f).mgmt = s.mgmt := rfl

@[simp] theorem State.modDrift_pending (q : Nat) (f : DriftPort → DriftPort) : (s.modDrift q f).pending = s.pending := rfl
@[simp] theorem State.modDrift_freshCtr (q : Nat) (f : DriftPort → DriftPort) : (s.modDrift q f).freshCtr = s.freshCtr := rfl
@[simp] theorem State.modDrift_nextItem (q : Nat) (f : DriftPort → DriftPort) : (s.modDrift q f).nextItem = s.nextItem := rfl
@[simp] theorem State.modDrift_nextXfer (q : Nat) (f : DriftPort → DriftPort) : (s.modDrift q f).nextXfer = s.nextXfer := rfl
@[simp] theorem State.modDrift_out (q : Nat) (f : DriftPort → DriftPort) : (s.modDrift q f).out = s.out := rfl
@[simp] theorem State.modDrift_count (q : Nat) (f : DriftPort → DriftPort) : (s.modDrift q f).count = s.count := rfl
@[simp] theorem State.modDrift_running (q : Nat) (f : DriftPort → DriftPort) : (s.modDrift q f).running = s.running := rfl
@[simp] theorem State.modDrift_porst (q : Nat) (f : DriftPort → DriftPort) : (s.modDrift q f).porst = s.porst := rfl
@[simp] theorem State.modDrift_pilotFault (q : Nat) (f : DriftPort → DriftPort) : (s.modDrift q f).pilotFault = s.pilotFault := rfl
@[simp] theorem State.modDrift_mode (q : Nat) (f : DriftPort → DriftPort) : (s.modDrift q f).mode = s.mode := rfl
@[simp] theorem State.modDrift_power (q : Nat) (f : DriftPort → DriftPort) : (s.modDrift q f).power = s.power := rfl
@[simp] theorem State.modDrift_lastActivity (q : Nat) (f : DriftPort → DriftPort) : (s.modDrift q f).lastActivity = s.lastActivity := rfl
@[simp] theorem State.modDrift_lamp (q : Nat) (f : DriftPort → DriftPort) : (s.modDrift q f).lamp = s.lamp := rfl
@[simp] theorem State.modDrift_domains (q : Nat) (f : DriftPort → DriftPort) : (s.modDrift q f).domains = s.domains := rfl
@[simp] theorem State.modDrift_routing (q : Nat) (f : DriftPort → DriftPort) : (s.modDrift q f).routing = s.routing := rfl
@[simp] theorem State.modDrift_roots (q : Nat) (f : DriftPort → DriftPort) : (s.modDrift q f).roots = s.roots := rfl
@[simp] theorem State.modDrift_remap (q : Nat) (f : DriftPort → DriftPort) : (s.modDrift q f).remap = s.remap := rfl
@[simp] theorem State.modDrift_layoutRec (q : Nat) (f : DriftPort → DriftPort) : (s.modDrift q f).layoutRec = s.layoutRec := rfl
@[simp] theorem State.modDrift_layout (q : Nat) (f : DriftPort → DriftPort) : (s.modDrift q f).layout = s.layout := rfl
@[simp] theorem State.modDrift_norms (q : Nat) (f : DriftPort → DriftPort) : (s.modDrift q f).norms = s.norms := rfl
@[simp] theorem State.modDrift_threshold (q : Nat) (f : DriftPort → DriftPort) : (s.modDrift q f).threshold = s.threshold := rfl
@[simp] theorem State.modDrift_replicaEpoch (q : Nat) (f : DriftPort → DriftPort) : (s.modDrift q f).replicaEpoch = s.replicaEpoch := rfl
@[simp] theorem State.modDrift_storeEpoch (q : Nat) (f : DriftPort → DriftPort) : (s.modDrift q f).storeEpoch = s.storeEpoch := rfl
@[simp] theorem State.modDrift_reports (q : Nat) (f : DriftPort → DriftPort) : (s.modDrift q f).reports = s.reports := rfl
@[simp] theorem State.modDrift_reportsDropped (q : Nat) (f : DriftPort → DriftPort) : (s.modDrift q f).reportsDropped = s.reportsDropped := rfl
@[simp] theorem State.modDrift_reportSeq (q : Nat) (f : DriftPort → DriftPort) : (s.modDrift q f).reportSeq = s.reportSeq := rfl
@[simp] theorem State.modDrift_tallies (q : Nat) (f : DriftPort → DriftPort) : (s.modDrift q f).tallies = s.tallies := rfl
@[simp] theorem State.modDrift_domCounters (q : Nat) (f : DriftPort → DriftPort) : (s.modDrift q f).domCounters = s.domCounters := rfl
@[simp] theorem State.modDrift_devCounters (q : Nat) (f : DriftPort → DriftPort) : (s.modDrift q f).devCounters = s.devCounters := rfl
@[simp] theorem State.modDrift_recoveries (q : Nat) (f : DriftPort → DriftPort) : (s.modDrift q f).recoveries = s.recoveries := rfl
@[simp] theorem State.modDrift_fuses (q : Nat) (f : DriftPort → DriftPort) : (s.modDrift q f).fuses = s.fuses := rfl
@[simp] theorem State.modDrift_boot (q : Nat) (f : DriftPort → DriftPort) : (s.modDrift q f).boot = s.boot := rfl
@[simp] theorem State.modDrift_recovery (q : Nat) (f : DriftPort → DriftPort) : (s.modDrift q f).recovery = s.recovery := rfl
@[simp] theorem State.modDrift_pins (q : Nat) (f : DriftPort → DriftPort) : (s.modDrift q f).pins = s.pins := rfl
@[simp] theorem State.modDrift_rows (q : Nat) (f : DriftPort → DriftPort) : (s.modDrift q f).rows = s.rows := rfl
@[simp] theorem State.modDrift_insts (q : Nat) (f : DriftPort → DriftPort) : (s.modDrift q f).insts = s.insts := rfl
@[simp] theorem State.modDrift_foreman (q : Nat) (f : DriftPort → DriftPort) : (s.modDrift q f).foreman = s.foreman := rfl
@[simp] theorem State.modDrift_bulk (q : Nat) (f : DriftPort → DriftPort) : (s.modDrift q f).bulk = s.bulk := rfl
@[simp] theorem State.modDrift_ctxs (q : Nat) (f : DriftPort → DriftPort) : (s.modDrift q f).ctxs = s.ctxs := rfl
@[simp] theorem State.modDrift_adapters (q : Nat) (f : DriftPort → DriftPort) : (s.modDrift q f).adapters = s.adapters := rfl
@[simp] theorem State.modDrift_vocabs (q : Nat) (f : DriftPort → DriftPort) : (s.modDrift q f).vocabs = s.vocabs := rfl
@[simp] theorem State.modDrift_snapshots (q : Nat) (f : DriftPort → DriftPort) : (s.modDrift q f).snapshots = s.snapshots := rfl
@[simp] theorem State.modDrift_snapClock (q : Nat) (f : DriftPort → DriftPort) : (s.modDrift q f).snapClock = s.snapClock := rfl
@[simp] theorem State.modDrift_streams (q : Nat) (f : DriftPort → DriftPort) : (s.modDrift q f).streams = s.streams := rfl
@[simp] theorem State.modDrift_items (q : Nat) (f : DriftPort → DriftPort) : (s.modDrift q f).items = s.items := rfl
@[simp] theorem State.modDrift_store (q : Nat) (f : DriftPort → DriftPort) : (s.modDrift q f).store = s.store := rfl
@[simp] theorem State.modDrift_failed (q : Nat) (f : DriftPort → DriftPort) : (s.modDrift q f).failed = s.failed := rfl
@[simp] theorem State.modDrift_remapping (q : Nat) (f : DriftPort → DriftPort) : (s.modDrift q f).remapping = s.remapping := rfl
@[simp] theorem State.modDrift_chains (q : Nat) (f : DriftPort → DriftPort) : (s.modDrift q f).chains = s.chains := rfl
@[simp] theorem State.modDrift_passes (q : Nat) (f : DriftPort → DriftPort) : (s.modDrift q f).passes = s.passes := rfl
@[simp] theorem State.modDrift_shaft (q : Nat) (f : DriftPort → DriftPort) : (s.modDrift q f).shaft = s.shaft := rfl
@[simp] theorem State.modDrift_credits (q : Nat) (f : DriftPort → DriftPort) : (s.modDrift q f).credits = s.credits := rfl
@[simp] theorem State.modDrift_queuedTx (q : Nat) (f : DriftPort → DriftPort) : (s.modDrift q f).queuedTx = s.queuedTx := rfl
@[simp] theorem State.modDrift_mem (q : Nat) (f : DriftPort → DriftPort) : (s.modDrift q f).mem = s.mem := rfl
@[simp] theorem State.modDrift_drift (q : Nat) (f : DriftPort → DriftPort) : (s.modDrift q f).drift = lmod s.drift q f := rfl
@[simp] theorem State.modDrift_replicas (q : Nat) (f : DriftPort → DriftPort) : (s.modDrift q f).replicas = s.replicas := rfl
@[simp] theorem State.modDrift_dead (q : Nat) (f : DriftPort → DriftPort) : (s.modDrift q f).dead = s.dead := rfl
@[simp] theorem State.modDrift_xfers (q : Nat) (f : DriftPort → DriftPort) : (s.modDrift q f).xfers = s.xfers := rfl
@[simp] theorem State.modDrift_poisoned (q : Nat) (f : DriftPort → DriftPort) : (s.modDrift q f).poisoned = s.poisoned := rfl
@[simp] theorem State.modDrift_spareUsed (q : Nat) (f : DriftPort → DriftPort) : (s.modDrift q f).spareUsed = s.spareUsed := rfl
@[simp] theorem State.modDrift_zeroing (q : Nat) (f : DriftPort → DriftPort) : (s.modDrift q f).zeroing = s.zeroing := rfl
@[simp] theorem State.modDrift_seamZero (q : Nat) (f : DriftPort → DriftPort) : (s.modDrift q f).seamZero = s.seamZero := rfl
@[simp] theorem State.modDrift_seamPoison (q : Nat) (f : DriftPort → DriftPort) : (s.modDrift q f).seamPoison = s.seamPoison := rfl
@[simp] theorem State.modDrift_quietAt (q : Nat) (f : DriftPort → DriftPort) : (s.modDrift q f).quietAt = s.quietAt := rfl
@[simp] theorem State.modDrift_flueHomes (q : Nat) (f : DriftPort → DriftPort) : (s.modDrift q f).flueHomes = s.flueHomes := rfl
@[simp] theorem State.modDrift_outOfUse (q : Nat) (f : DriftPort → DriftPort) : (s.modDrift q f).outOfUse = s.outOfUse := rfl
@[simp] theorem State.modDrift_ledgerFault (q : Nat) (f : DriftPort → DriftPort) : (s.modDrift q f).ledgerFault = s.ledgerFault := rfl
@[simp] theorem State.modDrift_degraded (q : Nat) (f : DriftPort → DriftPort) : (s.modDrift q f).degraded = s.degraded := rfl
@[simp] theorem State.modDrift_hangs (q : Nat) (f : DriftPort → DriftPort) : (s.modDrift q f).hangs = s.hangs := rfl
@[simp] theorem State.modDrift_nextHang (q : Nat) (f : DriftPort → DriftPort) : (s.modDrift q f).nextHang = s.nextHang := rfl
@[simp] theorem State.modDrift_ashpit (q : Nat) (f : DriftPort → DriftPort) : (s.modDrift q f).ashpit = s.ashpit := rfl
@[simp] theorem State.modDrift_ashpitNext (q : Nat) (f : DriftPort → DriftPort) : (s.modDrift q f).ashpitNext = s.ashpitNext := rfl
@[simp] theorem State.modDrift_ashpitHead (q : Nat) (f : DriftPort → DriftPort) : (s.modDrift q f).ashpitHead = s.ashpitHead := rfl
@[simp] theorem State.modDrift_mgmt (q : Nat) (f : DriftPort → DriftPort) : (s.modDrift q f).mgmt = s.mgmt := rfl

@[simp] theorem State.modHang_pending (k : Nat) (f : Hang → Hang) : (s.modHang k f).pending = s.pending := rfl
@[simp] theorem State.modHang_freshCtr (k : Nat) (f : Hang → Hang) : (s.modHang k f).freshCtr = s.freshCtr := rfl
@[simp] theorem State.modHang_nextItem (k : Nat) (f : Hang → Hang) : (s.modHang k f).nextItem = s.nextItem := rfl
@[simp] theorem State.modHang_nextXfer (k : Nat) (f : Hang → Hang) : (s.modHang k f).nextXfer = s.nextXfer := rfl
@[simp] theorem State.modHang_out (k : Nat) (f : Hang → Hang) : (s.modHang k f).out = s.out := rfl
@[simp] theorem State.modHang_count (k : Nat) (f : Hang → Hang) : (s.modHang k f).count = s.count := rfl
@[simp] theorem State.modHang_running (k : Nat) (f : Hang → Hang) : (s.modHang k f).running = s.running := rfl
@[simp] theorem State.modHang_porst (k : Nat) (f : Hang → Hang) : (s.modHang k f).porst = s.porst := rfl
@[simp] theorem State.modHang_pilotFault (k : Nat) (f : Hang → Hang) : (s.modHang k f).pilotFault = s.pilotFault := rfl
@[simp] theorem State.modHang_mode (k : Nat) (f : Hang → Hang) : (s.modHang k f).mode = s.mode := rfl
@[simp] theorem State.modHang_power (k : Nat) (f : Hang → Hang) : (s.modHang k f).power = s.power := rfl
@[simp] theorem State.modHang_lastActivity (k : Nat) (f : Hang → Hang) : (s.modHang k f).lastActivity = s.lastActivity := rfl
@[simp] theorem State.modHang_lamp (k : Nat) (f : Hang → Hang) : (s.modHang k f).lamp = s.lamp := rfl
@[simp] theorem State.modHang_domains (k : Nat) (f : Hang → Hang) : (s.modHang k f).domains = s.domains := rfl
@[simp] theorem State.modHang_routing (k : Nat) (f : Hang → Hang) : (s.modHang k f).routing = s.routing := rfl
@[simp] theorem State.modHang_roots (k : Nat) (f : Hang → Hang) : (s.modHang k f).roots = s.roots := rfl
@[simp] theorem State.modHang_remap (k : Nat) (f : Hang → Hang) : (s.modHang k f).remap = s.remap := rfl
@[simp] theorem State.modHang_layoutRec (k : Nat) (f : Hang → Hang) : (s.modHang k f).layoutRec = s.layoutRec := rfl
@[simp] theorem State.modHang_layout (k : Nat) (f : Hang → Hang) : (s.modHang k f).layout = s.layout := rfl
@[simp] theorem State.modHang_norms (k : Nat) (f : Hang → Hang) : (s.modHang k f).norms = s.norms := rfl
@[simp] theorem State.modHang_threshold (k : Nat) (f : Hang → Hang) : (s.modHang k f).threshold = s.threshold := rfl
@[simp] theorem State.modHang_replicaEpoch (k : Nat) (f : Hang → Hang) : (s.modHang k f).replicaEpoch = s.replicaEpoch := rfl
@[simp] theorem State.modHang_storeEpoch (k : Nat) (f : Hang → Hang) : (s.modHang k f).storeEpoch = s.storeEpoch := rfl
@[simp] theorem State.modHang_reports (k : Nat) (f : Hang → Hang) : (s.modHang k f).reports = s.reports := rfl
@[simp] theorem State.modHang_reportsDropped (k : Nat) (f : Hang → Hang) : (s.modHang k f).reportsDropped = s.reportsDropped := rfl
@[simp] theorem State.modHang_reportSeq (k : Nat) (f : Hang → Hang) : (s.modHang k f).reportSeq = s.reportSeq := rfl
@[simp] theorem State.modHang_tallies (k : Nat) (f : Hang → Hang) : (s.modHang k f).tallies = s.tallies := rfl
@[simp] theorem State.modHang_domCounters (k : Nat) (f : Hang → Hang) : (s.modHang k f).domCounters = s.domCounters := rfl
@[simp] theorem State.modHang_devCounters (k : Nat) (f : Hang → Hang) : (s.modHang k f).devCounters = s.devCounters := rfl
@[simp] theorem State.modHang_recoveries (k : Nat) (f : Hang → Hang) : (s.modHang k f).recoveries = s.recoveries := rfl
@[simp] theorem State.modHang_fuses (k : Nat) (f : Hang → Hang) : (s.modHang k f).fuses = s.fuses := rfl
@[simp] theorem State.modHang_boot (k : Nat) (f : Hang → Hang) : (s.modHang k f).boot = s.boot := rfl
@[simp] theorem State.modHang_recovery (k : Nat) (f : Hang → Hang) : (s.modHang k f).recovery = s.recovery := rfl
@[simp] theorem State.modHang_pins (k : Nat) (f : Hang → Hang) : (s.modHang k f).pins = s.pins := rfl
@[simp] theorem State.modHang_rows (k : Nat) (f : Hang → Hang) : (s.modHang k f).rows = s.rows := rfl
@[simp] theorem State.modHang_insts (k : Nat) (f : Hang → Hang) : (s.modHang k f).insts = s.insts := rfl
@[simp] theorem State.modHang_foreman (k : Nat) (f : Hang → Hang) : (s.modHang k f).foreman = s.foreman := rfl
@[simp] theorem State.modHang_bulk (k : Nat) (f : Hang → Hang) : (s.modHang k f).bulk = s.bulk := rfl
@[simp] theorem State.modHang_ctxs (k : Nat) (f : Hang → Hang) : (s.modHang k f).ctxs = s.ctxs := rfl
@[simp] theorem State.modHang_adapters (k : Nat) (f : Hang → Hang) : (s.modHang k f).adapters = s.adapters := rfl
@[simp] theorem State.modHang_vocabs (k : Nat) (f : Hang → Hang) : (s.modHang k f).vocabs = s.vocabs := rfl
@[simp] theorem State.modHang_snapshots (k : Nat) (f : Hang → Hang) : (s.modHang k f).snapshots = s.snapshots := rfl
@[simp] theorem State.modHang_snapClock (k : Nat) (f : Hang → Hang) : (s.modHang k f).snapClock = s.snapClock := rfl
@[simp] theorem State.modHang_streams (k : Nat) (f : Hang → Hang) : (s.modHang k f).streams = s.streams := rfl
@[simp] theorem State.modHang_items (k : Nat) (f : Hang → Hang) : (s.modHang k f).items = s.items := rfl
@[simp] theorem State.modHang_store (k : Nat) (f : Hang → Hang) : (s.modHang k f).store = s.store := rfl
@[simp] theorem State.modHang_failed (k : Nat) (f : Hang → Hang) : (s.modHang k f).failed = s.failed := rfl
@[simp] theorem State.modHang_remapping (k : Nat) (f : Hang → Hang) : (s.modHang k f).remapping = s.remapping := rfl
@[simp] theorem State.modHang_chains (k : Nat) (f : Hang → Hang) : (s.modHang k f).chains = s.chains := rfl
@[simp] theorem State.modHang_passes (k : Nat) (f : Hang → Hang) : (s.modHang k f).passes = s.passes := rfl
@[simp] theorem State.modHang_shaft (k : Nat) (f : Hang → Hang) : (s.modHang k f).shaft = s.shaft := rfl
@[simp] theorem State.modHang_credits (k : Nat) (f : Hang → Hang) : (s.modHang k f).credits = s.credits := rfl
@[simp] theorem State.modHang_queuedTx (k : Nat) (f : Hang → Hang) : (s.modHang k f).queuedTx = s.queuedTx := rfl
@[simp] theorem State.modHang_mem (k : Nat) (f : Hang → Hang) : (s.modHang k f).mem = s.mem := rfl
@[simp] theorem State.modHang_drift (k : Nat) (f : Hang → Hang) : (s.modHang k f).drift = s.drift := rfl
@[simp] theorem State.modHang_replicas (k : Nat) (f : Hang → Hang) : (s.modHang k f).replicas = s.replicas := rfl
@[simp] theorem State.modHang_dead (k : Nat) (f : Hang → Hang) : (s.modHang k f).dead = s.dead := rfl
@[simp] theorem State.modHang_xfers (k : Nat) (f : Hang → Hang) : (s.modHang k f).xfers = s.xfers := rfl
@[simp] theorem State.modHang_poisoned (k : Nat) (f : Hang → Hang) : (s.modHang k f).poisoned = s.poisoned := rfl
@[simp] theorem State.modHang_spareUsed (k : Nat) (f : Hang → Hang) : (s.modHang k f).spareUsed = s.spareUsed := rfl
@[simp] theorem State.modHang_zeroing (k : Nat) (f : Hang → Hang) : (s.modHang k f).zeroing = s.zeroing := rfl
@[simp] theorem State.modHang_seamZero (k : Nat) (f : Hang → Hang) : (s.modHang k f).seamZero = s.seamZero := rfl
@[simp] theorem State.modHang_seamPoison (k : Nat) (f : Hang → Hang) : (s.modHang k f).seamPoison = s.seamPoison := rfl
@[simp] theorem State.modHang_quietAt (k : Nat) (f : Hang → Hang) : (s.modHang k f).quietAt = s.quietAt := rfl
@[simp] theorem State.modHang_flueHomes (k : Nat) (f : Hang → Hang) : (s.modHang k f).flueHomes = s.flueHomes := rfl
@[simp] theorem State.modHang_outOfUse (k : Nat) (f : Hang → Hang) : (s.modHang k f).outOfUse = s.outOfUse := rfl
@[simp] theorem State.modHang_ledgerFault (k : Nat) (f : Hang → Hang) : (s.modHang k f).ledgerFault = s.ledgerFault := rfl
@[simp] theorem State.modHang_degraded (k : Nat) (f : Hang → Hang) : (s.modHang k f).degraded = s.degraded := rfl
@[simp] theorem State.modHang_hangs (k : Nat) (f : Hang → Hang) : (s.modHang k f).hangs = tmod s.hangs k f := rfl
@[simp] theorem State.modHang_nextHang (k : Nat) (f : Hang → Hang) : (s.modHang k f).nextHang = s.nextHang := rfl
@[simp] theorem State.modHang_ashpit (k : Nat) (f : Hang → Hang) : (s.modHang k f).ashpit = s.ashpit := rfl
@[simp] theorem State.modHang_ashpitNext (k : Nat) (f : Hang → Hang) : (s.modHang k f).ashpitNext = s.ashpitNext := rfl
@[simp] theorem State.modHang_ashpitHead (k : Nat) (f : Hang → Hang) : (s.modHang k f).ashpitHead = s.ashpitHead := rfl
@[simp] theorem State.modHang_mgmt (k : Nat) (f : Hang → Hang) : (s.modHang k f).mgmt = s.mgmt := rfl

end Sys2Proof.Machine
end

