-- ==== Sys2Proof/Laws/Whole.lean ====
section
/-! SUPPORT. The frame of every command: which of the fields that belong to the whole device it may change. -/

namespace Sys2Proof.Safety

open Sys2Proof Sys2Proof.Machine

/-- What a command may change among the fields of `Core`. -/
def Whole (c : Instr) (s u : State) : Prop :=
  match c with
  | .write _ _ p => Changes (Core.putLamp · u) s u ∨
      ∃ a, Changes (fun c => { c with mem := memWrite c.mem a (slice (Tx.data p) 0 (Tx.length p)) }) s u
  | .layoutSet _ _ => Changes (Core.putLayoutRec · u) s u
  | .canarySet _ _ => Changes (Core.putThreshold · u) s u
  | .acquire _ _ _ _ => Changes (Core.putLamp · u) s u
  | .release _ _ _ _ => Changes (Core.putLamp · u) s u
  | .breakLamp _ _ _ _ => Changes (Core.putLamp · u) s u
  | .lampExpiry _ => Changes (Core.putLamp · u) s u
  | .registerWrite _ _ _ _ _ => Changes (Core.putLamp · u) s u
  | .recoveryComplete _ _ _ _ => Changes (Core.putRecovery · u) s u ∧ (u.mem = s.mem ∨ u.mem = [])
  | .blkPorstAssert _ => u.base.core = { State.reset.base.core with pending := s.pending, fuses := s.fuses, porst := true, boot := u.boot }
  | .blkPorstRelease _ => u.base.core = s.base.core ∨ s.porst = true ∧ u.base.core = { s.base.core with porst := false, boot := u.boot }
  | .deviceCountStart _ => u = s ∨ s.porst = false ∧ s.pilotFault = false ∧ u.base.core = { s.base.core with count := 0, running := true, boot := u.boot }
  | .pilotRefclkLoss t => u = s ∨ u.base.core = { (s.advance t).base.core with running := false, pilotFault := true }
  | .bootComplete _ _ _ _ => Changes (Core.putBoot · u) s u
  | .bundleWrite _ _ => Changes (Core.putBoot · u) s u
  | .bundleCommit _ _ => Changes (Core.putBoot · u) s u
  | .domainMapSet _ _ => Changes (Core.putDomains · u) s u
  | .routingSet _ _ => Changes (Core.putRouting · u) s u
  | .policyRootSet _ _ => Changes (Core.putRoots · u) s u
  | _ => Changes id s u

theorem whole (c : Instr) (s u : State) (h : exec c s = .next u) : Whole c s u := by
  cases c with
  | admitPacket a0 a1 a2 => exact (execAdmit_kept a0 a1 a2 s u h).changes
  | chunk a0 a1 a2 => exact (execChunk_kept a0 a1 a2 s u h).changes
  | tap a0 a1 a2 => exact (execTap_kept a0 a1 a2 s u h).changes
  | candidates a0 a1 a2 => exact (execCandidates_kept a0 a1 a2 s u h).changes
  | credit a0 a1 a2 => exact (execCredit_kept a0 a1 a2 s u h).changes
  | idle a0 a1 a2 => exact (execIdle_kept a0 a1 a2 s u h).changes
  | read a0 a1 a2 => exact (execRead_kept a0 a1 a2 s u h).changes
  | write a0 a1 a2 => exact execWrite_core a0 a1 a2 s u h
  | completion a0 a1 a2 => exact (execCompletion_kept a0 a1 a2 s u h).changes
  | bulkReadTimeout a0 a1 a2 => exact (execBulkReadTimeout_kept a0 a1 a2 s u h).changes
  | chunkReleaseTime a0 a1 => exact (execChunkReleaseTime_kept a0 a1 s u h).changes
  | candidatesReleaseTime a0 a1 => exact (execCandidatesReleaseTime_kept a0 a1 s u h).changes
  | runEnd a0 a1 => exact (execRunEnd_kept a0 a1 s u h).changes
  | intakeTaskComplete a0 a1 a2 a3 a4 => exact execIntakeTaskComplete_core a0 a1 a2 a3 a4 s u h
  | lookupReturn a0 a1 a2 a3 a4 => exact execLookupReturn_core a0 a1 a2 a3 a4 s u h
  | lookaheadTaskComplete a0 a1 a2 a3 a4 a5 => exact execLookaheadTaskComplete_core a0 a1 a2 a3 a4 a5 s u h
  | decideStage a0 a1 => exact execDecideStage_core a0 a1 s u h
  | commitStep a0 a1 a2 => exact execCommitStep_core a0 a1 a2 s u h
  | gateEvaluation a0 a1 a2 => exact execGateEvaluation_core a0 a1 a2 s u h
  | resolverScore a0 a1 a2 a3 => exact execResolverScore_core a0 a1 a2 a3 s u h
  | firing a0 a1 => exact execFiring_core a0 a1 s u h
  | gatePassTick a0 a1 => exact execGatePassTick_core a0 a1 s u h
  | fluePassEnd a0 a1 a2 a3 a4 => exact execFluePassEnd_core a0 a1 a2 a3 a4 s u h
  | tapSkewDeadline a0 a1 a2 => exact (execTapSkewDeadline_kept a0 a1 a2 s u h).changes
  | proposalCutoff a0 a1 a2 => exact execProposalCutoff_core a0 a1 a2 s u h
  | requestEvaluationComplete a0 a1 a2 => exact execRequestEvaluationComplete_core a0 a1 a2 s u h
  | checkpointWriteComplete a0 a1 => exact (execCheckpointWriteComplete_kept a0 a1 s u h).changes
  | snapshotWriteComplete a0 a1 a2 => exact (execSnapshotWriteComplete_kept a0 a1 a2 s u h).changes
  | snapshotRestoreComplete a0 a1 a2 => exact execSnapshotRestoreComplete_core a0 a1 a2 s u h
  | warmIn a0 a1 => exact (execWarmIn_kept a0 a1 s u h).changes
  | coolTime a0 a1 => exact (execCoolTime_kept a0 a1 s u h).changes
  | streamClosed a0 a1 => exact (execStreamClosed_kept a0 a1 s u h).changes
  | streamRestoreComplete a0 a1 => exact (execStreamRestoreComplete_kept a0 a1 s u h).changes
  | transferAbsorbed a0 a1 => exact (execTransferAbsorbed_kept a0 a1 s u h).changes
  | zeroingComplete a0 a1 => exact (execZeroingComplete_kept a0 a1 s u h).changes
  | imageLoadComplete a0 a1 => exact (execImageLoadComplete_kept a0 a1 s u h).changes
  | fpSweepComplete a0 => exact (execFpSweepComplete_kept a0 s u h).changes
  | deviceQuery a0 a1 => exact (execDeviceQuery_kept a0 a1 s u h).changes
  | layoutSet a0 a1 => exact execLayoutSet_core a0 a1 s u h
  | contextCreate a0 a1 => exact (execContextCreate_kept a0 a1 s u h).changes
  | contextClose a0 a1 => exact (execContextClose_kept a0 a1 s u h).changes
  | contextReset a0 a1 => exact (execContextReset_kept a0 a1 s u h).changes
  | contextSet a0 a1 => exact (execContextSet_kept a0 a1 s u h).changes
  | contextQuery a0 a1 => exact (execContextQuery_kept a0 a1 s u h).changes
  | capacitySet a0 a1 => exact (execCapacitySet_kept a0 a1 s u h).changes
  | streamAdmit a0 a1 => exact (execStreamAdmit_kept a0 a1 s u h).changes
  | streamClose a0 a1 => exact (execStreamClose_kept a0 a1 s u h).changes
  | streamHold a0 a1 => exact (execStreamHold_kept a0 a1 s u h).changes
  | streamResume a0 a1 => exact (execStreamResume_kept a0 a1 s u h).changes
  | streamSet a0 a1 => exact (execStreamSet_kept a0 a1 s u h).changes
  | streamQuery a0 a1 => exact (execStreamQuery_kept a0 a1 s u h).changes
  | prefixDrop a0 a1 => exact (execPrefixDrop_kept a0 a1 s u h).changes
  | imageStage a0 a1 => exact (execImageStage_kept a0 a1 s u h).changes
  | imageInstall a0 a1 => exact (execImageInstall_kept a0 a1 s u h).changes
  | imageQuery a0 a1 => exact (execImageQuery_kept a0 a1 s u h).changes
  | vocabLoad a0 a1 => exact (execVocabLoad_kept a0 a1 s u h).changes
  | adapterSlotAlloc a0 a1 => exact (execAdapterSlotAlloc_kept a0 a1 s u h).changes
  | adapterSlotFree a0 a1 => exact (execAdapterSlotFree_kept a0 a1 s u h).changes
  | adapterPublish a0 a1 => exact (execAdapterPublish_kept a0 a1 s u h).changes
  | adapterWithdraw a0 a1 => exact (execAdapterWithdraw_kept a0 a1 s u h).changes
  | tapNormLoad a0 a1 => exact (execTapNormLoad_kept a0 a1 s u h).changes
  | fpSetDefine a0 a1 => exact (execFpSetDefine_kept a0 a1 s u h).changes
  | fpEpochOpen a0 a1 => exact (execFpEpochOpen_kept a0 a1 s u h).changes
  | fpUpdate a0 a1 => exact (execFpUpdate_kept a0 a1 s u h).changes
  | fpEpochCommit a0 a1 => exact (execFpEpochCommit_kept a0 a1 s u h).changes
  | fpEpochAbort a0 a1 => exact (execFpEpochAbort_kept a0 a1 s u h).changes
  | fpQuery a0 a1 => exact (execFpQuery_kept a0 a1 s u h).changes
  | tallyAlloc a0 a1 => exact (execTallyAlloc_kept a0 a1 s u h).changes
  | tallyFree a0 a1 => exact (execTallyFree_kept a0 a1 s u h).changes
  | tallySet a0 a1 => exact (execTallySet_kept a0 a1 s u h).changes
  | tallyRead a0 a1 => exact (execTallyRead_kept a0 a1 s u h).changes
  | canarySet a0 a1 => exact execCanarySet_core a0 a1 s u h
  | faultQuery a0 a1 => exact (execFaultQuery_kept a0 a1 s u h).changes
  | ashpitRead a0 a1 => exact (execAshpitRead_kept a0 a1 s u h).changes
  | counterRead a0 a1 => exact (execCounterRead_kept a0 a1 s u h).changes
  | telemetryRead a0 a1 => exact (execTelemetryRead_kept a0 a1 s u h).changes
  | driftPeerState a0 a1 => exact (execDriftPeerState_kept a0 a1 s u h).changes
  | snapshotMigrate a0 a1 => exact (execSnapshotMigrate_kept a0 a1 s u h).changes
  | snapshotMigrateOutcome a0 a1 a2 => exact (execSnapshotMigrateOutcome_kept a0 a1 a2 s u h).changes
  | streamTakeover a0 a1 => exact (execStreamTakeover_kept a0 a1 s u h).changes
  | cmdTail a0 a1 a2 a3 => exact (execCmdTail_kept a0 a1 a2 a3 s u h).changes
  | cplHead a0 a1 a2 a3 => exact (execCplHead_kept a0 a1 a2 a3 s u h).changes
  | evtHead a0 a1 a2 a3 => exact (execEvtHead_kept a0 a1 a2 a3 s u h).changes
  | flush a0 a1 a2 a3 => exact (execFlush_kept a0 a1 a2 a3 s u h).changes
  | flushDiscard a0 a1 a2 => exact (execFlushDiscard_kept a0 a1 a2 s u h).changes
  | acquire a0 a1 a2 a3 => exact execAcquire_core a0 a1 a2 a3 s u h
  | release a0 a1 a2 a3 => exact execRelease_core a0 a1 a2 a3 s u h
  | breakLamp a0 a1 a2 a3 => exact execBreakLamp_core a0 a1 a2 a3 s u h
  | lampExpiry a0 => exact execLampExpiry_core a0 s u h
  | ledgerTotalRead a0 a1 a2 => exact (execLedgerTotalRead_kept a0 a1 a2 s u h).changes
  | lowWordRead a0 a1 a2 a3 => exact (execLowWordRead_kept a0 a1 a2 a3 s u h).changes
  | registerWrite a0 a1 a2 a3 a4 => exact execRegisterWrite_core a0 a1 a2 a3 a4 s u h
  | signal a0 a1 a2 a3 a4 a5 => exact (execSignal_kept a0 a1 a2 a3 a4 a5 s u h).changes
  | consume a0 a1 a2 a3 a4 a5 => exact (execConsume_kept a0 a1 a2 a3 a4 a5 s u h).changes
  | canaryEvaluation a0 a1 a2 => exact execCanaryEvaluation_core a0 a1 a2 s u h
  | ashpitCaptureComplete a0 a1 a2 => exact (execAshpitCaptureComplete_kept a0 a1 a2 s u h).changes
  | suspectResetComplete a0 a1 => exact (execSuspectResetComplete_kept a0 a1 s u h).changes
  | replayPass a0 a1 => exact (execReplayPass_kept a0 a1 s u h).changes
  | replayTimeout a0 a1 => exact (execReplayTimeout_kept a0 a1 s u h).changes
  | foremanFailure a0 => exact execForemanFailure_core a0 s u h
  | foremanRestartComplete a0 a1 => exact execForemanRestartComplete_core a0 a1 s u h
  | unitInternalError a0 a1 => exact execUnitInternalError_core a0 a1 s u h
  | heartbeatMiss a0 a1 => exact execHeartbeatMiss_core a0 a1 s u h
  | remapComplete a0 a1 => exact (execRemapComplete_kept a0 a1 s u h).changes
  | recoveryComplete a0 a1 a2 a3 => exact execRecoveryComplete_core a0 a1 a2 a3 s u h
  | ledgerQuiesceTimeout a0 => exact (execLedgerQuiesceTimeout_kept a0 s u h).changes
  | scrub a0 a1 a2 => exact (execScrub_kept a0 a1 a2 s u h).changes
  | dormantEntry a0 => exact (execDormantEntry_kept a0 s u h).changes
  | rowPowerGate a0 a1 => exact (execRowPowerGate_kept a0 a1 s u h).changes
  | rowWakeComplete a0 a1 => exact (execRowWakeComplete_kept a0 a1 s u h).changes
  | vidStep a0 => exact execVidStep_core a0 s u h
  | sensorSample a0 a1 => exact execSensorSample_core a0 a1 s u h
  | thermalRelease a0 => exact execThermalRelease_core a0 s u h
  | blkPorstAssert a0 => exact execBlkPorstAssert_core a0 s u h
  | blkPorstRelease a0 => exact execBlkPorstRelease_core a0 s u h
  | deviceCountStart a0 => exact execDeviceCountStart_core a0 s u h
  | blkWarmAssert a0 => exact execBlkWarmAssert_core a0 s u h
  | blkWarmRelease a0 => exact execBlkWarmRelease_core a0 s u h
  | pilotRefclkLoss a0 => exact execPilotRefclkLoss_core a0 s u h
  | driftRefclkLoss a0 => exact execDriftRefclkLoss_core a0 s u h
  | bootComplete a0 a1 a2 a3 => exact execBootComplete_core a0 a1 a2 a3 s u h
  | shaftTrainingStart a0 a1 => exact (execShaftTrainingStart_kept a0 a1 s u h).changes
  | shaftTrainingComplete a0 a1 a2 => exact (execShaftTrainingComplete_kept a0 a1 a2 s u h).changes
  | shaftRetrain a0 a1 => exact (execShaftRetrain_kept a0 a1 s u h).changes
  | shaftRetrainComplete a0 a1 a2 => exact (execShaftRetrainComplete_kept a0 a1 a2 s u h).changes
  | shaftLinkFailure a0 a1 a2 a3 => exact (execShaftLinkFailure_kept a0 a1 a2 a3 s u h).changes
  | idleRetrainRequest a0 a1 => exact (execIdleRetrainRequest_kept a0 a1 s u h).changes
  | creditInitTimeout a0 a1 => exact (execCreditInitTimeout_kept a0 a1 s u h).changes
  | creditReturn a0 a1 => exact (execCreditReturn_kept a0 a1 s u h).changes
  | shaftStall a0 a1 => exact (execShaftStall_kept a0 a1 s u h).changes
  | driftTrainingComplete a0 a1 a2 => exact (execDriftTrainingComplete_kept a0 a1 a2 s u h).changes
  | hello a0 a1 a2 a3 a4 => exact (execHello_kept a0 a1 a2 a3 a4 s u h).changes
  | driftCredit a0 a1 a2 a3 => exact (execDriftCredit_kept a0 a1 a2 a3 s u h).changes
  | nak a0 a1 a2 => exact (execNak_kept a0 a1 a2 s u h).changes
  | ackTimeout a0 a1 => exact (execAckTimeout_kept a0 a1 s u h).changes
  | idleGapCredit a0 a1 => exact (execIdleGapCredit_kept a0 a1 s u h).changes
  | driftDark a0 a1 => exact (execDriftDark_kept a0 a1 s u h).changes
  | fpRecord a0 a1 a2 a3 a4 => exact (execFpRecord_kept a0 a1 a2 a3 a4 s u h).changes
  | fpCommit a0 a1 a2 a3 a4 => exact (execFpCommit_kept a0 a1 a2 a3 a4 s u h).changes
  | fpAbort a0 a1 a2 a3 => exact (execFpAbort_kept a0 a1 a2 a3 s u h).changes
  | snapData a0 a1 a2 a3 a4 a5 => exact (execSnapData_kept a0 a1 a2 a3 a4 a5 s u h).changes
  | snapSeal a0 a1 a2 a3 a4 a5 a6 a7 => exact (execSnapSeal_kept a0 a1 a2 a3 a4 a5 a6 a7 s u h).changes
  | ckptData a0 a1 a2 a3 a4 a5 a6 => exact (execCkptData_kept a0 a1 a2 a3 a4 a5 a6 s u h).changes
  | ckptSeal a0 a1 a2 a3 a4 a5 => exact (execCkptSeal_kept a0 a1 a2 a3 a4 a5 s u h).changes
  | ckptDrop a0 a1 a2 a3 => exact (execCkptDrop_kept a0 a1 a2 a3 s u h).changes
  | bundleWrite a0 a1 => exact execBundleWrite_core a0 a1 s u h
  | bundleCommit a0 a1 => exact execBundleCommit_core a0 a1 s u h
  | bundleStatus a0 a1 => exact (execBundleStatus_kept a0 a1 s u h).changes
  | domainMapSet a0 a1 => exact execDomainMapSet_core a0 a1 s u h
  | routingSet a0 a1 => exact execRoutingSet_core a0 a1 s u h
  | portHold a0 a1 => exact (execPortHold_kept a0 a1 s u h).changes
  | policyRootSet a0 a1 => exact execPolicyRootSet_core a0 a1 s u h
  | recover a0 a1 => exact execRecover_core a0 a1 s u h
  | ashpitFetch a0 a1 => exact (execAshpitFetch_kept a0 a1 s u h).changes
  | reportResponse a0 a1 => exact (execReportResponse_kept a0 a1 s u h).changes
  | reportResend a0 => exact (execReportResend_kept a0 s u h).changes
  | getVersion a0 a1 => exact (execGetVersion_kept a0 a1 s u h).changes
  | getCapabilities a0 a1 => exact (execGetCapabilities_kept a0 a1 s u h).changes
  | negotiateAlgorithms a0 a1 a2 a3 => exact (execNegotiateAlgorithms_kept a0 a1 a2 a3 s u h).changes
  | getDigests a0 a1 => exact (execGetDigests_kept a0 a1 s u h).changes
  | getCertificate a0 a1 a2 a3 a4 => exact (execGetCertificate_kept a0 a1 a2 a3 a4 s u h).changes
  | challenge a0 a1 a2 a3 => exact (execChallenge_kept a0 a1 a2 a3 s u h).changes
  | getMeasurements a0 a1 a2 a3 a4 => exact (execGetMeasurements_kept a0 a1 a2 a3 a4 s u h).changes
  | chunkGet a0 a1 a2 a3 => exact (execChunkGet_kept a0 a1 a2 a3 s u h).changes
  | setEndpointId a0 a1 a2 => exact (execSetEndpointId_kept a0 a1 a2 s u h).changes
  | getEndpointId a0 => exact (execGetEndpointId_kept a0 s u h).changes
  | getMctpVersionSupport a0 a1 => exact (execGetMctpVersionSupport_kept a0 a1 s u h).changes
  | getMessageTypeSupport a0 => exact (execGetMessageTypeSupport_kept a0 s u h).changes
  | getVendorDefinedMessageSupport a0 a1 => exact (execGetVendorDefinedMessageSupport_kept a0 a1 s u h).changes
  | entdaa a0 a1 => exact (execEntdaa_kept a0 a1 s u h).changes
  | setdasa a0 a1 a2 => exact (execSetdasa_kept a0 a1 a2 s u h).changes
  | trstN a0 => exact (execTrstN_kept a0 s u h).changes
  | idcode a0 => exact (execIdcode_kept a0 s u h).changes
  | bypass a0 => exact (execBypass_kept a0 s u h).changes
  | samplePreload a0 => exact (execSamplePreload_kept a0 s u h).changes
  | extest a0 => exact (execExtest_kept a0 s u h).changes
  | shaftHeaderError a0 a1 a2 => exact (execShaftHeaderError_kept a0 a1 a2 s u h).changes
  | driftError a0 a1 a2 => exact (execDriftError_kept a0 a1 a2 s u h).changes
  | driftTrainingStart a0 a1 => exact (execDriftTrainingStart_kept a0 a1 s u h).changes
  | driftRetrain a0 a1 => exact (execDriftRetrain_kept a0 a1 s u h).changes
  | driftRefclkReturn a0 => exact execDriftRefclkReturn_core a0 s u h
  | stackPortFailure a0 a1 => exact execStackPortFailure_core a0 a1 s u h
  | contextResetComplete a0 a1 => exact (execContextResetComplete_kept a0 a1 s u h).changes
  | testLogicReset a0 => exact (execTestLogicReset_kept a0 s u h).changes

end Sys2Proof.Safety
end

