-- ==== Sys2Proof/WellFormed.lean ====
section
/-! DEFINITION. Well-formed commands: every number within the range that names a thing of the block (ports 0 to 15,
domains 0 to 3, the streams of Table 0.4, units of Table 15.4, fields of their widths). -/

namespace Sys2Proof

/-- A unit number that the block has (Table 0.4, Table 15.4). -/
def unitOk : UnitId → Bool
  | .hearth n => decide (n < 64)
  | .flue n => decide (n < 16)
  | .grate n => decide (n < 32)
  | .assay n => decide (n < 4)
  | .fpUnit n => decide (n < 4)
  | .damper n => decide (n < 8)
  | .prospector => true
  | .foreman n => decide (n < 2)
  | .detokeniser => true
  | .arbiter => true

/-- A packet is at least one flit of 64 bytes and a whole number of flits (R281, R282). -/
def pktOk (p : Bytes) : Bool := decide (0 < p.length) && decide (p.length % 64 = 0)

/-- The page an access meets is a stack page of the device or a Seam page of a scope of Table 11.7. -/
def eccOk : Ecc → Bool
  | .clean => true
  | .corrected => true
  | .stack p => decide (p < Config.stackPages)
  | .seam scope p => decide (scope ≤ 112) && decide (p < Config.seamPages scope)

/-- The ranges of a command's operands. -/
def Instr.wf : Instr → Bool
  | .admitPacket _ port pkt => decide (port < 16) && pktOk pkt
  | .chunk _ port pkt => decide (port < 16) && pktOk pkt
  | .tap _ port pkt => decide (port < 16) && pktOk pkt
  | .candidates _ port pkt => decide (port < 16) && pktOk pkt
  | .credit _ port pkt => decide (port < 16) && pktOk pkt
  | .idle _ port pkt => decide (port < 16) && pktOk pkt
  | .read _ port pkt => decide (port < 16) && decide (pkt.length ≤ 4096)
  | .write _ port pkt => decide (port < 16) && decide (pkt.length ≤ 4096)
  | .completion _ port pkt => decide (port < 16) && decide (pkt.length ≤ 4096)
  | .bulkReadTimeout _ dom tag => decide (dom < 4) && decide (tag < 64)
  | .chunkReleaseTime _ _ => true
  | .candidatesReleaseTime _ _ => true
  | .runEnd _ stream => decide (stream < 16384)
  | .intakeTaskComplete _ _ set _ err => decide (set < 64) && eccOk err
  | .lookupReturn _ _ _ err1 err2 => eccOk err1 && eccOk err2
  | .lookaheadTaskComplete _ _ _ _ set err => decide (set < 64) && eccOk err
  | .decideStage _ item => eccOk item.err
  | .commitStep _ _ errs => eccOk errs.ring && eccOk errs.err
  | .gateEvaluation _ _ err => eccOk err
  | .resolverScore _ _ model idx => decide (model < 2 ^ 32) && eccOk idx.err
  | .firing _ errs => errs.all fun e => eccOk e.2
  | .gatePassTick _ ctx => decide (ctx.num < 1024) && eccOk ctx.err
  | .fluePassEnd _ flue ctx model err => decide (flue < 16) && decide (ctx < 1024) && decide (model < 2 ^ 32) && eccOk err
  | .tapSkewDeadline _ _ _ => true
  | .proposalCutoff _ _ completed => eccOk completed.err
  | .requestEvaluationComplete _ stream err => decide (stream < 16384) && eccOk err
  | .checkpointWriteComplete _ stream => decide (stream < 16384)
  | .snapshotWriteComplete _ stream _ => decide (stream < 16384)
  | .snapshotRestoreComplete _ stream err => decide (stream < 16384) && eccOk err
  | .warmIn _ stream => decide (stream < 16384)
  | .coolTime _ stream => decide (stream < 16384)
  | .streamClosed _ stream => decide (stream < 16384)
  | .streamRestoreComplete _ stream => decide (stream < 16384)
  | .transferAbsorbed _ _ => true
  | .zeroingComplete _ page => decide (page < Config.stackPages + 113)
  | .imageLoadComplete _ inst => decide (inst.domain < 4)
  | .fpSweepComplete _ => true
  | .deviceQuery _ inst => decide (inst.domain < 4)
  | .layoutSet _ inst => decide (inst.domain < 4)
  | .contextCreate _ inst => decide (inst.domain < 4)
  | .contextClose _ inst => decide (inst.domain < 4)
  | .contextReset _ inst => decide (inst.domain < 4)
  | .contextSet _ inst => decide (inst.domain < 4)
  | .contextQuery _ inst => decide (inst.domain < 4)
  | .capacitySet _ inst => decide (inst.domain < 4)
  | .streamAdmit _ inst => decide (inst.domain < 4)
  | .streamClose _ inst => decide (inst.domain < 4)
  | .streamHold _ inst => decide (inst.domain < 4)
  | .streamResume _ inst => decide (inst.domain < 4)
  | .streamSet _ inst => decide (inst.domain < 4)
  | .streamQuery _ inst => decide (inst.domain < 4)
  | .prefixDrop _ inst => decide (inst.domain < 4)
  | .imageStage _ inst => decide (inst.domain < 4)
  | .imageInstall _ inst => decide (inst.domain < 4)
  | .imageQuery _ inst => decide (inst.domain < 4)
  | .vocabLoad _ inst => decide (inst.domain < 4)
  | .adapterSlotAlloc _ inst => decide (inst.domain < 4)
  | .adapterSlotFree _ inst => decide (inst.domain < 4)
  | .adapterPublish _ inst => decide (inst.domain < 4)
  | .adapterWithdraw _ inst => decide (inst.domain < 4)
  | .tapNormLoad _ inst => decide (inst.domain < 4)
  | .fpSetDefine _ inst => decide (inst.domain < 4)
  | .fpEpochOpen _ inst => decide (inst.domain < 4)
  | .fpUpdate _ inst => decide (inst.domain < 4)
  | .fpEpochCommit _ inst => decide (inst.domain < 4)
  | .fpEpochAbort _ inst => decide (inst.domain < 4)
  | .fpQuery _ inst => decide (inst.domain < 4)
  | .tallyAlloc _ inst => decide (inst.domain < 4)
  | .tallyFree _ inst => decide (inst.domain < 4)
  | .tallySet _ inst => decide (inst.domain < 4)
  | .tallyRead _ inst => decide (inst.domain < 4)
  | .canarySet _ inst => decide (inst.domain < 4)
  | .faultQuery _ inst => decide (inst.domain < 4)
  | .ashpitRead _ inst => decide (inst.domain < 4)
  | .counterRead _ inst => decide (inst.domain < 4)
  | .telemetryRead _ inst => decide (inst.domain < 4)
  | .driftPeerState _ inst => decide (inst.domain < 4)
  | .snapshotMigrate _ inst => decide (inst.domain < 4)
  | .snapshotMigrateOutcome _ inst _ => decide (inst.domain < 4)
  | .streamTakeover _ inst => decide (inst.domain < 4)
  | .cmdTail _ port _ _ => decide (port < 16)
  | .cplHead _ port _ _ => decide (port < 16)
  | .evtHead _ port _ _ => decide (port < 16)
  | .flush _ port _ queue => decide (port < 16) && decide (queue < 3)
  | .flushDiscard _ inst queue => decide (inst.domain < 4) && decide (queue < 3)
  | .acquire _ port _ owner => decide (port < 16) && decide (owner < 8)
  | .release _ port _ owner => decide (port < 16) && decide (owner < 8)
  | .breakLamp _ port _ owner => decide (port < 16) && decide (owner < 8)
  | .lampExpiry _ => true
  | .ledgerTotalRead _ port _ => decide (port < 16)
  | .lowWordRead _ port _ off => decide (port < 16) && decide (off < 0x40000)
  | .registerWrite _ port _ off _ => decide (port < 16) && decide (off < 0x40000)
  | .signal _ _ _ ctx tally n => decide (ctx < 1024) && decide (tally < 4096) && decide (n < 65536)
  | .consume _ _ _ ctx tally n => decide (ctx < 1024) && decide (tally < 4096) && decide (n < 65536)
  | .canaryEvaluation _ _ _ => true
  | .ashpitCaptureComplete _ _ _ => true
  | .suspectResetComplete _ _ => true
  | .replayPass _ _ => true
  | .replayTimeout _ _ => true
  | .foremanFailure _ => true
  | .foremanRestartComplete _ _ => true
  | .unitInternalError _ unit => unitOk unit
  | .heartbeatMiss _ unit => unitOk unit
  | .remapComplete _ unit => unitOk unit
  | .recoveryComplete _ _ failed _ => failed.all unitOk
  | .ledgerQuiesceTimeout _ => true
  | .scrub _ _ _ => true
  | .dormantEntry _ => true
  | .rowPowerGate _ row => decide (row < 8)
  | .rowWakeComplete _ row => decide (row < 8)
  | .vidStep _ => true
  | .sensorSample _ _ => true
  | .thermalRelease _ => true
  | .blkPorstAssert _ => true
  | .blkPorstRelease _ => true
  | .deviceCountStart _ => true
  | .blkWarmAssert _ => true
  | .blkWarmRelease _ => true
  | .pilotRefclkLoss _ => true
  | .driftRefclkLoss _ => true
  | .bootComplete _ _ _ failed => failed.all unitOk
  | .shaftTrainingStart _ port => decide (port < 16)
  | .shaftTrainingComplete _ port _ => decide (port < 16)
  | .shaftRetrain _ port => decide (port < 16)
  | .shaftRetrainComplete _ port _ => decide (port < 16)
  | .shaftLinkFailure _ port _ _ => decide (port < 16)
  | .idleRetrainRequest _ port => decide (port < 19)
  | .creditInitTimeout _ port => decide (port < 16)
  | .creditReturn _ dom => decide (dom < 4)
  | .shaftStall _ dom => decide (dom < 4)
  | .driftTrainingComplete _ q _ => decide (q < 3)
  | .hello _ q dev _ _ => decide (q < 3) && decide (dev < 4)
  | .driftCredit _ q ack _ => decide (q < 3) && decide (ack < 2 ^ 32)
  | .nak _ q seq => decide (q < 3) && decide (seq < 2 ^ 32)
  | .ackTimeout _ q => decide (q < 3)
  | .idleGapCredit _ q => decide (q < 3)
  | .driftDark _ q => decide (q < 3)
  | .fpRecord _ q _ _ _ => decide (q < 3)
  | .fpCommit _ q _ _ _ => decide (q < 3)
  | .fpAbort _ q _ _ => decide (q < 3)
  | .snapData _ q _ _ _ _ => decide (q < 3)
  | .snapSeal _ q _ _ _ destDom destCtx _ => decide (q < 3) && decide (destDom < 4) && decide (destCtx < 1024)
  | .ckptData _ q _ _ stream _ _ => decide (q < 3) && decide (stream < 16384)
  | .ckptSeal _ q _ _ _ _ => decide (q < 3)
  | .ckptDrop _ q _ stream => decide (q < 3) && decide (stream < 16384)
  | .bundleWrite _ _ => true
  | .bundleCommit _ _ => true
  | .bundleStatus _ _ => true
  | .domainMapSet _ _ => true
  | .routingSet _ _ => true
  | .portHold _ _ => true
  | .policyRootSet _ _ => true
  | .recover _ _ => true
  | .ashpitFetch _ _ => true
  | .reportResponse _ mseq => decide (mseq < 65536)
  | .reportResend _ => true
  | .getVersion _ _ => true
  | .getCapabilities _ _ => true
  | .negotiateAlgorithms _ _ _ _ => true
  | .getDigests _ _ => true
  | .getCertificate _ _ _ _ _ => true
  | .challenge _ _ _ nonce => decide (nonce.length = 32)
  | .getMeasurements _ _ _ _ nonce => decide (nonce.length = 32)
  | .chunkGet _ _ _ _ => true
  | .setEndpointId _ _ eid => decide (eid < 256)
  | .getEndpointId _ => true
  | .getMctpVersionSupport _ _ => true
  | .getMessageTypeSupport _ => true
  | .getVendorDefinedMessageSupport _ _ => true
  | .entdaa _ addr => decide (addr < 128)
  | .setdasa _ static_ addr => decide (static_ < 128) && decide (addr < 128)
  | .trstN _ => true
  | .idcode _ => true
  | .bypass _ => true
  | .samplePreload _ => true
  | .extest _ => true
  | .shaftHeaderError _ port pkt => decide (port < 16) && pktOk pkt
  | .driftError _ q seq => decide (q < 3) && decide (seq < 2 ^ 32)
  | .driftTrainingStart _ q => decide (q < 3)
  | .driftRetrain _ q => decide (q < 3)
  | .driftRefclkReturn _ => true
  | .stackPortFailure _ stack => decide (stack < 2)
  | .contextResetComplete _ ctx => decide (ctx < 1024)
  | .testLogicReset _ => true

end Sys2Proof
end

