-- ==== Sys2Proof/Tests/Slice0.lean ====
section
/-! SUPPORT. The author's own tests: ill-formed commands refused, single steps with results worked out from the manual's
tables, and for each statement with hypotheses a state and operands that meet them. -/

namespace Sys2Proof.Tests

open Sys2Proof.Machine Sys2Proof.Safety

/-! The checks of this file run one after the other: side by side they would take more memory than a build has. -/
set_option Elab.async false

/-! ### States and bytes -/

def iA : Inst := ⟨.A, 0⟩

/-- A byte string of a length with fields (offset, bytes, value). -/
def mk (len : Nat) (fs : List (Nat × Nat × Nat)) : Bytes :=
  fs.foldl (fun b f => splice b f.1 (leBytes f.2.1 f.2.2)) (List.replicate len 0)

/-- The common header of a packet. -/
def hdr (ty vc flits : Nat) : List (Nat × Nat × Nat) := [(0, 1, ty), (1, 1, 4 * vc), (2, 2, flits)]

/-- A vendor-defined management request (R385). -/
def msg (code mseq : Nat) (payload : Bytes) : Bytes :=
  [0x7F, 0x00, 0x00, 0xE3, 0xC9] ++ leBytes 1 code ++ [0, 0] ++ leBytes 2 mseq ++ [0, 0] ++ payload

/-- A block in NORMAL with one ACTIVE Shaft port and credits. -/
def base : State :=
  { State.reset with
    mode := .normal, running := true, count := 1000
    boot := { State.reset.boot with phase := .done }
    shaft := State.reset.shaft.set 0 { ShaftPort.init with link := .active, trained := some 0 }
    credits := State.reset.credits.map fun _ => { DomCredits.init with
      initSent := true, granted := vcFlits, initRx := true, memAdv := 1000, memBal := 1000, relAdv := 1000, relBal := 1000 }
    rows := List.replicate 8 ⟨.active, false, 0⟩ }

def cmd (op : Nat) (fs : List (Nat × Nat × Nat)) (payload : Bytes := []) : ExecCmd :=
  { inst := iA, slot := mk 64 ([(0, 2, op)] ++ fs), shaft := 0, seq := 0, stamp := 900, pre := 0, need := payload.length,
    got := if payload = [] then [] else [(0, payload)] }

/-- The state with a command executing. -/
def exe (c : ExecCmd) (s : State) : State := { s with foreman := { s.foreman with exec := some c } }

theorem exe_executing {c : ExecCmd} {s : State} {op : Nat} (h : (s.porst = false ∧ s.pilotFault = false) ∧ s.foreman.restarting = false ∧
    s.mode ≠ .recovering ∧ c.pre = 0 ∧ c.need ≤ c.delivered ∧ Slot.opcode c.slot = op) : Executing (exe c s) op c.inst c :=
  ⟨h.1, rfl, rfl, h.2.2.2.2.2, h.2.1, h.2.2.1, h.2.2.2.1, h.2.2.2.2.1⟩

/-! ### Ill-formed commands -/

theorem test_wf_ports : Instr.wf (.admitPacket 0 16 (mk 64 [])) = false ∧ Instr.wf (.chunk 0 16 (mk 64 [])) = false ∧
    Instr.wf (.tap 0 16 (mk 64 [])) = false ∧ Instr.wf (.candidates 0 16 (mk 64 [])) = false ∧ Instr.wf (.credit 0 16 (mk 64 [])) = false ∧
    Instr.wf (.idle 0 16 (mk 64 [])) = false ∧ Instr.wf (.read 0 16 []) = false ∧ Instr.wf (.write 0 16 []) = false ∧
    Instr.wf (.completion 0 16 []) = false ∧ Instr.wf (.cmdTail 0 16 .A 0) = false ∧ Instr.wf (.cplHead 0 16 .A 0) = false ∧
    Instr.wf (.evtHead 0 16 .A 0) = false ∧ Instr.wf (.ledgerTotalRead 0 16 .A) = false ∧ Instr.wf (.shaftTrainingStart 0 16) = false ∧
    Instr.wf (.shaftRetrain 0 16) = false ∧ Instr.wf (.idleRetrainRequest 0 19) = false ∧ Instr.wf (.creditInitTimeout 0 16) = false ∧
    Instr.wf (.driftTrainingStart 0 3) = false ∧ Instr.wf (.driftRetrain 0 3) = false ∧ Instr.wf (.ackTimeout 0 3) = false ∧
    Instr.wf (.idleGapCredit 0 3) = false ∧ Instr.wf (.driftDark 0 3) = false := by decide

theorem test_wf_packets : Instr.wf (.admitPacket 0 0 []) = false ∧ Instr.wf (.chunk 0 0 (mk 63 [])) = false ∧ Instr.wf (.tap 0 0 (mk 65 [])) = false ∧
    Instr.wf (.candidates 0 0 []) = false ∧ Instr.wf (.shaftHeaderError 0 0 []) = false ∧ Instr.wf (.admitPacket 0 15 (mk 64 [])) = true := by decide

theorem test_wf_domains : Instr.wf (.creditReturn 0 4) = false ∧ Instr.wf (.shaftStall 0 4) = false ∧ Instr.wf (.bulkReadTimeout 0 4 0) = false ∧
    Instr.wf (.bulkReadTimeout 0 0 64) = false ∧ Instr.wf (.deviceQuery 0 ⟨.A, 4⟩) = false ∧ Instr.wf (.streamAdmit 0 ⟨.B, 4⟩) = false ∧
    Instr.wf (.imageInstall 0 ⟨.A, 4⟩) = false ∧ Instr.wf (.fpUpdate 0 ⟨.A, 4⟩) = false ∧ Instr.wf (.tallySet 0 ⟨.A, 4⟩) = false ∧
    Instr.wf (.flushDiscard 0 ⟨.A, 4⟩ 0) = false ∧ Instr.wf (.snapshotMigrateOutcome 0 ⟨.A, 4⟩ 0) = false := by decide

theorem test_wf_streams : Instr.wf (.runEnd 0 16384) = false ∧ Instr.wf (.warmIn 0 16384) = false ∧ Instr.wf (.coolTime 0 16384) = false ∧
    Instr.wf (.streamClosed 0 16384) = false ∧ Instr.wf (.requestEvaluationComplete 0 16384 .clean) = false ∧
    Instr.wf (.checkpointWriteComplete 0 16384) = false ∧ Instr.wf (.snapshotWriteComplete 0 16384 false) = false ∧
    Instr.wf (.snapshotRestoreComplete 0 16384 .clean) = false ∧ Instr.wf (.streamRestoreComplete 0 16384) = false ∧
    Instr.wf (.intakeTaskComplete 0 0 64 [] .clean) = false ∧ Instr.wf (.lookaheadTaskComplete 0 0 0 0 64 .clean) = false ∧
    Instr.wf (.resolverScore 0 0 (2 ^ 32) ⟨0, .clean⟩) = false ∧ Instr.wf (.gatePassTick 0 ⟨1024, .clean⟩) = false ∧
    Instr.wf (.fluePassEnd 0 16 0 0 .clean) = false ∧ Instr.wf (.fluePassEnd 0 0 1024 0 .clean) = false ∧
    Instr.wf (.fluePassEnd 0 0 0 (2 ^ 32) .clean) = false ∧ Instr.wf (.zeroingComplete 0 (Config.stackPages + 113)) = false ∧
    Instr.wf (.contextResetComplete 0 1024) = false := by decide +kernel

/-- Stacks hold pages 0 to 2,441,405, scopes are 0 to 112, and shared Seam has 91.55 MiB. -/
theorem test_wf_errors : Instr.wf (.decideStage 0 ⟨0, .stack 2441406⟩) = false ∧ Instr.wf (.decideStage 0 ⟨0, .stack 2441405⟩) = true ∧
    Instr.wf (.gateEvaluation 0 0 (.seam 113 0)) = false ∧ Instr.wf (.commitStep 0 0 ⟨.seam 112 (Config.seamPages 112), .clean⟩) = false ∧
    Instr.wf (.proposalCutoff 0 0 ⟨0, .stack 2441406⟩) = false ∧ Instr.wf (.lookupReturn 0 0 0 .clean (.stack 2441406)) = false ∧
    Instr.wf (.firing 0 [(0, .clean), (1, .stack 2441406)]) = false := by decide +kernel

theorem test_wf_windows : Instr.wf (.flush 0 0 .A 3) = false ∧ Instr.wf (.flushDiscard 0 iA 3) = false ∧ Instr.wf (.acquire 0 0 .A 8) = false ∧
    Instr.wf (.release 0 0 .A 8) = false ∧ Instr.wf (.breakLamp 0 0 .A 8) = false ∧ Instr.wf (.lowWordRead 0 0 .A 0x40000) = false ∧
    Instr.wf (.registerWrite 0 0 .A 0x40000 0) = false ∧ Instr.wf (.signal 0 true 0 1024 0 1) = false ∧ Instr.wf (.signal 0 true 0 0 4096 1) = false ∧
    Instr.wf (.consume 0 true 0 0 0 65536) = false := by decide

theorem test_wf_units : Instr.wf (.unitInternalError 0 (.hearth 64)) = false ∧ Instr.wf (.heartbeatMiss 0 (.flue 16)) = false ∧
    Instr.wf (.remapComplete 0 (.grate 32)) = false ∧ Instr.wf (.unitInternalError 0 (.assay 4)) = false ∧
    Instr.wf (.unitInternalError 0 (.fpUnit 4)) = false ∧ Instr.wf (.unitInternalError 0 (.damper 8)) = false ∧
    Instr.wf (.unitInternalError 0 (.foreman 2)) = false ∧ Instr.wf (.recoveryComplete 0 true [.hearth 64] []) = false ∧
    Instr.wf (.bootComplete 0 true true [.flue 16]) = false ∧ Instr.wf (.rowPowerGate 0 8) = false ∧ Instr.wf (.rowWakeComplete 0 8) = false ∧
    Instr.wf (.stackPortFailure 0 2) = false := by decide

theorem test_wf_links : Instr.wf (.hello 0 0 4 0 0) = false ∧ Instr.wf (.driftCredit 0 0 (2 ^ 32) ⟨[], []⟩) = false ∧ Instr.wf (.nak 0 0 (2 ^ 32)) = false ∧
    Instr.wf (.driftError 0 0 (2 ^ 32)) = false ∧ Instr.wf (.ckptData 0 0 ⟨0, 0, 0, 0, 0, 0, 0⟩ 0 16384 0 0) = false ∧
    Instr.wf (.ckptDrop 0 0 ⟨0, 0, 0, 0, 0, 0, 0⟩ 16384) = false ∧ Instr.wf (.fpRecord 0 3 ⟨0, 0, 0, 0, 0, 0, 0⟩ 0 []) = false := by decide

theorem test_wf_management : Instr.wf (.reportResponse 0 65536) = false ∧ Instr.wf (.challenge 0 0x11 0 []) = false ∧
    Instr.wf (.getMeasurements 0 0x11 0 true []) = false ∧ Instr.wf (.setEndpointId 0 0 256) = false ∧ Instr.wf (.entdaa 0 128) = false ∧
    Instr.wf (.setdasa 0 128 0) = false ∧ Instr.wf (.setdasa 0 0 128) = false := by decide

/-- No row of the table gives bits, so no word spells a command. -/
theorem test_no_words : decodeTableWord 0 0 = none ∧ decodeTableWord 64 1 = none ∧ (base.withFetchWord 64 1).pending = [] := by decide

/-! ### The block as a whole: states that meet the statements' hypotheses -/

theorem wit_step : ({ base with pending := [.firing 0 [], .dormantEntry 1] } : State).pending = .firing 0 [] :: [.dormantEntry 1] ∧
    base.pending = [] := by decide

theorem wit_invariant : Safety.Inv { base with pending := [.pilotRefclkLoss 0] } ∧
    ∃ u, step { base with pending := [.pilotRefclkLoss 0] } = .next u := ⟨by unfold Safety.Inv LampOk; decide, _, rfl⟩

theorem wit_count : (∀ t, Instr.lampExpiry 5 ≠ .blkPorstAssert t) ∧ (∀ t, Instr.lampExpiry 5 ≠ .deviceCountStart t) ∧
    (∃ u, exec (.lampExpiry 5) base = .next u) ∧ (∃ u, exec (.blkPorstAssert 5) base = .next u) ∧
    (∃ u, exec (.deviceCountStart 5) base = .next u) ∧ State.reset.running = false :=
  ⟨fun _ h => (by cases h), fun _ h => (by cases h), ⟨_, rfl⟩, ⟨_, rfl⟩, ⟨_, rfl⟩, rfl⟩

theorem wit_stopped : ({ base with porst := true } : State).porst = true ∧ ({ base with pilotFault := true } : State).pilotFault = true ∧
    isTap (.firing 0 []) = false ∧ (∀ t, Instr.firing 0 [] ≠ .blkPorstAssert t) ∧ ∀ t, Instr.firing 0 [] ≠ .blkPorstRelease t :=
  ⟨rfl, rfl, rfl, fun _ h => (by cases h), fun _ h => (by cases h)⟩

theorem wit_outside_normal : dataTime (.firing 5 []) = some 5 ∧ Up State.reset ∧ State.reset.mode ≠ .normal := by
  unfold Up; decide

theorem wit_owner_lamp : ∃ u, exec (.acquire 1001 0 .A 0) base = .next u ∧ u.lamp ≠ base.lamp := ⟨_, rfl, by decide⟩

theorem wit_owner_boot : ∃ u, exec (.blkPorstRelease 0) { base with porst := true } = .next u ∧ u.boot ≠ base.boot := ⟨_, rfl, by decide⟩

theorem wit_owner_roots : ∃ u, exec (.policyRootSet 1001 (msg 0x13 1 (mk 104 [(0, 1, 1)])))
    { base with roots := [⟨1, [1]⟩, ⟨0, []⟩, ⟨0, []⟩, ⟨0, []⟩] } = .next u ∧ u.roots ≠ [⟨1, [1]⟩, ⟨0, []⟩, ⟨0, []⟩, ⟨0, []⟩] :=
  ⟨_, rfl, by decide +kernel⟩

theorem wit_owner_threshold : ∃ u, exec (.canarySet 1001 iA) (exe (cmd 0x0600 [(0x18, 4, 100)]) base) = .next u ∧ u.threshold = 100 :=
  ⟨_, rfl, by decide +kernel⟩

/-! ### Resets, power, pins and the test port -/

theorem wit_pilot : ({ base with porst := true } : State).porst = true ∧ Up State.reset ∧ State.reset.running = false ∧
    State.reset.boot.phase = .waitCount ∧ Up base := by unfold Up; decide

theorem wit_device_fault : Up base ∧ base.boot.phase = .done ∧ base.mode = .normal ∧ base.recovery = none ∧
    Requested base 0x20 (msg 0x20 7 []) ∧ Msg.payload (msg 0x20 7 []) = [] := by unfold Requested Managed Up; decide

/-- A row that has been idle for exactly 200 µs. -/
theorem wit_row_gate : Ready base ∧ base.rows[7]? = some ⟨.active, false, 0⟩ ∧ base.gateRows.contains 7 = false ∧
    base.warmSum < base.warmPowered.length ∧ 0 + 20000 ≤ (base.advance 20000).count := by unfold Ready Up; decide

def waking : State := { base with rows := base.rows.set 0 ⟨.off, true, 0⟩ }

theorem wit_row_wake : Ready waking ∧ waking.rows[0]? = some ⟨.off, true, 0⟩ := by unfold Ready Up; decide

/-- 10.00 ms without activity. -/
theorem wit_dormant : Ready base ∧ base.power = .run ∧ base.idleDevice = true ∧ base.lastActivity + 1000000 ≤ (base.advance 1000000).count := by
  unfold Ready Up; decide +kernel

def fused : State := { base with
  fuses := { base.fuses with b0 := true, trim := 1 }
  pins := { base.pins with vidAt := some 1000 } }

/-- One code below the target, 100 µs after the last step. -/
theorem wit_vid : Up fused ∧ fused.recovery = none ∧ fused.boot.phase = .done ∧ fused.mode = .normal ∧ fused.pins.vidAt = some 1000 ∧
    1000 + 10000 ≤ (fused.advance 11000).count ∧ fused.pins.vid < fused.vidTarget := by unfold Up; decide

/-- Readings of 114.9375 °C stay below the trip; a site without a working sensor reads 115 °C. -/
theorem wit_sensor : (∀ k, k < 128 → siteReading ((List.replicate 128 (some (1839 : Int), none)).getD k (none, none)) < 1840) ∧
    (List.replicate 128 (some (1839 : Int), (none : Option Int))).length = 128 ∧
    1840 ≤ siteReading ((List.replicate 128 ((none : Option Int), (none : Option Int))).getD 127 (none, none)) ∧
    base.pins.thermTripN = false := by decide +kernel

def tripped : State := { base with pins := { base.pins with thermTripN := true, below100 := some 0 } }

theorem wit_thermal_release : Up tripped ∧ tripped.pins.thermTripN = true ∧ tripped.pins.below100 = some 0 ∧
    0 + 10000000 ≤ (tripped.advance 10000000).count := by unfold Up; decide

/-- The identification register of stepping B0 (R411). -/
theorem test_idcode : ∃ u, exec (.idcode 5) fused = .next u ∧ u.out = [.tdo "IDCODE" (some 0x26D4034B#32)] := ⟨_, rfl, by decide +kernel⟩

/-! ### Windows -/

theorem window_base : Window base 0 .A 0 ∧ Window base 0 .B 0 := by unfold Window Up; decide

/-- Leases of 1 ms and 10,000 ms pass, 0 and 10,001 do not. -/
theorem wit_lamp_lease : (base.inst iA).lease = 100 ∧ ((base.modInst iA fun x => { x with lease := 0 }).inst iA).lease = 0 ∧
    ((base.modInst iA fun x => { x with lease := 10001 }).inst iA).lease = 10001 ∧ Window (base.modInst iA fun x => { x with lease := 1 }) 0 .A 0 := by
  unfold Window Up; decide

/-- The Lamp held by port A, domain 0, owner 7, its lease out at count 1,000. -/
def lit : State := { base with lamp := ⟨true, .A, 0, 7, 0, 1000, 3, .A, false⟩ }

theorem wit_lamp_owner : lit.lamp.held = true ∧ lit.lamp.port = .A ∧ lit.lamp.domain = 0 ∧ lit.lamp.owner = 15 % 8 ∧ lit.lamp.owner ≠ 6 % 8 := by decide
theorem wit_lamp_expired : lit.lamp.held = true ∧ lit.lamp.expiry ≤ (windowed lit 1000).count ∧ lit.lamp.port ≠ .B ∧ Window lit 0 .B 0 := by
  unfold Window Up; decide
theorem wit_lamp_running : ¬ ({ lit with lamp := { lit.lamp with expiry := 1001 } } : State).lamp.expiry ≤ (windowed lit 1000).count := by decide
theorem wit_lamp_expiry : Up lit ∧ lit.lamp.expiry ≤ (lit.advance 1000).count ∧ lit.lamp.expiryPosted = false ∧ lit.insts.length = 8 := by
  unfold Up; decide

/-- A break by the other port passes the Lamp on and counts the break (Table 13.4). -/
theorem test_break : ∃ u, exec (.breakLamp 1000 0 .B 2) lit = .next u ∧ u.lamp = ⟨true, .B, 0, 2, 1000, 1000 + 100 * 100000, 4, .B, false⟩ :=
  ⟨_, rfl, by decide +kernel⟩

/-- A free Lamp cannot be released: E_STATE in LAMP_RESULT. -/
theorem test_release_free : ∃ u, exec (.release 1000 0 .A 2) base = .next u ∧ (u.inst iA).lampStatus = 0x0C ∧ (u.inst iA).lampOp = 1 := by
  refine ⟨_, rfl, ?_⟩; decide +kernel

/-- The command ring empty: a doorbell of 16 slots moves, one of 17 is an error; heads of empty rings move by 0 only. -/
theorem wit_pointers : (let q := (base.inst iA).cmdQ; 1 ≤ ((16#32).toNat % 32 + 32 - q.wr) % 32 ∧ ((16#32).toNat % 32 + 32 - q.wr) % 32 ≤ 16 - q.level ∧
      16 - q.level < ((17#32).toNat % 32 + 32 - q.wr) % 32) ∧
    (let q := (base.inst iA).cplQ; ((0#32).toNat % 32 + 32 - q.rd) % 32 ≤ q.level ∧ q.level < ((1#32).toNat % 32 + 32 - q.rd) % 32) ∧
    (let q := (base.inst iA).evtQ; ((0#32).toNat % 512 + 512 - q.rd) % 512 ≤ q.level ∧ q.level < ((1#32).toNat % 512 + 512 - q.rd) % 512) := by decide

theorem test_doorbell_error : ∃ u, exec (.cmdTail 1001 0 .A 17) base = .next u ∧ (u.inst iA).doorbellErr = true ∧ (u.inst iA).cmdQ.wr = 0 := by
  refine ⟨_, rfl, ?_⟩; decide +kernel

def flushing : State := base.modInst iA (·.modQueue 2 fun q => { q with flush := true, wr := 511 })

theorem wit_flush : Up flushing ∧ ((flushing.inst iA).queue 2).flush = true ∧ ((flushing.inst iA).queue 2).wr < ((flushing.inst iA).queue 2).span := by
  unfold Up; decide

/-! ### Tallies -/

theorem wit_tally : Ready base ∧ base.waiting true 1 = false ∧ base.waiting false 129 = false ∧ base.tallyOf 0 63 = some ⟨true, 0, 0, 0, false, 0, []⟩ := by
  unfold Ready Up; decide +kernel

def full : State := base.setTally 5 ⟨true, 0, 0, 2 ^ 32 - 1, false, 0, []⟩

/-- COUNT one below saturation and at it, a wait list with and without waiters, and COUNT equal to n. -/
theorem wit_tally_count : full.tallyOf 0 5 = some ⟨true, 0, 0, 2 ^ 32 - 1, false, 0, []⟩ ∧ 2 ^ 32 ≤ 2 ^ 32 - 1 + 1 ∧
    2 ^ 32 - 2 + 1 < 2 ^ 32 ∧ 65535 ≤ 2 ^ 32 - 1 ∧ (0 : Nat) < 1 := by decide +kernel

theorem test_signal_saturates : ∃ u, exec (.signal 1001 true 0 0 5 1) full = .next u ∧
    tget u.tallies 5 = some ⟨true, 0, 0, 2 ^ 32 - 1, true, 0, []⟩ := ⟨_, rfl, by decide +kernel⟩

theorem wit_signal : (3 : Nat) + 65535 < 2 ^ 32 := by decide

/-- Two waiters of 2 and 3: a signal of 4 serves the first and leaves 2. -/
theorem test_signal_order : (Tally.signal 4 ⟨true, 0, 0, 0, false, 0, [⟨true, 0, 0, 2⟩, ⟨true, 1, 0, 3⟩]⟩) =
    ⟨true, 0, 0, 2, false, 2, [⟨true, 1, 0, 3⟩]⟩ := by decide

/-! ### The Shaft -/

def readP (op addr len : Nat) (data : Bytes) : Bytes :=
  mk 64 [(0, 1, op), (1, 1, 16), (2, 2, if op = 1 then 1 + (len + 63) / 64 else 1), (4, 2, 9), (6, 2, len), (8, 8, addr)] ++ data

theorem wit_memory : Up base ∧ base.portActive 0 = true ∧ base.portDomain 0 = 0 ∧
    base.creditShort 0 4 (1 + ((readP 0 hostBase 4 []).length - 64 + 63) / 64) = false ∧ Tx.formOk 0 4 0 (readP 0 (hostBase + 4092) 4 []) = true ∧
    base.decodeAddr 0 (readP 0 (hostBase + 4092) 4 []) = .region 4092 ∧ base.hostPoisoned 4092 4 = false := by unfold Up; decide +kernel

theorem wit_memory_write : Tx.formOk 0 4 4 (readP 1 hostBase 256 (mk 256 [])) = true ∧
    base.decodeAddr 0 (readP 1 hostBase 256 (mk 256 [])) = .region 0 ∧ Memory.wf base.mem = true ∧
    base.creditShort 0 4 (1 + ((readP 1 hostBase 256 (mk 256 [])).length - 64 + 63) / 64) = false := by decide +kernel

theorem wit_memory_none : base.decodeAddr 0 (readP 0 (hostBase - 4) 4 []) = .none ∧ Tx.formOk 0 4 0 (readP 0 (hostBase - 4) 4 []) = true ∧
    base.decodeAddr 0 (readP 1 (hostBase - 4) 4 (mk 64 [])) = .none ∧ Tx.formOk 0 4 1 (readP 1 (hostBase - 4) 4 (mk 64 [])) = true := by decide +kernel

/-- A word written is the word read back. -/
theorem test_write_stores : ∃ u, exec (.write 1001 0 (readP 1 hostBase 4 (mk 64 [(0, 4, 0x04030201)]))) base = .next u ∧
    memRead u.mem 0 4 = [1, 2, 3, 4] := ⟨_, rfl, by decide +kernel⟩

theorem wit_idle : base.linkUp 0 = true ∧ Hdr.type (mk 64 (hdr 0 7 1)) = 0 ∧ Hdr.vc (mk 64 (hdr 0 7 1)) = 7 ∧ headerBad 0 (mk 64 (hdr 0 7 1)) = false := by
  decide
theorem wit_header_error : headerBad (base.portDomain 0) (mk 64 (hdr 2 1 146)) = true ∧ base.creditShort 0 1 1 = false := by decide

def owing : State := { base with credits := base.credits.set 0 { (base.credits.getD 0 DomCredits.init) with freed := [0, 0, 0, 0, 16], freedAt := [none, none, none, none, some 0] } }

theorem wit_credit_return : Up owing ∧ owing.lowestActive 0 = some 0 ∧ (owing.credits.getD 0 DomCredits.init).due (owing.advance 1000).count = true := by
  unfold Up; decide +kernel

def starved : State := { base with credits := base.credits.set 0 { (base.credits.getD 0 DomCredits.init) with memBal := 990, relBal := 0, relLast := 0 } }
def creditP : Bytes := mk 64 (hdr 8 7 1 ++ [(0x14, 2, 0)])

theorem wit_credit : Up starved ∧ starved.linkUp 0 = true ∧ starved.portDomain 0 = 0 ∧ Hdr.type creditP = 8 ∧ Hdr.vc creditP = 7 ∧
    headerBad 0 creditP = false ∧ bit (field creditP 0x10 1) 0 = false ∧ starved.queuedTx = [] ∧ 990 + creditEntry creditP 4 ≤ 1000 ∧
    0 + creditEntry creditP 6 ≤ 1000 ∧ starved.credits.length = 4 := by unfold Up; decide +kernel

theorem wit_stall : Ready starved ∧ (∃ c, starved.credits[0]? = some c ∧ c.initRx = true ∧ c.stalled = false ∧ c.relBal = 0 ∧
    c.relLast + 100000 ≤ (starved.advance 100000).count) ∧ starved.queuedTx = [] ∧ starved.lowestActive 0 = some 0 :=
  ⟨⟨⟨rfl, rfl⟩, rfl⟩, ⟨_, rfl, by decide +kernel⟩, rfl, by decide +kernel⟩

def fetching : ExecCmd := { cmd 0x0301 [] with need := 64 }
def reading : State := { exe fetching base with bulk := [⟨0, 3, iA, 0, 0, 64, 0, 1000, 0, none⟩] }
def complP (addr len : Nat) : Bytes := mk 64 [(0, 1, 2), (1, 1, 16), (2, 2, 2), (4, 2, 3), (6, 2, len), (8, 8, addr)] ++ mk 64 []

theorem wit_bulk : Up reading ∧ reading.portActive 0 = true ∧ Tx.op (complP 0 64) = 2 ∧ Tx.domain (complP 0 64) = reading.portDomain 0 ∧
    (reading.bulk.find? fun b => b.dom == reading.portDomain 0 && b.tag == Tx.tag (complP 0 64)) = some ⟨0, 3, iA, 0, 0, 64, 0, 1000, 0, none⟩ ∧
    reading.foreman.exec = some fetching ∧ fetching.inst = iA ∧ fetching.seq = 0 ∧ Tx.address (complP 0 64) % 4 = 0 ∧
    Tx.length (complP 0 64) = 64 ∧ Tx.address (complP 1 64) % 4 ≠ 0 := by unfold Up; decide

/-- 1.00 ms after the read was issued. -/
theorem wit_bulk_timeout : (reading.bulk.find? fun b => b.dom == 0 && b.tag == 3 && decide (b.issued + 100000 ≤ (reading.advance 101000).count)) =
    some ⟨0, 3, iA, 0, 0, 64, 0, 1000, 0, none⟩ := by decide

def port (p : ShaftPort) : State := { base with shaft := base.shaft.set 15 p }

theorem wit_shaft_training : base.shaft[15]? = some ShaftPort.init ∧ ShaftPort.init.link = .down ∧ base.domains.ports[15]? = some (0, true) ∧ 15 < 16 := by decide

def training : State := port { ShaftPort.init with link := .training }

theorem wit_shaft_trained : training.shaft[15]? = some { ShaftPort.init with link := .training } ∧
    (training.credits.getD 0 DomCredits.init).initRx = true ∧ training.queuedTx = [] ∧ (⟨true, false, false, true⟩ : LinkOutcome).up = true := by decide

def active15 : State := port { ShaftPort.init with link := .active, retrains := 255 }

theorem wit_shaft_active : Up active15 ∧ active15.shaft[15]? = some { ShaftPort.init with link := .active, retrains := 255 } ∧
    0 + 1000 ≤ (active15.advance 1000).count ∧ (port { ShaftPort.init with link := .retrain }).shaft[15]? = some { ShaftPort.init with link := .retrain } := by
  unfold Up; decide

/-- 10.00 µs after the training without the host's INIT. -/
theorem wit_shaft_init : (port { ShaftPort.init with link := .training, trained := some 0 }).shaft[15]? =
    some { ShaftPort.init with link := .training, trained := some 0 } ∧ 0 + 1000 ≤ (base.advance 1000).count := by decide

/-! ### The Drift links -/

def dport (d : DriftPort) : State := { base with drift := base.drift.set 2 d }
def dtrain : DriftPort := { DriftPort.init with link := .training, route := ⟨0, [(0, false), (0, false), (3, true)], 7⟩ }
def dact : DriftPort := { DriftPort.init with link := .active, peer := 3 }

theorem wit_drift_down : Up base ∧ base.drift[2]? = some DriftPort.init ∧ base.pins.driftRef = true ∧ DriftPort.init.link = .down ∧ base.drift.length = 3 := by
  unfold Up; decide
theorem wit_drift_training : (dport dtrain).drift[2]? = some dtrain ∧ dtrain.trained = false ∧ dtrain.helloOk = false ∧
    (dport { dtrain with trained := true }).drift[2]? = some { dtrain with trained := true } ∧ dtrain.waiting = [] ∧ dtrain.route.board = 7 ∧
    dtrain.route.peers[2]? = some (3, true) ∧ dtrain.route.board ≠ 8 := by decide
theorem wit_drift_active : Ready (dport dact) ∧ (2 : Nat) < 3 ∧ (dport dact).drift[2]? = some dact ∧ dact.waiting = [] ∧ dact.unacked = [] ∧
    dact.credits = [64, 64, 64] := by unfold Ready Up; decide

def dwait : DriftPort := { dact with unacked := [⟨11, 3, 1, 0, 1, 0, [0], [], 0, none⟩] }

/-- 10.00 µs without progress of the acknowledgements. -/
theorem wit_drift_timeout : (dport dwait).drift[2]? = some dwait ∧ dwait.unacked ≠ [] ∧ dwait.ackProgress + 1000 ≤ ((dport dwait).advance 1000).count := by
  decide

theorem test_nak_replays : ∃ u, exec (.nak 1001 2 0) (dport dwait) = .next u ∧ u.out = dwait.unacked.map fun m => .drift 2 m := ⟨_, rfl, by decide +kernel⟩

/-! ### Drift messages -/

def dh : DriftHdr := ⟨3, 0, 0, 0, 0, 0, 0⟩

theorem wit_drift_message : dh.seq = dact.rxSeq ∧ dact.lastEpoch ≤ dh.epoch ∧ dact.rxXfers = [] := by decide

def rep0 : Replica := ⟨3, 9, 1, 0, 0, 0, ⟨0, Screen.empty⟩, [], [], [], 0, [], []⟩
def dck : DriftPort := { dact with rxXfers := [⟨3, 5, 0, 9, 4096⟩] }

theorem wit_ckpt_seal : dck.rxXfers = [⟨3, 5, 0, 9, 4096⟩] ∧ (dport dck).replicas = [] ∧ (dport dck).outOfUse = [] ∧
    (dport dck).spareUsed.length + 2 + 4096 ≤ (dport dck).spareSpan.2 ∧ 2 ≤ (dport dck).spareFree := by decide +kernel

/-- A checkpoint whose bytes have all come becomes the replica of the sending device. -/
theorem test_ckpt_seal : ∃ u, exec (.ckptSeal 1001 2 dh 5 4096 rep0) (dport dck) = .next u ∧ u.replicas.length = 1 := ⟨_, rfl, by decide +kernel⟩

def snap0 : Snapshot := ⟨4, 0, 77, 0, 8, [], [], [], [], Screen.empty, Screen.empty, [], [], 1048576, 0, 0, []⟩
def dsn : DriftPort := { dact with rxXfers := [⟨2, 6, 0, 0, 1048576⟩] }
def ctx1 : Ctx := { Ctx.free with state := .opened, domain := 0, settings := Config.defaultSettings, resv := ⟨0, 0, 1, 1000, 1000, 1000⟩ }
def sealing : State := { dport dsn with ctxs := [(1, ctx1)] }

theorem wit_snap_seal : Ready sealing ∧ sealing.drift[2]? = some dsn ∧ dsn.rxXfers = [⟨2, 6, 0, 0, 1048576⟩] ∧ (sealing.ctx 1).state = .opened ∧
    (sealing.ctx 1).domain = 0 ∧ sealing.translatePins 1 [] = some ([0, 0, 0, 0, 0, 0], []) ∧ snap0.bytes ≤ 1048576 ∧
    sealing.snapPages + pagesOf snap0.bytes ≤ sealing.snapRoom ∧ sealing.snapEntries < 131072 ∧
    (sealing.snapshots.find? fun m => snapKey m == (1, (sealing.ctx 1).gen, snap0.handle)) = none ∧ 1048576 ≠ ({ snap0 with bytes := 64 } : Snapshot).bytes := by
  unfold Ready Up; decide +kernel

theorem test_snap_seal_short : ∃ u, exec (.snapSeal 1001 2 dh 6 { snap0 with bytes := 64 } 0 1 []) sealing = .next u ∧
    u.out = [.driftLink 2 8 [6, E.transfer]] ∧ u.snapshots = [] := ⟨_, rfl, by decide +kernel⟩

def forwarding : State := { dport dact with store := { base.store with epoch := .opened, fromPeer := true, forwarded := [⟨3, 12, [mk 20 []], none⟩] } }

theorem wit_forwarded : Ready forwarding ∧ forwarding.drift[2]? = some dact ∧ (dport dact).store.epoch = .idle ∧ (dport dact).store.forwarded = [] ∧
    forwarding.store.epoch = .opened ∧ forwarding.store.fromPeer = true ∧ forwarding.store.forwarded = [⟨dact.peer, 12, [mk 20 []], none⟩] := by
  unfold Ready Up; decide

/-! ### Management -/

theorem wit_bundle : Requested base 0x01 (msg 0x01 7 (mk 1032 [(4, 2, 1024)])) ∧ field (Msg.payload (msg 0x01 7 (mk 1032 [(4, 2, 1024)]))) 0 4 = 0 ∧
    field (Msg.payload (msg 0x01 7 (mk 1032 [(4, 2, 1024)]))) 4 2 = 1024 ∧ (Msg.payload (msg 0x01 7 (mk 1032 [(4, 2, 1024)]))).length = 8 + 1024 ∧
    zeroRange (Msg.payload (msg 0x01 7 (mk 1032 [(4, 2, 1024)]))) 6 2 = true := by unfold Requested Managed Up; decide +kernel

def written : State := { base with boot := { base.boot with staged := .writing, stagedBytes := mk 1024 [] } }

theorem wit_bundle_append : Requested written 0x01 (msg 0x01 7 (mk 12 [(0, 4, 1024), (4, 2, 4)])) ∧
    field (Msg.payload (msg 0x01 7 (mk 12 [(0, 4, 1024), (4, 2, 4)]))) 0 4 = 1024 ∧ field (Msg.payload (msg 0x01 7 (mk 12 [(0, 4, 1024), (4, 2, 4)]))) 4 2 = 4 ∧
    1024 = written.boot.stagedBytes.length ∧ 1024 + 4 ≤ 1048576 := by unfold Requested Managed Up; decide +kernel

theorem wit_bundle_status : Requested base 0x03 (msg 0x03 7 []) ∧ Msg.payload (msg 0x03 7 []) = [] ∧ Requested base 0x02 (msg 0x02 7 []) ∧
    written.boot.phase = .done ∧ written.boot.staged = .writing := by unfold Requested Managed Up; decide

/-- DOMAIN_MAP_SET with the map of reset, and one that gives domain 0 a page that the region does not have. -/
def mapP (pages : Nat) : Bytes := mk 64 ((List.range 16).map (fun k => (k, 1, 0x80)) ++ [(16, 4, 0), (20, 4, pages), (24, 4, 3)])

theorem wit_map : Requested base 0x10 (msg 0x10 7 (mapP 16)) ∧ mapForm (Msg.payload (msg 0x10 7 (mapP 16))) = true ∧
    base.mapRefused (mapOf (Msg.payload (msg 0x10 7 (mapP 16)))) = false ∧ mapForm (Msg.payload (msg 0x10 7 (mapP 4000000000))) = true ∧
    base.mapRefused (mapOf (Msg.payload (msg 0x10 7 (mapP 4000000000)))) = true := by unfold Requested Managed Up; decide +kernel

theorem wit_routing : Requested base 0x11 (msg 0x11 7 (mk 8 [(0, 1, 1)])) ∧ routingForm (Msg.payload (msg 0x11 7 (mk 8 [(0, 1, 1)]))) = true ∧
    (routingOf (Msg.payload (msg 0x11 7 (mk 8 [(0, 1, 1)])))).bad = false := by unfold Requested Managed Up; decide +kernel

theorem wit_root : Requested base 0x13 (msg 0x13 7 (mk 104 [(0, 1, 4), (1, 1, 15)])) ∧ (Msg.payload (msg 0x13 7 (mk 104 [(0, 1, 4), (1, 1, 15)]))).length = 104 ∧
    zeroRange (Msg.payload (msg 0x13 7 (mk 104 [(0, 1, 4), (1, 1, 15)]))) 2 6 = true ∧ field (Msg.payload (msg 0x13 7 (mk 104 [(0, 1, 4), (1, 1, 15)]))) 1 1 = 15 ∧
    field (Msg.payload (msg 0x13 7 (mk 104 [(0, 1, 4), (1, 1, 15)]))) 0 1 = 3 + 1 ∧
    (slice (Msg.payload (msg 0x13 7 (mk 104 [(0, 1, 4), (1, 1, 15)]))) 8 96).all (· == 0) = true := by unfold Requested Managed Up; decide +kernel

theorem wit_hold : Requested base 0x12 (msg 0x12 7 [15, 1]) ∧ (Msg.payload (msg 0x12 7 [15, 1])).length = 2 ∧ field (Msg.payload (msg 0x12 7 [15, 1])) 0 1 = 15 ∧
    field (Msg.payload (msg 0x12 7 [15, 1])) 1 1 = 1 ∧ base.shaft[15]? = some ShaftPort.init := by unfold Requested Managed Up; decide

def captured : State := { base with ashpit := [⟨1, 0, [], 500, 0, 5000, false, false, true⟩] }

theorem wit_fetch : Requested captured 0x21 (msg 0x21 7 (leBytes 4 1 ++ leBytes 4 4999)) ∧ (Msg.payload (msg 0x21 7 (leBytes 4 1 ++ leBytes 4 4999))).length = 8 ∧
    field (Msg.payload (msg 0x21 7 (leBytes 4 1 ++ leBytes 4 4999))) 4 4 = 4999 ∧
    (captured.ashpit.find? fun r => r.num == field (Msg.payload (msg 0x21 7 (leBytes 4 1 ++ leBytes 4 4999))) 0 4) = some ⟨1, 0, [], 500, 0, 5000, false, false, true⟩ ∧
    4999 < 5000 := by unfold Requested Managed Up; decide +kernel

def reporting : State := { base with reports := [⟨1, 0, 0, 5, []⟩, ⟨2, 0, 0, 6, []⟩] }

theorem wit_report : Managed reporting ∧ Up reporting ∧ reporting.reports = ⟨1, 0, 0, 5, []⟩ :: [⟨2, 0, 0, 6, []⟩] ∧
    reporting.mgmt.reportSent + 10000000 ≤ (reporting.advance 10000000).count := by unfold Managed Up; decide

def negotiated : State := { base with mgmt := { base.mgmt with spdmVersion := true, spdmCaps := true, spdmAlgs := true, large := List.replicate 4097 0 } }

theorem wit_spdm : Managed base ∧ base.mgmt.spdmVersion = false ∧ negotiated.mgmt.spdmVersion = true ∧ negotiated.mgmt.spdmCaps = true ∧
    negotiated.mgmt.spdmAlgs = true ∧ bit 0x80 7 = true ∧ bit 0x02 1 = true ∧ (List.replicate 32 (0#8)).length = 32 := by unfold Managed Up; decide
theorem wit_spdm_chunk : 4096 * 1 < negotiated.mgmt.large.length := by decide +kernel
theorem wit_i3c : base.mgmt.i3cAddr = none ∧ (8 : Nat) ≤ 8 ∧ (254 : Nat) ≤ 254 ∧ (1 : Nat) ≤ 1 := by decide

/-- An EID outside 8 to 254 does not change the endpoint's. -/
theorem test_set_eid : ∃ u, exec (.setEndpointId 1001 0 7) base = .next u ∧ u.mgmt.eid = base.mgmt.eid := ⟨_, rfl, by decide +kernel⟩

def booting : State := { base with mode := .recovering, boot := { base.boot with phase := .committed } }

theorem wit_boot : Up booting ∧ booting.boot.phase = .committed ∧ booting.mode = .recovering ∧ booting.recovery = none ∧ booting.reports.length < 256 := by
  unfold Up; decide

/-! ### Commands -/

theorem wit_refused : opcodeOf (.canarySet 5 iA) = some (5, iA, 0x0600) ∧ Up base ∧ (exe { cmd 0x0600 [] with pre := E.lamp } base).foreman.exec =
    some { cmd 0x0600 [] with pre := E.lamp } ∧ Slot.opcode (cmd 0x0600 []).slot = 0x0600 ∧ base.foreman.restarting = false ∧ base.mode ≠ .recovering ∧
    E.lamp ≠ 0 := by unfold Up; decide

theorem wit_completion : iA.idx < base.insts.length := by decide

theorem test_lamp_check : ∃ u, exec (.canarySet 1001 iA) (exe { cmd 0x0600 [(0x18, 4, 100)] with pre := E.lamp } base) = .next u ∧
    u.threshold = 2000 ∧ (u.inst iA).cplQ.wr = 1 := by refine ⟨_, rfl, ?_⟩; decide +kernel

theorem ready_exe {op : Nat} (fs : List (Nat × Nat × Nat)) (h : Slot.opcode (cmd op fs).slot = op) : Executing (exe (cmd op fs) base) op iA (cmd op fs) :=
  exe_executing ⟨⟨rfl, rfl⟩, rfl, by decide, rfl, Nat.zero_le _, h⟩

def open1 : State := { base with ctxs := [(1, ctx1)] }

theorem wit_queries : Executing (exe (cmd 0x0001 []) base) 0x0001 iA (cmd 0x0001 []) ∧ Executing (exe (cmd 0x0405 []) base) 0x0405 iA (cmd 0x0405 []) ∧
    Executing (exe (cmd 0x0601 []) base) 0x0601 iA (cmd 0x0601 []) ∧ Executing (exe (cmd 0x0701 []) base) 0x0701 iA (cmd 0x0701 []) :=
  ⟨ready_exe _ (by decide), ready_exe _ (by decide), ready_exe _ (by decide), ready_exe _ (by decide)⟩

theorem wit_context_query : (cmd 0x0104 [(0x18, 2, 1023)]).ctxId = 1023 ∧ (base.ctx 1023).state = .free ∧ (open1.ctx 1).domain = 0 := by decide

/-- A stream of context 1 in INTAKE. -/
def req0 : AdmitReq := ⟨1, 3, 0, 0, false, false, 0, 0, 16, false, 0, 0, some iA⟩
def ent : Entry := { Entry.admitted req0 900 [] [] (some 0) false false with state := .intake }
def stm : Stream := Stream.fresh ent iA 900 0 8 none
def one (x : Stream) : State := { open1 with streams := [(0, x)] }

theorem wit_stream_query : (one stm).stream (cmd 0x0205 [(0x18, 2, 0)]).streamId = some stm ∧ stm.e.state ≠ .free ∧ stm.e.domain = 0 ∧
    (cmd 0x0205 [(0x20, 8, 900)]).arg 0x20 8 = stm.e.admitStamp ∧ (cmd 0x0205 []).arg 0x20 8 = 0 := by decide

def inst0 : Install := ⟨1, [1, 0, 0], (0, 0), 0, 0, 0, [], 0, [], 64, .gate ⟨[], []⟩, [], []⟩
def installed : State := { base with ctxs := [(1, { ctx1 with installs := [⟨5, inst0, true⟩], nextInstall := [1, 1, 1, 1, 1, 2] })] }

theorem wit_image_query : installed.ctxBad (cmd 0x0302 [(0x18, 2, 1), (0x1A, 1, 5)]) 1 = false ∧ (cmd 0x0302 [(0x18, 2, 1), (0x1A, 1, 5)]).arg 0x1A 1 ≤ 5 ∧
    installed.queried (cmd 0x0302 [(0x18, 2, 1), (0x1A, 1, 5)]) = some ⟨5, inst0, true⟩ := by decide +kernel

def tallied : State := open1.setTally 4095 ⟨true, 1, 0, 9, false, 0, []⟩

theorem wit_tally_read : (cmd 0x0503 [(0x18, 2, 1), (0x1A, 2, 4095)]).tally = 4095 ∧
    tallied.cmdTally (cmd 0x0503 [(0x18, 2, 1), (0x1A, 2, 4095)]) = some ⟨true, 1, 0, 9, false, 0, []⟩ ∧
    (tallied.namedTallies 1).contains 4095 = false := by decide +kernel

theorem wit_ashpit_read : (captured.ashpit.find? fun r => r.num == (cmd 0x0602 [(0x18, 4, 1)]).arg 0x18 4) = some ⟨1, 0, [], 500, 0, 5000, false, false, true⟩ := by decide

theorem wit_counter_read : (cmd 0x0700 [(0x1C, 2, 1)]).ctxId = 0 ∧ (cmd 0x0700 [(0x1C, 2, 1)]).arg 0x1C 2 = 1 ∧
    (cmd 0x0700 [(0x1C, 2, 1)]).arg 0x1A 2 + 1 ≤ (base.counterList (cmd 0x0700 [(0x1C, 2, 1)])).length := by decide +kernel

/-! ### Signed containers (R398), signed for these tests -/

def signed (so : Nat) (fs : List (Nat × Nat × Nat)) (mask key rootSig sig : Nat) : Bytes :=
  splice (splice (splice (mk (so + 320) (fs ++ [(so + 0xC8, 2, mask)])) (so + 0x08) (beBytes 96 key)) (so + 0x68) (beBytes 96 rootSig)) (so + 0xD0) (beBytes 96 sig)

/-- A gate image without policies or grammars, and the root key that signs it. -/
def gateImg : Bytes := signed 256 [(0, 4, 1482051663), (4, 1, 5), (6, 2, 1), (8, 2, 1), (10, 2, 0), (12, 2, 0), (16, 2, 0), (18, 2, 1), (32, 2, 0), (48, 8, 576), (56, 8, 128), (64, 8, 256), (128, 2, 6), (136, 8, 192), (144, 8, 8), (20, 4, 80), (24, 4, 2000)] (1 <<< 5)
  0xec2fe1f70005e35c9b05db29a29d93192c4da73375e798704f508851e11abfb6a39738be1c43198ef62956e2253e1bb9c72a3d9c58a495e3f11dd4397018ca80bbe18fb3134c4008a67fcd0f26a35cf706025b1ae5b296d471103aee15e242e3
  0x66bc96bb6beb3e6a9bfd4944057217df903719f430b74b979bef2905e5cb4d725f9c5e58b2fde5821862f04af8ee3b3766bc96bb6beb3e6a9bfd4944057217df903719f430b74b979bef2905e5cb4d725f9c5e58b2fde5821862f04af8ee3b37
  0x1227102d33895dee75dcde2622aadebc5c9ae312dcb28a44b4acaabab7533adb6fd0c6a9343481348a4a71371f6fd568b0b7b00f112dc9fa27499f620b8e4a3ec988f65b9ee62e16c1266c94dfeb32336001a0af41dc9ab8cc0b8c043da8b81a
def gateRoot : Bytes := beBytes 96
  0x02bdc0f6442b44984157c4584df3ee2facf531cf5e6a73f8a4036374e23248f222ba3fdf0ba23b78b4d0405f2ef652e7abeeb938767997d9ab6cf1108b71c707a9dd698ffb3e10fb06a1a654118291cfdfb8f44113a3a2cf4fae91644129f0cb

/-- A vocabulary of one token, the byte 65. -/
def vocabImg : Bytes := signed 256 [(0, 4, 1482051663), (4, 1, 6), (6, 2, 1), (8, 2, 1), (10, 2, 0), (12, 2, 0), (16, 2, 0), (18, 2, 1), (32, 2, 0), (48, 8, 576), (56, 8, 128), (64, 8, 256), (128, 2, 7), (136, 8, 192), (144, 8, 40), (192, 4, 1), (196, 4, 1), (200, 8, 32), (208, 8, 36), (224, 4, 16777216), (228, 1, 65)] (1 <<< 6)
  0xba8b300bfd901c00e85d84b6c3a8af9d7966fe2466411180c919886280da9560379c45de4d3d3e470d3f628d24a8c182aeb87d7e31b830517ab7fea4554ed0b8d819303f89f28b48265ebe4c4d5843029c2ed7351aa69d4482ddfc08c9ffe9eb
  0x196b49716321bd63d72618156a418af63e7ceb4011ea3b40ff4f4dbfc2cb061a4535a8189ad9f61430953dcecaaf1a4f196b49716321bd63d72618156a418af63e7ceb4011ea3b40ff4f4dbfc2cb061a4535a8189ad9f61430953dcecaaf1a4f
  0xa276af96f2f47020430e92ff18639f3b0cfee8e97f16e8d7034c6765c76afc39203e57f481fba9823cd07882f32d9dd9a276af96f2f47020430e92ff18639f3b0cfee8e97f16e8d7034c6765c76afc39203e57f481fba9823cd07882f32d9dd9
def vocabRoot : Bytes := beBytes 96
  0x5de494cf9ab04c382526af706dbea7f249a1f02921d8884efa149f08306b15e91d4ed29ca8a0230120a5b34fe3ae3fe719b4e875d4fa40d88d4e5b306a6a98fba1ee2aec01e342706363d943130c8b987adb778a86523e9d96cf485d43e0e0f1

/-- A bundle of two empty containers of version 1.4.0. -/
def bundleKey : Nat :=
  0xe1d3b7435a2636de87eafef1fa4a41f4e53c5be505c56a11435e97f648a0976b2f35dc62126d4f9efdfce4ca7bf59b7e6b206419711d5b5a3165a8f2209a23030428ad8da2cf38fb9d5136bc2ef904a43791603bc48acc1f32851249e82df756
def bundleRootSig : Nat :=
  0x621f265ab6ed625cd60c8a892393c748caf8e5cee593b001fb9187b1b245791db1ff6487a69f0f3ed8e0ef57c3212ff5621f265ab6ed625cd60c8a892393c748caf8e5cee593b001fb9187b1b245791db1ff6487a69f0f3ed8e0ef57c3212ff5
def bundle : Bytes :=
  signed 192 [(0, 4, 1482051663), (4, 1, 8), (6, 2, 1), (8, 2, 1), (10, 2, 4), (12, 2, 0), (32, 2, 7), (48, 8, 512), (56, 8, 128), (64, 8, 192), (128, 2, 9), (136, 8, 192), (144, 8, 0)] (3 <<< 8) bundleKey bundleRootSig
    0xfbf96095915eb587390f850ec95b35f618ae121c72a70808ad8f9f4c261b602b63541743e395f7c778e52bb28c18dc83fbf96095915eb587390f850ec95b35f618ae121c72a70808ad8f9f4c261b602b63541743e395f7c778e52bb28c18dc83 ++
  signed 192 [(0, 4, 1482051663), (4, 1, 9), (6, 2, 1), (8, 2, 1), (10, 2, 4), (12, 2, 0), (32, 2, 7), (48, 8, 512), (56, 8, 128), (64, 8, 192), (128, 2, 10), (136, 8, 192), (144, 8, 0)] (3 <<< 8) bundleKey bundleRootSig
    0xfbf96095915eb587390f850ec95b35f618ae121c72a70808ad8f9f4c261b602b63541743e395f7c778e52bb28c18dc83cbc33c7653ee1c6c8c77b1dbee15c256db98898911e05e3578ebe0a42889177a95c2a519db871dd0f57b46401cd98cd7
def bundleRoot : Bytes := beBytes 96
  0xfe0c3b934988db3668d07813d8c24130743cc3e6177f3c8e54d7f475a7c1c2689842130331fb9fdfa7fde164812484a13b8cbd567c84e2407810bacb981026357c25f3cbc780de18274b42ee546e7db49db25b23a2162bb26f109c47c6b75e06

def unit (root : Bytes) (s : State) : State := { s with
  fuses := { s.fuses with b0 := true, rootKey := root }
  boot := { s.boot with activeFw := [1, 4, 0], activeStoker := [1, 4, 0] } }

/-- IMAGE_INSTALL of the gate image into context 1. -/
def installCmd : ExecCmd := cmd 0x0301 [(0x02, 1, 1), (0x18, 2, 1), (0x1A, 1, 5)] gateImg

theorem wit_install : ((unit gateRoot open1).advance 1001).installCheck installCmd = 0 := by decide +kernel

def vocabCmd : ExecCmd := cmd 0x0303 [(0x02, 1, 1), (0x18, 1, 7)] vocabImg

theorem wit_vocab : ((unit vocabRoot open1).advance 1001).vocabCheck vocabCmd = 0 ∧ bit (vocabCmd.arg 0x19 1) 1 = false ∧
    bit (vocabCmd.arg 0x19 1) 0 = false ∧ tget (unit vocabRoot open1).vocabs 7 = none := by decide +kernel

def committed : State := { unit bundleRoot base with boot := { (unit bundleRoot base).boot with active := bundle, staged := .writing, stagedBytes := bundle } }

theorem wit_bundle_sig : committed.bundleSigOk bundle = true := by decide +kernel
theorem wit_bundle_combo : committed.bundleComboOk bundle = true ∧ committed.abiOffender (comboRow committed.fuses.b0 (Img.version (bundleHalves bundle).1)) = none ∧
    committed.boot.staged = .writing ∧ committed.boot.stagedBytes = bundle ∧ committed.boot.phase = .done := by decide +kernel

/-- The bundle is accepted by any block with these fuses. -/
theorem bundle_starts {s : State} (hf : s.fuses = committed.fuses) (hr : s.roots = committed.roots) (ha : s.boot.active = bundle) (hs : s.boot.staged = .writing) :
    s.foremanStart.2 = true := by
  have h1 : s.bundleSigOk bundle = true := by
    have e : s.bundleSigOk bundle = committed.bundleSigOk bundle := by unfold State.bundleSigOk State.sigOk State.rootKey; rw [hf, hr]
    rw [e]; exact wit_bundle_sig
  have h2 : s.bundleComboOk bundle = true := by
    have e : s.bundleComboOk bundle = committed.bundleComboOk bundle := by unfold State.bundleComboOk; rw [hf]
    rw [e]; exact wit_bundle_combo.1
  have h4 : bundle ≠ [] := by decide +kernel
  unfold State.foremanStart
  simp only [hs, ha, h1, h2, reduceCtorEq, if_false]
  simp [h4]

def recov : State := { committed with mode := .recovering, recovery := some ⟨0, 0⟩ }

theorem wit_recovery_end : Up recov ∧ recov.recovery = some ⟨0, 0⟩ ∧ recov.pins.thermTripN = false ∧ recov.pins.warmN = false ∧
    recov.boot.phase = .done ∧ lastFailed [] = false ∧ recov.foremanStart.2 = true := by
  refine ⟨⟨rfl, rfl⟩, rfl, rfl, rfl, rfl, by decide +kernel, bundle_starts rfl rfl rfl rfl⟩

/-! ### Contexts, streams, admission -/

theorem exe_of {s : State} {op : Nat} {fs : List (Nat × Nat × Nat)} {pl : Bytes} (h : ((s.porst = false ∧ s.pilotFault = false) ∧
    s.foreman.restarting = false ∧ s.mode ≠ .recovering ∧ pl.length ≤ (cmd op fs pl).delivered ∧ Slot.opcode (cmd op fs pl).slot = op)) :
    Executing (exe (cmd op fs pl) s) op iA (cmd op fs pl) := exe_executing ⟨h.1, h.2.1, h.2.2.1, rfl, h.2.2.2⟩

def createC : ExecCmd := cmd 0x0100 [(0x18, 2, 1), (0x20, 4, 1)]

theorem wit_context_create : Executing (exe createC base) 0x0100 iA createC ∧ createC.ctxId ≠ 0 ∧ (exe createC base).domains.ports.contains (0, true) = true ∧
    ((exe createC base).ctx createC.ctxId).state = .free ∧ resvRangeOk (resvOf createC) = true ∧
    (((exe createC base).advance 1001).setCtx createC.ctxId (((exe createC base).advance 1001).newCtx createC)).createFits createC.ctxId = true :=
  ⟨exe_of (by decide), by decide +kernel⟩

def resetC : ExecCmd := cmd 0x0102 [(0x18, 2, 1)]
def hung1 : State := { base with ctxs := [(1, { ctx1 with faulted := true })] }

theorem wit_context_close : Executing (exe (cmd 0x0101 [(0x18, 2, 1)]) (one stm)) 0x0101 iA (cmd 0x0101 [(0x18, 2, 1)]) ∧
    (exe (cmd 0x0101 [(0x18, 2, 1)]) (one stm)).ctxNotOpen (cmd 0x0101 [(0x18, 2, 1)]) (cmd 0x0101 [(0x18, 2, 1)]).ctxId = false ∧
    (exe (cmd 0x0101 [(0x18, 2, 1)]) (one stm)).ctxStreams (cmd 0x0101 [(0x18, 2, 1)]).ctxId ≠ [] := ⟨exe_of (by decide), by decide +kernel⟩

theorem wit_context_reset : Executing (exe resetC open1) 0x0102 iA resetC ∧ (exe resetC open1).ctxBad resetC 1 = false ∧ resetC.ctxId = 1 ∧
    ((exe resetC open1).ctx 1).state = .opened ∧ ((exe resetC open1).ctx 1).faulted = false ∧ ((exe resetC hung1).ctx 1).faulted = true :=
  ⟨exe_of (by decide), by decide +kernel⟩

def setC : ExecCmd := cmd 0x0103 [(0x18, 2, 1), (0x1A, 2, 2), (0x20, 8, 1)]

theorem wit_context_set : Executing (exe setC open1) 0x0103 iA setC ∧ (exe setC open1).ctxNotOpen setC setC.ctxId = false ∧ setC.arg 0x1A 2 = 2 ∧
    setC.arg 0x20 8 = 1 ∧ 1 < 2 ^ (Setting.spec.getD 2 (0, 0, 0)).1 ∧ ((exe setC open1).advance 1001).settingCheck setC.ctxId 2 1 = 0 ∧ 2 ≠ Setting.draftKMax :=
  ⟨exe_of (by decide), by decide +kernel⟩

def capC : ExecCmd := cmd 0x0105 [(0x18, 2, 1), (0x20, 4, 1)]

theorem wit_capacity : Executing (exe capC open1) 0x0105 iA capC ∧ (exe capC open1).ctxNotOpen capC capC.ctxId = false ∧ resvRangeOk (resvOf capC) = true ∧
    (exe capC open1).usesMore capC.ctxId (resvOf capC) = false ∧
    (((exe capC open1).advance 1001).modCtx capC.ctxId fun x => { x with resv := resvOf capC }).capacityFits capC.ctxId = true :=
  ⟨exe_of (by decide), by decide +kernel⟩

def layC : ExecCmd := cmd 0x0002 ((List.range 7).map fun k => (0x18 + 4 * k, 4, Config.defaultRegions.getD k 0))

theorem wit_layout : Executing (exe layC base) 0x0002 iA layC ∧ (exe layC base).noContexts = true ∧ layoutOk (layoutOf layC) = true :=
  ⟨exe_of (by decide), by decide +kernel⟩

def held : Stream := { stm with e := { ent with state := .held, resume := .generating, host := true } }
def draining : Stream := { stm with e := { ent with state := .draining } }

theorem wit_stream_commands (op : Nat) (h : op ∈ [0x0201, 0x0202, 0x0203]) : Executing (exe (cmd op []) (one stm)) op iA (cmd op []) ∧
    Executing (exe (cmd op []) (one draining)) op iA (cmd op []) ∧ (cmd op []).streamId = 0 ∧ ent.domain = 0 ∧ (cmd op []).arg 0x20 8 = 0 ∧
    stm.e.state.live = true ∧ stm.e.state = .intake ∧ draining.e.state ≠ .free ∧ draining.e.host = false := by
  simp only [List.mem_cons, List.not_mem_nil, or_false] at h
  rcases h with rfl | rfl | rfl <;> exact ⟨exe_of (by decide), exe_of (by decide), by decide +kernel⟩

theorem wit_stream_resume : Executing (exe (cmd 0x0203 [(0x20, 8, 900)]) (one held)) 0x0203 iA (cmd 0x0203 [(0x20, 8, 900)]) ∧
    (cmd 0x0203 [(0x20, 8, 900)]).arg 0x20 8 = held.e.admitStamp ∧ held.e.state = .held ∧ held.e.host = true ∧ held.e.late = false ∧ held.e.replay = false :=
  ⟨exe_of (by decide), by decide +kernel⟩

def sset : ExecCmd := cmd 0x0204 [(0x28, 1, 7), (0x29, 1, 7), (0x2C, 4, 1048576), (0x30, 8, 100)]

theorem wit_stream_set : Executing (exe sset (one stm)) 0x0204 iA sset ∧ stm.e.state.live = true ∧ streamSetBad sset = false ∧ streamSetRange sset = false ∧
    bit (sset.arg 0x28 1) 0 = true ∧ bit (sset.arg 0x28 1) 1 = true ∧ bit (sset.arg 0x28 1) 2 = true ∧
    streamSetBad (cmd 0x0204 [(0x28, 1, 8)]) = false ∧ bit ((cmd 0x0204 [(0x28, 1, 8)]).arg 0x28 1) 0 = false := ⟨exe_of (by decide), by decide +kernel⟩

def snapA : Snapshot := { snap0 with ctx := 1 }
def snapP : Snapshot := { snapA with pages := List.range 16 }
def dropC : ExecCmd := cmd 0x0206 [(0x18, 2, 1), (0x20, 8, 77)]
def kept : State := { one { stm with restore := some snapA, saving := some snapP } with snapshots := [snapA] }

theorem wit_prefix_drop : Executing (exe dropC kept) 0x0206 iA dropC ∧ (exe dropC kept).ctxBad dropC 1 = false ∧ dropC.ctxId = 1 ∧
    ((exe dropC kept).ctx 1).state = .opened ∧ (exe dropC kept).snapshot 1 (dropC.arg 0x20 8) = some snapA ∧ kept.freeEntry = some 1 ∧
    ((exe dropC kept).stream 0).bind (·.restore) = some snapA ∧ ((exe dropC kept).stream 0).bind (·.saving) = some snapP ∧ snapKey snapP = snapKey snapA ∧
    pagesOf snapP.bytes ≤ snapP.pages.length ∧ kept.poisoned = [] := ⟨exe_of (by decide), by decide +kernel⟩

def voc : Vocab := ⟨[⟨0, 1, false⟩], [65], (1, 0), [], []⟩
def served : State := { open1 with vocabs := [(0, voc)] }

theorem wit_admission : served.admitCheck req0 = 0 ∧ served.freeEntry = some 0 ∧ req0.mode ≠ 2 ∧ open1.admitCheck req0 = E.range := by decide +kernel

def admitP : Bytes := mk 64 (hdr 1 0 1 ++ [(0x10, 2, 1), (0x28, 4, 16)])

theorem wit_admit : Arrives served 0 1 admitP ∧ (taken served 1001 0 admitP).admitCheck (AdmitReq.ofPacket (served.portDomain 0) 0 admitP) = 0 ∧
    (taken open1 1001 0 admitP).admitCheck (AdmitReq.ofPacket (open1.portDomain 0) 0 admitP) = E.range := by unfold Arrives Ready Up; decide +kernel

def admC : ExecCmd := cmd 0x0200 [(0x18, 2, 1), (0x30, 4, 16)]

theorem wit_stream_admit : Executing (exe admC served) 0x0200 iA admC ∧ ((exe admC served).advance 1001).admitCheck (.ofSlot iA admC.slot) = 0 ∧
    (exe admC served).freeEntry = some 0 ∧ (AdmitReq.ofSlot iA admC.slot).mode ≠ 2 := ⟨exe_of (by decide), by decide +kernel⟩

/-- Admission by a command takes entry 0 and answers it with the stamp (Table 14.6). -/
theorem test_stream_admit : ∃ u, exec (.streamAdmit 1001 iA) (exe admC served) = .next u ∧ u.streams.length = 1 ∧ (u.inst iA).cplQ.wr = 1 := by
  refine ⟨_, rfl, ?_⟩; decide +kernel

/-! ### Images, adapters, tables, stores, Tallies, peers -/

def stageC : ExecCmd := cmd 0x0300 [(2, 1, 1), (0x18, 1, 3), (0x20, 8, 2)] [3, 4]
def stagedS : State := base.modInst iA fun x => { x with staging := x.staging.set 3 [1, 2] }

theorem wit_stage : Executing (exe stageC stagedS) 0x0300 iA stageC ∧ ((exe stageC stagedS).advance 1001).stageCheck stageC = 0 ∧
    stageC.stageFirst = false ∧ stageC.stageDiscard = false := ⟨exe_of (by decide), by decide +kernel⟩

theorem wit_install_executes : Executing (exe installCmd (unit gateRoot open1)) 0x0301 iA installCmd ∧
    Executing (exe vocabCmd (unit vocabRoot open1)) 0x0303 iA vocabCmd ∧
    (∀ c, (exe c (unit gateRoot open1)).advance 1001 = exe c ((unit gateRoot open1).advance 1001)) := ⟨exe_of (by decide +kernel), exe_of (by decide +kernel), fun _ => rfl⟩

def loading (w : Work) : State := open1.modInst iA fun x => { x with working := some ⟨installCmd, w, 0⟩ }

theorem wit_load : Up (loading (.install 1 0 5 inst0 none)) ∧ (loading (.install 1 0 5 inst0 none)).foreman.restarting = false ∧
    ((loading (.install 1 0 5 inst0 none)).inst iA).working = some ⟨installCmd, .install 1 0 5 inst0 none, 0⟩ ∧
    ((loading (.install 1 0 5 inst0 none)).ctx 1).state = .opened ∧ ((loading (.install 1 0 5 inst0 none)).ctx 1).gen = 0 := by unfold Up; decide +kernel

/-- The load's end puts the image in force under number 1. -/
theorem test_load : ∃ u, exec (.imageLoadComplete 1001 iA) (loading (.install 1 0 5 inst0 none)) = .next u ∧ (u.ctx 1).installs.map (·.inForce) = [true] ∧
    (u.inst iA).cplQ.wr = 1 := by refine ⟨_, rfl, ?_⟩; decide +kernel

def normC : ExecCmd := cmd 0x0308 [(2, 1, 1), (0x0C, 4, 256), (0x18, 1, 3), (0x19, 1, 255), (0x1A, 2, 64)] (mk 256 [(0, 2, 0x7F7F), (2, 2, 0x3F80)])

theorem wit_norm : Executing (exe normC base) 0x0308 iA normC ∧ normC.arg 0x1A 2 = 64 ∧ Slot.descLen normC.slot = 4 * 64 ∧ 64 % 64 = 0 ∧
    normC.arg 0x18 1 ≤ 3 ∧ (∀ k, k < normC.payload.length / 2 → bf16Finite (field normC.payload (2 * k) 2) = true) := ⟨exe_of (by decide +kernel), by decide +kernel⟩

def ver : AdapterVersion := ⟨1, 0, false, (1, 0), [], ⟨0, 1, 0, 0, 0, [], [], [], []⟩, []⟩
def owning : State := { open1 with adapters := [(255, ⟨1, 0, 2, [ver], []⟩)] }
def freeA : ExecCmd := cmd 0x0305 [(0x18, 2, 1), (0x1A, 2, 255)]
def withA : ExecCmd := cmd 0x0307 [(0x18, 2, 1), (0x1A, 2, 255), (0x1C, 2, 1)]
def pubA : ExecCmd := cmd 0x0306 [(0x18, 2, 1), (0x1A, 2, 255), (2, 1, 1)] gateImg

theorem wit_adapter : Executing (exe (cmd 0x0304 [(0x18, 2, 1)]) open1) 0x0304 iA (cmd 0x0304 [(0x18, 2, 1)]) ∧
    (exe (cmd 0x0304 [(0x18, 2, 1)]) open1).ctxNotOpen (cmd 0x0304 [(0x18, 2, 1)]) 1 = false ∧ open1.freeSlot = some 0 ∧
    Executing (exe freeA owning) 0x0305 iA freeA ∧ (exe freeA owning).ownedSlot freeA = some ⟨1, 0, 2, [ver], []⟩ ∧ freeA.adapterSlot ≤ 255 ∧
    (∀ v ∈ [ver], (exe freeA owning).adapterPinCount freeA.adapterSlot v.version = 0) ∧
    Executing (exe withA owning) 0x0307 iA withA ∧ (exe withA owning).ownedSlot withA = some ⟨1, 0, 2, [ver], []⟩ ∧
    ([ver].find? fun v => v.version == withA.arg 0x1C 2) = some ver ∧ ver.withdrawn = false ∧ Executing (exe pubA owning) 0x0306 iA pubA :=
  ⟨exe_of (by decide), by decide +kernel, by decide +kernel, exe_of (by decide), by decide +kernel, by decide +kernel, by decide +kernel,
    exe_of (by decide), by decide +kernel, by decide +kernel, rfl, exe_of (by decide +kernel)⟩

def defC : ExecCmd := cmd 0x0400 [(0x18, 1, 63), (0x19, 1, 64), (0x1A, 1, 7), (0x20, 8, 2 ^ 61 - 2), (0x28, 8, 5)]
def setsS : State := { base with store := { base.store with sets := [(63, ⟨8, 0, 2, 0⟩)], buckets := [(4, [⟨9, 63, 1⟩])] } }

theorem wit_fp_define : Executing (exe defC base) 0x0400 iA defC ∧ defC.arg 0x18 1 = 63 ∧ defC.arg 0x19 1 = 64 ∧ defC.arg 0x1A 1 = 7 ∧
    defC.arg 0x20 8 = 2 ^ 61 - 2 ∧ defC.arg 0x28 8 = 5 ∧ (∀ b ∈ base.store.buckets, ∀ x ∈ b.2, x.st ≠ 0 → x.set ≠ 63) ∧
    (∃ b ∈ setsS.store.buckets, ∃ x ∈ b.2, x.st ≠ 0 ∧ x.set = 63) ∧ Executing (exe defC setsS) 0x0400 iA defC ∧
    (cmd 0x0400 [(0x18, 1, 64)]).arg 0x18 1 = 64 :=
  ⟨exe_of (by decide), by decide +kernel, by decide +kernel, by decide +kernel, by decide +kernel, by decide +kernel, fun _ h => (by cases h),
    ⟨_, .head _, _, .head _, by decide, rfl⟩, exe_of (by decide), by decide +kernel⟩

theorem test_fp_define_busy : ∃ u, exec (.fpSetDefine 1001 iA) (exe defC setsS) = .next u ∧ u.store.sets = setsS.store.sets ∧
    ((u.inst iA).cplRing.drop 4).take 1 ≠ [] := ⟨_, rfl, by decide +kernel⟩

def openF : State := { setsS with store := { setsS.store with epoch := .opened } }
def updC : ExecCmd := cmd 0x0402 [(2, 1, 1), (0x0C, 4, 16)] (mk 16 [(0, 8, 12345), (8, 1, 63), (9, 1, 1)])
def epoC : ExecCmd := cmd 0x0401 [(0x18, 1, 4)]

theorem wit_fp_open : Executing (exe epoC (dport dact)) 0x0401 iA epoC ∧ (dport dact).store.epoch = .idle ∧ (dport dact).store.forwarded = [] ∧
    (dport dact).store.lost = [] ∧ (∀ q ∈ maskPorts (epoC.arg 0x18 1), ((dport dact).driftPort q).link = .active) := ⟨exe_of (by decide), by decide +kernel⟩

theorem wit_fp_update : Executing (exe updC openF) 0x0402 iA updC ∧ Slot.descLen updC.slot ≤ 1048576 ∧ fpRecords updC.payload = [mk 16 [(0, 8, 12345), (8, 1, 63), (9, 1, 1)]] ∧
    openF.store.ownOpen = true ∧ (fpRecords updC.payload).any openF.recordBad = false ∧ openF.store.peers = [] ∧
    openF.store.records + (fpRecords updC.payload).length ≤ 16777216 ∧ ((openF.advance 1001).storeRecords (fpRecords updC.payload)).1.store.peers = [] :=
  ⟨exe_of (by decide), by decide +kernel, by decide +kernel, by decide +kernel, by decide +kernel, rfl, by decide +kernel, by decide +kernel⟩

theorem wit_fp_end : Executing (exe (cmd 0x0403 []) openF) 0x0403 iA (cmd 0x0403 []) ∧ Executing (exe (cmd 0x0404 []) openF) 0x0404 iA (cmd 0x0404 []) ∧
    openF.store.ownOpen = true ∧ openF.store.peers = [] := ⟨exe_of (by decide), exe_of (by decide), by decide⟩

/-- A sweep waits for the items stamped before the commit. -/
def sweeping (e : Nat) (a : Bool) : State :=
  { base with store := { setsS.store with epoch := .sweeping, effect := e }, items := [(5, { Item.new 0 0 0 900 200 7 Config.defaultSettings ent (.chunk (ChunkBody.new (ChunkPkt.of (mk 64 [])) 0 Screen.empty)) with answered := a })] }

theorem wit_fp_sweep : Ready (sweeping 900 false) ∧ (sweeping 900 false).store.epoch = .sweeping ∧ (sweeping 900 false).poisoned = [] ∧
    (∀ p ∈ (sweeping 900 false).items, (sweeping 900 false).store.effect ≤ p.2.stamp ∨ p.2.answered = true) ∧
    (∃ p ∈ (sweeping 901 false).items, p.2.stamp < (sweeping 901 false).store.effect ∧ p.2.answered = false) :=
  ⟨⟨⟨rfl, rfl⟩, rfl⟩, rfl, rfl, by decide +kernel, _, .head _, by decide +kernel⟩

def allocC : ExecCmd := cmd 0x0500 [(0x18, 2, 1), (0x1C, 2, 256)]
def tal (op : Nat) : ExecCmd := cmd op [(0x18, 2, 1), (0x1A, 2, 4095), (0x20, 4, 7)]

theorem wit_tally_alloc : Executing (exe allocC open1) 0x0500 iA allocC ∧ (exe allocC open1).ctxNotOpen allocC 1 = false ∧ allocC.arg 0x1C 2 = 256 ∧
    allocC.tally = 0 ∧ (exe allocC open1).freeRun 256 = some 64 := ⟨exe_of (by decide), by decide +kernel⟩

theorem wit_tally_commands (op : Nat) (h : op ∈ [0x0501, 0x0502]) : Executing (exe (tal op) tallied) op iA (tal op) ∧ (tal op).tally = 4095 ∧
    (exe (tal op) tallied).cmdTally (tal op) = some ⟨true, 1, 0, 9, false, 0, []⟩ ∧ (tallied.namedTallies 1).contains 4095 = false := by
  simp only [List.mem_cons, List.not_mem_nil, or_false] at h
  rcases h with rfl | rfl <;> exact ⟨exe_of (by decide), by decide +kernel⟩

theorem wit_canary : Executing (exe (cmd 0x0600 [(0x18, 4, 100)]) base) 0x0600 iA (cmd 0x0600 [(0x18, 4, 100)]) ∧ (cmd 0x0600 [(0x18, 4, 100)]).arg 0x18 4 = 100 ∧
    (cmd 0x0600 [(0x18, 4, 1000000)]).arg 0x18 4 = 1000000 ∧ (cmd 0x0600 [(0x18, 4, 99)]).arg 0x18 4 = 99 ∧ (cmd 0x0600 [(0x18, 4, 1000001)]).arg 0x18 4 = 1000001 :=
  ⟨exe_of (by decide), by decide +kernel⟩

def peerC (a : Nat) : ExecCmd := cmd 0x0800 [(0x18, 1, 3), (0x19, 1, a)]

theorem wit_peer_state : Executing (exe (peerC 2) (dport dact)) 0x0800 iA (peerC 2) ∧ (peerC 2).arg 0x18 1 = 3 ∧ (dport dact).routing.device = 0 ∧
    (peerC 0).arg 0x19 1 = 0 ∧ (peerC 1).arg 0x19 1 = 1 ∧ (peerC 2).arg 0x19 1 = 2 := ⟨exe_of (by decide), by decide +kernel⟩

def migC : ExecCmd := cmd 0x0801 [(0x18, 2, 1), (0x1A, 1, 3), (0x20, 8, 77)]
def linked : State := { dport dact with ctxs := [(1, ctx1)], snapshots := [snapA] }

theorem wit_migrate : Executing (exe migC linked) 0x0801 iA migC ∧ (exe migC linked).ctxBad migC migC.ctxId = false ∧ ((exe migC linked).ctx migC.ctxId).state = .opened ∧
    migC.arg 0x1A 1 = 3 ∧ (exe migC linked).portTo 3 = some 2 ∧ (exe migC linked).snapshot migC.ctxId (migC.arg 0x20 8) = some snapA :=
  ⟨exe_of (by decide), by decide +kernel⟩

theorem wit_migrate_outcome : Up (loading (.migrate 3 0 1)) ∧ (loading (.migrate 3 0 1)).foreman.restarting = false ∧
    ((loading (.migrate 3 0 1)).inst iA).working = some ⟨installCmd, .migrate 3 0 1, 0⟩ := by unfold Up; decide +kernel

def repA : Replica := ⟨3, 9, 1, 0, 0, 1, ⟨1, Screen.empty⟩, Config.defaultSettings, [], [], 0, [], []⟩
def takeC : ExecCmd := cmd 0x0802 [(2, 1, 1), (0x0C, 4, 4), (0x18, 1, 3), (0x1A, 2, 9), (0x1C, 2, 1), (0x20, 4, 2), (0x24, 4, 1), (0x38, 4, 16)] (mk 4 [])
def orphaned : State := { served with dead := [3], replicas := [repA] }

theorem wit_takeover : Executing (exe takeC orphaned) 0x0802 iA takeC ∧ ((exe takeC orphaned).advance 1001).takeCheck takeC = 0 ∧
    (exe takeC orphaned).replicaOf takeC = some repA ∧ (exe takeC orphaned).freeEntry = some 0 := ⟨exe_of (by decide), by decide +kernel⟩

/-- A takeover with one token: the stream stands at position 2, and the replica is gone. -/
theorem test_takeover : ∃ u, exec (.streamTakeover 1001 iA) (exe takeC orphaned) = .next u ∧ u.replicas = [] ∧
    ((u.stream 0).map fun x => (x.e.commitPtr, x.e.ckptPos)) = some (2, 1) := by refine ⟨_, rfl, ?_⟩; decide +kernel

/-! ### The data plane -/

def chunkP (sid : Nat) : Bytes := mk 64 (hdr 2 1 2 ++ [(0x10, 2, sid), (0x12, 2, 1), (0x14, 1, 1)]) ++ mk 64 []
def candP (sid : Nat) : Bytes := mk 64 (hdr 5 3 2 ++ [(0x10, 2, sid), (0x12, 1, 1)]) ++ mk 64 []
def tapP (sid : Nat) : Bytes := mk 64 (hdr 4 2 2 ++ [(0x10, 2, sid), (0x12, 1, 1)]) ++ mk 64 []
def alien : State := one { stm with e := { ent with domain := 3 } }

theorem wit_packets : Arrives base 0 2 (chunkP 0) ∧ Arrives base 0 5 (candP 0) ∧ Arrives base 0 4 (tapP 0) ∧ Arrives alien 0 2 (chunkP 0) ∧
    Arrives alien 0 5 (candP 0) ∧ Arrives alien 0 4 (tapP 0) := by unfold Arrives Ready Up; decide +kernel

theorem wit_packet_streams : (ChunkPkt.of (chunkP 0)).stream = 0 ∧ (CandPkt.of (candP 0)).stream = 0 ∧ (TapPkt.of (tapP 0)).stream = 0 ∧
    base.stream 0 = none ∧ alien.stream 0 = some { stm with e := { ent with domain := 3 } } ∧ ent.state ≠ .free ∧ 3 ≠ alien.portDomain 0 := by decide +kernel

/-! CHUNK, CANDIDATES and TAP of a stream's own domain: accepted, and refused with the code of the check that fails. -/

def chunkS (seq : Nat) : Bytes := mk 64 (hdr 2 1 2 ++ [(0x12, 2, 1), (0x18, 4, seq)]) ++ mk 64 []
def candG (first : Nat) : Bytes := mk 64 (hdr 5 3 3 ++ [(0x12, 1, 1), (0x14, 4, first)]) ++ mk 64 [(6, 1, 1)] ++ mk 64 [(4, 2, 0x3C00)]
def tapG (len : Nat) : Bytes := mk 64 (hdr 4 2 3 ++ [(0x12, 1, 1), (0x14, 4, 16), (0x18, 8, len)]) ++ mk 128 []
def fed : State := { one stm with vocabs := [(0, voc)] }
def gstm : Machine.Stream := { stm with e := { ent with state := .generating } }
def gen1 : State := { one gstm with vocabs := [(0, voc)] }

def fedItem (seq : Nat) : Item :=
  Item.new 0 0 0 1001 (setting ctx1.settings Setting.dC) 0 ctx1.settings ent (.chunk (ChunkBody.new (ChunkPkt.of (chunkS seq)) 0 stm.screen))

theorem wit_chunk_own : Arrives fed 0 2 (chunkS 0) ∧ (ChunkPkt.of (chunkS 1)).stream = 0 ∧ fed.stream 0 = some stm ∧ stm.e.state ≠ .free ∧
    stm.e.domain = fed.portDomain 0 ∧ (((taken fed 1001 0 (chunkS 0)).ctx stm.e.ctx).settings = ctx1.settings) ∧
    (taken fed 1001 0 (chunkS 0)).chunkCheck stm (ChunkPkt.of (chunkS 0)) fed.nextItem (fedItem 0) (ChunkBody.new (ChunkPkt.of (chunkS 0)) 0 stm.screen) = 0 ∧
    stm.badRestore = false ∧ ({ stm with badRestore := true } : Machine.Stream).badRestore = true ∧
    Arrives fed 0 2 (chunkS 1) ∧ (taken fed 1001 0 (chunkS 1)).chunkCheck stm (ChunkPkt.of (chunkS 1)) fed.nextItem (fedItem 1)
      (ChunkBody.new (ChunkPkt.of (chunkS 1)) 0 stm.screen) = E.sequence ∧
    (stm.e.state.live && (taken fed 1001 0 (chunkS 1)).expired stm.e) = false := by unfold Arrives Ready Up; decide +kernel

theorem wit_cand_own : Arrives gen1 0 5 (candG 0) ∧ (CandPkt.of (candG 1)).stream = 0 ∧ gen1.stream 0 = some gstm ∧ gstm.e.domain = gen1.portDomain 0 ∧
    (taken gen1 1001 0 (candG 0)).candCheck gstm (CandPkt.of (candG 0)) = 0 ∧ Arrives gen1 0 5 (candG 1) ∧
    (taken gen1 1001 0 (candG 1)).candCheck gstm (CandPkt.of (candG 1)) = E.sequence ∧ (taken gen1 1001 0 (candG 1)).expired gstm.e = false := by
  unfold Arrives Ready Up; decide +kernel

/-- A TAP at the end of its window, 16 positions past COMMIT_PTR. -/
theorem wit_tap_own : Arrives fed 0 4 (tapG 64) ∧ (TapPkt.of (tapG 64)).stream = 0 ∧ (TapPkt.of (tapG 64)).bad = false ∧ (TapPkt.of (tapG 63)).bad = true ∧
    (TapPkt.of (tapG 64)).slots ≠ [] ∧ tapLengths ((fed.ctx stm.e.ctx).probeModels stm.e.imagePins) = [] ∧ stm.e.commitPtr ≤ (TapPkt.of (tapG 64)).pos + 1 ∧
    (TapPkt.of (tapG 64)).pos = stm.e.commitPtr + 16 ∧ stm.probeWait = [] ∧ stm.taps = [] ∧ fed.homeFlue stm = none := by
  unfold Arrives Ready Up; decide +kernel

/-- What an accepted TAP leaves: one vector of 64 elements, staged at its position. -/
theorem test_tap_staged : ∃ u, exec (.tap 1001 0 (tapG 64)) fed = .next u ∧
    (u.stream 0).map (fun x => x.taps.map fun v => (v.pos, v.slot, v.valid.length)) = some [(16, 0, 64)] := ⟨_, rfl, by decide +kernel⟩

/-- A chunk of one token and a CANDIDATES item of one position, stamped at count 900. -/
def cbody : ChunkBody := { ChunkBody.new { ChunkPkt.of (chunkP 0) with toks := [0] } 0 Screen.empty with stop := 1 }
def gbody : CandBody := { CandBody.new (CandPkt.of (candP 0)) with begun := true, positions := [⟨none, 0, [(0, 0x3C00)]⟩] }
def item (b : ItemBody) (delay : Nat) : Item := Item.new 0 0 0 900 delay 7 Config.defaultSettings ent b
def withItem (it : Item) : State := { one stm with items := [(5, it)], nextItem := 6, vocabs := [(0, voc)] }

theorem wit_accept : (one stm).stream 0 = some stm ∧ cbody.pfx = false ∧ (item (.chunk cbody) 15000).body = .chunk cbody ∧ stm.e.state = .intake ∧
    stm.e.prefixMode = 0 := by decide +kernel

/-- The second chunk starts where the first one ended. -/
theorem test_accept : (((one { stm with intakePos := 4 }).acceptChunk 0 (item (.chunk cbody) 15000) cbody).stream 0).map (fun x => (x.intakePos, x.nextSeq)) =
    some (5, 1) := by
  decide +kernel

def refusedItem (b : ItemBody) (d : Nat) : Item := { item b d with refused := some E.state, owned := false }

/-- One tick before the release time, and at it. -/
theorem wit_release : Ready (withItem (item (.chunk cbody) 200)) ∧ (withItem (item (.chunk cbody) 200)).item 5 = some (item (.chunk cbody) 200) ∧
    ((withItem (item (.chunk cbody) 200)).advance 1099).count < (item (.chunk cbody) 200).due ∧ (item (.chunk cbody) 200).isChunk = true ∧
    (item (.cand gbody) 200).isChunk = false ∧ (withItem (refusedItem (.chunk cbody) 200)).item 5 = some (refusedItem (.chunk cbody) 200) ∧
    (withItem (refusedItem (.cand gbody) 200)).item 5 = some (refusedItem (.cand gbody) 200) ∧
    (refusedItem (.cand gbody) 200).due ≤ ((withItem (refusedItem (.chunk cbody) 200)).advance 1100).count ∧
    (refusedItem (.cand gbody) 200).answered = false ∧ (refusedItem (.cand gbody) 200).overdue = false := by unfold Ready Up; decide +kernel

/-- Items that wait for their release time: with a final verdict, without one, and behind another. -/
theorem due_item {it : Item} (h : it.owned = true ∧ it.plain = false ∧ it.answered = false ∧ it.overdue = false ∧ it.waits = none)
    (hb : ∀ b, it.body = .chunk b → b.pfx = false) : DueItem (withItem it) 5 it :=
  ⟨rfl, h.1, h.2.1, h.2.2.1, h.2.2.2.1, h.2.2.2.2, hb⟩

def final0 (b : ItemBody) : Item := { item b 200 with final := some 0 }

theorem wit_due : DueItem (withItem (final0 (.chunk cbody))) 5 (final0 (.chunk cbody)) ∧ DueItem (withItem (final0 (.cand gbody))) 5 (final0 (.cand gbody)) ∧
    DueItem (withItem (item (.chunk cbody) 200)) 5 (item (.chunk cbody) 200) ∧ DueItem (withItem (item (.cand gbody) 200)) 5 (item (.cand gbody) 200) :=
  ⟨due_item (by decide +kernel) fun b h => (by cases h; rfl), due_item (by decide +kernel) fun b h => (by cases h),
    due_item (by decide +kernel) fun b h => (by cases h; rfl), due_item (by decide +kernel) fun b h => (by cases h)⟩

theorem wit_due_time : (final0 (.cand gbody)).due ≤ ((withItem (final0 (.cand gbody))).advance 1100).count ∧ (withItem (final0 (.cand gbody))).atHead 0 5 = true ∧
    (withItem (final0 (.cand gbody))).awaits 1 = false ∧ (item (.cand gbody) 200).final = none ∧
    ((withItem (final0 (.cand gbody))).advance 1100).dueBefore 0 1100 [900, 0] = [] ∧ (withItem (final0 (.cand gbody))).poisoned = [] ∧
    (withItem (final0 (.cand gbody))).seamPoison = [] := by decide +kernel

/-- Chunk 5 waits behind chunk 4; a RELEASE_OUT of stream 0 due in the same quantum with an earlier stamp goes before that of stream 1. -/
def behind (b : ItemBody) : State := { withItem (item b 200) with items := [(4, { item b 200 with stamp := 899, due := 1100 }), (5, item b 200)] }

theorem wit_behind : DueItem (behind (.chunk cbody)) 5 (item (.chunk cbody) 200) ∧ (behind (.chunk cbody)).atHead 0 5 = false ∧
    ((behind (.cand gbody)).advance 1100).dueBefore 0 1100 [900, 0] = [(false, 4)] :=
  ⟨⟨rfl, rfl, by decide +kernel, rfl, rfl, rfl, fun b h => (by cases h; rfl)⟩, by decide +kernel⟩

def rend : RunEnd := ⟨9, true, none, 1100, 900, 7, 1, 0, 0, false, [], []⟩
def ending : State := { one { stm with runEnd := some rend } with items := [(5, { item (.cand gbody) 200 with answered := true })] }

theorem wit_run_end : Ready ending ∧ (ending.stream 0).map (·.runEnd) = some (some rend) ∧ rend.shown = true ∧ rend.carrier = none ∧
    rend.due ≤ (ending.advance 1100).count ∧ ending.awaits 1 = false ∧
    (∀ p ∈ ending.before 0 rend.before, p.2.isChunk = true ∨ p.2.answered = true) ∧ ((one stm).stream 0).map (·.runEnd) = some none := by unfold Ready Up; decide +kernel

theorem screening {it : Item} (h : it.live = true) (hs : (withItem it).suspended it.entry.ctx it.stamp = false) : Screening (withItem it) 5 it :=
  ⟨⟨⟨rfl, rfl⟩, rfl⟩, rfl, h, hs⟩

def lk : Lookup := ⟨3, 0, 0, 63, 12345, 0, 0, true, none⟩
def tasked : Item := item (.chunk { cbody with begun := true, tasks := [4] }) 15000
def looked : Item := item (.cand { gbody with lookups := [lk] }) 200

theorem wit_intake : Screening (withItem tasked) 5 tasked ∧ (withItem tasked).setTurn 0 5 4 = true ∧ tasked.stream = 0 ∧
    Screening (withItem looked) 5 looked ∧ ([lk].find? fun l => l.idx == 3) = some lk ∧ lk.result = none ∧ (withItem looked).poisoned = [] :=
  ⟨screening (by decide +kernel) (by decide +kernel), by decide +kernel, rfl, screening (by decide +kernel) (by decide +kernel), by decide, rfl, rfl⟩

/-- A pattern set with lookahead, and an ensemble for input without features. -/
def pset : PatternSet := ⟨0, 2, false, true, false, 1, 1, 1, 0, 0, 1, 1, 0, 0, 0, false, List.replicate 257 0, [⟨0, [0], 0, false, 0, 0⟩], [], []⟩
def ens : Ensemble := ⟨0, [⟨0x3F800000, 0, 0, 2⟩], [], [], [], 0⟩
def imgs : Ctx := { ctx1 with installs := [⟨0, { inst0 with body := .patterns [pset] }, true⟩, ⟨4, { inst0 with body := .ensembles [ens] }, true⟩] }
def ent2 : Entry := { ent with imagePins := [1, 0, 0, 0, 1, 0] }
def onImgs (it : Item) : State := { withItem it with ctxs := [(1, imgs)], streams := [(0, { stm with e := ent2, scrPins := ent2.imagePins })] }
def deciding : Item := { item (.cand gbody) 200 with entry := ent2 }
def chosen : CandBody := { gbody with decided := 1, finished := true, chosen := [0] }

theorem imgs_screening {it : Item} (h : it.live = true) (hs : (onImgs it).suspended it.entry.ctx it.stamp = false) : Screening (onImgs it) 5 it :=
  ⟨⟨⟨rfl, rfl⟩, rfl⟩, rfl, h, hs⟩

theorem wit_lookahead : Screening (onImgs deciding) 5 deciding ∧ (((onImgs deciding).lookSets deciding).find? fun p => p.index == 0) = some pset ∧
    gbody.positions[0]? = some ⟨none, 0, [(0, 0x3C00)]⟩ ∧ 0 ∈ positionTokens voc.entries.length ⟨none, 0, [(0, 0x3C00)]⟩ ∧ gbody.looks = [] :=
  ⟨imgs_screening (by decide +kernel) (by decide +kernel), by decide +kernel⟩

theorem wit_decide : Screening (withItem (item (.cand gbody) 200)) 5 (item (.cand gbody) 200) ∧ gbody.begun = true ∧ gbody.finished = false ∧
    gbody.positions[gbody.decided]? = some ⟨none, 0, [(0, 0x3C00)]⟩ ∧ (withItem (item (.cand gbody) 200)).stream 0 = some stm ∧
    tget (withItem (item (.cand gbody) 200)).vocabs ent.vocab = some voc ∧
    (withItem (item (.cand gbody) 200)).masksReady (item (.cand gbody) 200) stm voc gbody = true :=
  ⟨screening (by decide +kernel) (by decide +kernel), by decide +kernel⟩

theorem wit_commit : Screening (withItem (item (.cand chosen) 200)) 5 (item (.cand chosen) 200) ∧ chosen.finished = true ∧ chosen.committed = false :=
  ⟨screening (by decide +kernel) (by decide +kernel), by decide +kernel⟩

def evaluating : Item := { item (.chunk { cbody with begun := true }) 15000 with entry := ent2 }

theorem wit_evaluation : Screening (onImgs evaluating) 5 evaluating ∧ (onImgs evaluating).evalTurn 5 evaluating = some 0 ∧
    (((onImgs evaluating).advance 1001).evaluate 5 0).1 = true := ⟨imgs_screening (by decide +kernel) (by decide +kernel), by decide +kernel⟩

def cutting : Item := { item (.cand { chosen with committed := true }) 200 with settings := Config.defaultSettings.set Setting.draftMode 0 }

theorem wit_cutoff : Screening (withItem cutting) 5 cutting ∧ cutting.setting Setting.draftMode = 0 ∧
    cutting.stamp * 14 + cutting.cutoff ≤ 14 * ((withItem cutting).advance 1095).count ∧ ¬ cutting.stamp * 14 + cutting.cutoff ≤ 14 * ((withItem cutting).advance 1094).count :=
  ⟨screening (by decide +kernel) (by decide +kernel), by decide +kernel⟩

def wait0 : ProbeWait := ⟨0, 5, 0, 1001, [], [], [], false⟩
def probing : State := { withItem cutting with streams := [(0, { stm with probeWait := [wait0] })] }

theorem wit_skew : Ready probing ∧ (probing.advance 1001).frozenOut 1 = false ∧
    (probing.streams.find? fun p => p.2.probeWait.any fun q => q.pos == 0 && q.item == 5 && !q.closed && decide (q.deadline ≤ (probing.advance 1001).count)) =
      some (0, { stm with probeWait := [wait0] }) := by unfold Ready Up; decide +kernel

theorem wit_run_end_first : (ending.advance 1100).dueBefore (ending.releasePort { stm with runEnd := some rend }) rend.due [rend.stamp, 0] = [] := by decide +kernel

/-- An intake task whose pattern set lies in stack page 7, and the lookup that an item waits for. -/
def paged : Ctx := { ctx1 with installs := [⟨0, { inst0 with body := .patterns [pset], pages := [7] }, true⟩] }
def pagedItem : Item := { tasked with entry := ent2 }

theorem wit_image_page : Screening { onImgs pagedItem with ctxs := [(1, paged)] } 5 pagedItem ∧
    7 ∈ State.imagePages { onImgs pagedItem with ctxs := [(1, paged)] } 1 pagedItem.pins [0] ∧ ((lookupsOf looked).find? fun l => l.idx == 3) = some lk :=
  ⟨⟨⟨⟨rfl, rfl⟩, rfl⟩, rfl, by decide +kernel, by decide +kernel⟩, by decide +kernel⟩

theorem wit_lookahead_token : gbody.begun = true ∧ gbody.committed = false ∧ gbody.lost = false ∧ 0 ∈ candidateTokens voc.entries.length ⟨none, 0, [(0, 0x3C00)]⟩ ∧
    gbody.cutoffDone = false := by decide +kernel

/-- The first page of the rollback rings in shared Seam. -/
theorem wit_ring_page : 1024 < Config.seamPages 112 ∧ sharedPart 1024 = 1 := by decide +kernel

def resolvingItem : Item := { deciding with resolving := true, band := [(3, 0, none)] }

theorem wit_resolver : Screening (onImgs resolvingItem) 5 resolvingItem ∧ resolvingItem.resolving = true ∧
    ∃ r ∈ resolvingItem.band, r.1 = 3 ∧ r.2.1 = 0 ∧ r.2.2 = none := ⟨imgs_screening (by decide +kernel) (by decide +kernel), rfl, _, .head _, rfl, rfl, rfl⟩

/-- Firing boundaries lie at multiples of 500, gate-pass ticks at multiples of 50. -/
theorem wit_engines : Ready base ∧ (base.advance 1499).count % 500 ≠ 0 ∧ (base.advance 1500).count % 500 = 0 ∧ (base.advance 1049).count % 50 ≠ 0 ∧
    (base.advance 1050).count % 50 = 0 := by unfold Ready Up; decide

def pass : PassPos := ⟨0, 1, 2, 1, 3, [none], 5, 0, none, [], [], some 15, true, 0, none⟩
theorem wit_flue : pass ∈ ({ base with passes := [pass] } : State).passes ∧ pass.flue = some 15 ∧ pass.running = true ∧ pass.ctx = 1 ∧ pass.model = 3 ∧
    ({ base with passes := [pass] } : State).barred (.flue 15) 1 = false := ⟨.head _, by decide⟩

/-! ### What completes for a stream -/

def rev : ReqEval := ⟨0, 0, 900, 0, 1, [], 0, false⟩
def ck (p : Nat) : Checkpoint := ⟨p, Screen.empty⟩
def busy : Stream := { stm with reqRun := some rev, writing := some (ck 4), slotA := some (ck 2), e := { ent with ckptValid := true } }

theorem wit_stream_work : Ready (one busy) ∧ (one busy).stream 0 = some busy ∧ (one busy).suspended 1 1001 = false ∧ busy.reqRun = some rev ∧
    busy.writing = some (ck 4) ∧ busy.capPending = false ∧ (one busy).poisoned = [] ∧ (one busy).streamSetting 0 Setting.reqAtCkpt = 0 ∧
    ({ stm with saving := some snapA, restore := some snapA } : Stream).saving = some snapA := by unfold Ready Up; decide +kernel

/-- The capture goes to slot B while slot A holds the valid checkpoint, and is valid from there. -/
theorem test_checkpoint : ∃ u, exec (.checkpointWriteComplete 1001 0) (one busy) = .next u ∧
    ((u.stream 0).map fun x => (x.slotA, x.slotB, x.validB)) = some (some (ck 2), some (ck 4), true) := by refine ⟨_, rfl, ?_⟩; decide +kernel

def cold : State := { withItem (item (.chunk cbody) 15000) with streams := [(0, { stm with e := { ent with hotSlot := none } })], ctxs := [(1, { ctx1 with resv := { ctx1.resv with hotSlots := 1 } })] }

theorem wit_warm : Ready cold ∧ (∃ x, cold.stream 0 = some x ∧ cold.needsHot 0 x = true ∧ cold.hotUsed x.e.ctx < (cold.ctx x.e.ctx).resv.hotSlots) :=
  ⟨⟨⟨rfl, rfl⟩, rfl⟩, _, rfl, by decide +kernel⟩

/-- Stream 1 waits for the one hot slot, which stream 0 has held without work for the cool time. -/
def swapping : State := { base with
  ctxs := [(1, { ctx1 with settings := ctx1.settings.set Setting.hotPolicy 1, resv := { ctx1.resv with hotSlots := 1 } })]
  streams := [(0, { stm with e := { ent with ckptValid := true } }), (1, { stm with e := { ent with hotSlot := none } })]
  items := [(5, { item (.chunk cbody) 15000 with stream := 1 })] }

theorem wit_cool : Ready swapping ∧ swapping.streamSetting 0 Setting.hotPolicy = 1 ∧ (swapping.advance 100000000).coolChoice 1 = some 0 ∧
    (swapping.stream 0).map (fun x => (x.e.ckptValid, x.e.ckptPos, x.e.commitPtr)) = some (true, 0, 0) := by unfold Ready Up; decide +kernel

def done0 : Stream := { draining with ended := true }

theorem wit_closed : Ready (one done0) ∧ (one done0).stream 0 = some done0 ∧ (one done0).drained 0 done0 = true := by unfold Ready Up; decide +kernel

def faulty : Stream := { stm with e := { ent with state := .faulted, ckptValid := true }, slotA := some (ck 0), fault := E.rewindLost }
def resuming : State := { one faulty with ctxs := [(1, { ctx1 with settings := ctx1.settings.set Setting.resume 1 })] }

theorem wit_restore : Ready resuming ∧ resuming.stream 0 = some faulty ∧ faulty.validCkpt = some (ck 0) ∧ faulty.e.state = .faulted ∧
    resuming.mayResume faulty = true ∧ resuming.quiet 0 = true ∧ resuming.streamBalanced 0 = true ∧ resuming.poisoned = [] := by unfold Ready Up; decide +kernel

theorem wit_absorbed : tget ({ base with xfers := [(3, ⟨.ckptWrite, 1, 0, none, true, 0, []⟩)], zeroing := [0, 1] } : State).xfers 3 =
    some ⟨.ckptWrite, 1, 0, none, true, 0, []⟩ ∧ 1 ∈ ({ base with zeroing := [0, 1] } : State).zeroing := by decide

theorem wit_snap_pages : pagesOf snapP.bytes ≤ snapP.pages.length ∧ 15 ∈ snapP.pages ∧
    ({ one { stm with saving := some snapP, restore := some snapP } with snapshots := [snapP] } : State).stream 0 =
      some { stm with saving := some snapP, restore := some snapP } := by decide +kernel

def zeroing1 : State := { one stm with snapshots := [snapP], zeroing := [9] }

theorem wit_zeroed : Ready zeroing1 ∧ 9 ∈ zeroing1.zeroing ∧ 8 ∉ zeroing1.zeroing ∧ (∀ p ∈ zeroing1.streams, p.2.saving = none) ∧
    (∀ n ∈ zeroing1.snapshots, pagesOf n.bytes ≤ n.pages.length) ∧ zeroing1.outOfUse = [] ∧ zeroing1.degraded = false := by unfold Ready Up; decide +kernel

/-! ### Faults -/

def e1 : WaitEdge := ⟨.hearth 3, .damper 1, 0⟩
def e2 : WaitEdge := ⟨.damper 1, .hearth 3, 0⟩

/-- Edges that have stood for 2,000 µs close a cycle, edges one tick younger do not. -/
theorem wit_canary_cycle : cyclesOf ((base.advance 199999).oldEdges [e1, e2]) = [] ∧ cyclesOf ((base.advance 200000).oldEdges [e1, e2]) = [[e1, e2]] ∧
    base.hangs = [] ∧ (base.suspectsOf [.hearth 3, .damper 1] [(.hearth 3, 1)]).contains 0 = false ∧
    [e1, e2].map (·.src) = [.hearth 3, .damper 1] ∧ ([UnitId.hearth 3, .damper 1]).any isForeman = false ∧ base.suspectsOf [.hearth 3, .damper 1] [(.hearth 3, 1)] = [1] := by
  decide +kernel

def hng : Hang := ⟨[e1, e2], [.hearth 3, .damper 1], [1], some 1, 1000, none, 1000, true, 1, []⟩
def hanging (h : Hang) : State := { open1 with hangs := [(0, h)], ashpit := [⟨1, 0, [(1, 0)], 900, 0, 0, false, false, false⟩] }

theorem wit_hangs : Ready (hanging hng) ∧ tget (hanging hng).hangs 0 = some hng ∧ hng.replaying = some 1 ∧ (hanging hng).replayed 1 hng.since = true ∧
    hng.started + 200 * (hanging hng).threshold + 100000 ≤ ((hanging hng).advance 501000).count ∧
    ((hanging hng).advance 500999).count < hng.started + 200 * (hanging hng).threshold + 100000 ∧
    tget (hanging { hng with resetDone := false }).hangs 0 = some { hng with resetDone := false } ∧
    (∃ r ∈ (hanging hng).ashpit, r.num = 1 ∧ r.complete = false) :=
  ⟨⟨⟨rfl, rfl⟩, rfl⟩, rfl, rfl, by decide +kernel, by decide, by decide, rfl, _, .head _, rfl, rfl⟩

theorem wit_replay_awaits : ((hanging { hng with suspects := [1, 2] }).modHang 0 fun h =>
    { h with suspects := h.suspects.erase 2, replaying := none, outcomes := h.outcomes ++ [(2, 0)] }).awaits 1 = true := by decide

def restartingF : State := { base with foreman := { base.foreman with restarting := true } }

theorem wit_foreman : Ready base ∧ base.foreman.restarting = false ∧ base.foreman.lastRestart = none ∧ Ready restartingF ∧ restartingF.foreman.restarting = true ∧
    restartingF.recovery = none ∧ base.resetDone 1 = true ∧ (∀ k, k < 8 → (base.inst (rrInst k)).working = none) ∧ base.hangs = [] ∧
    (one stm).resetDone 1 = false := by unfold Ready Up; decide +kernel

/-- CONTEXT_RESET of context 1 waits in instance A0 for its streams. -/
def resetting : State := loading (.reset 1 0)

theorem wit_reset_waits : resetting.resetDone 1 = true ∧ resetting.foreman.restarting = false ∧ resetting.hangs = [] ∧
    (resetting.inst (rrInst 0)).working = some ⟨installCmd, .reset 1 0, 0⟩ ∧ (∀ j, j < 8 → j ≠ 0 → (resetting.inst (rrInst j)).working = none) := by decide +kernel

theorem test_reset_completes : ∃ u, exec (.contextResetComplete 1001 1) resetting = .next u ∧ (u.inst iA).cplQ.wr = 1 ∧ (u.inst iA).working = none :=
  ⟨_, rfl, by decide +kernel⟩

def skewed : State := { base with drift := base.drift.set 2 { DriftPort.init with credits := [63, 64, 64] } }

theorem wit_units : Ready base ∧ base.failed.contains (.grate 31) = false ∧ lastFailed (base.failed ++ [.grate 31]) = false ∧
    base.failed.contains .detokeniser = false ∧ base.recovery = none ∧ ({ base with remapping := [.grate 31] } : State).remapping.contains (.grate 31) = true ∧
    Config.stackPages - 1 ∉ base.poisoned := by unfold Ready Up; decide +kernel

/-- A lost Drift credit, 1 ms after the last domain came to its quiesce. -/
theorem wit_ledger : Ready skewed ∧ (skewed.advance 100000).unbalanced = some (1, 6) ∧ (skewed.advance 99999).unbalanced = none ∧
    skewed.ledgerFault = false := by unfold Ready Up; decide +kernel

/-! ### Values where clauses meet -/

theorem wit_tally_waits : (base.setTally 5 ⟨true, 0, 0, 1, false, 0, [⟨true, 0, 0, 2⟩]⟩).tallyOf 0 5 = some ⟨true, 0, 0, 1, false, 0, [⟨true, 0, 0, 2⟩]⟩ ∧
    (base.setTally 5 ⟨true, 0, 0, 1, false, 0, [⟨true, 0, 0, 2⟩]⟩).waiting true 1 = false := by decide +kernel

def fullSpare : State := { dport dck with layout := (dport dck).layout.set 2 (16384 * 13 + 4097) }

/-- One page short of two and the 4,096 spare pages. -/
theorem wit_ckpt_refused : Ready fullSpare ∧ fullSpare.drift[2]? = some dck ∧ fullSpare.spareSpan.2 < fullSpare.spareUsed.length + 2 + 4096 ∧
    fullSpare.replicas = [] := by unfold Ready Up; decide +kernel

/-- Engine 3 is packed, engine 4 of the same row is not; row 7 is off. -/
def firing3 : State := { base with chains := [⟨5, [(0, 0)], [3], 1, false⟩], rows := base.rows.set 7 ⟨.off, false, 0⟩ }

theorem wit_clocks : firing3.rows[3 / 8]? = some ⟨.active, false, 0⟩ ∧ firing3.packed 3 = true ∧ firing3.packed 4 = false ∧
    firing3.rows[63 / 8]? = some ⟨.off, false, 0⟩ := by decide

theorem wit_count_start : base.pins.driftRef = true ∧ State.reset.reports.length ≤ 253 ∧ ({ State.reset.pins with driftRef := false } : Pins).driftRef = false := by decide

theorem wit_root_point : P384.onCurve (keyPoint gateRoot) = true := by decide +kernel

theorem wit_ashpit_meets : (((exe (cmd 0x0602 [(0x18, 4, 1)]) captured).advance 1001).meetAshpit 1).ashpit.find? (fun r => r.num == 1) =
    some ⟨1, 0, [], 500, 0, 5000, false, false, true⟩ := by decide +kernel

theorem wit_load_consistent : (open1.ctx 1).consistent 5 inst0.body = true := by decide +kernel

/-! ### The rows that own device state -/

theorem wit_owner_routing : ∃ u, exec (.routingSet 1001 (msg 0x11 7 (mk 8 [(0, 1, 1)]))) base = .next u ∧ u.routing ≠ base.routing := ⟨_, rfl, by decide +kernel⟩

theorem wit_owner_domains : ∃ u, exec (.domainMapSet 1001 (msg 0x10 7 (mapP 16))) base = .next u ∧ u.domains ≠ base.domains := ⟨_, rfl, by decide +kernel⟩

theorem wit_owner_layout : ∃ u, exec (.layoutSet 1001 iA) (exe (cmd 0x0002 ((List.range 7).map fun k => (0x18 + 4 * k, 4, Config.minRegions.getD k 0))) base) =
    .next u ∧ u.layoutRec ≠ base.layoutRec := ⟨_, rfl, by decide +kernel⟩

theorem wit_owner_memory : ∃ u, exec (.write 1001 0 (readP 1 hostBase 4 (mk 64 [(0, 4, 1)]))) base = .next u ∧ memGet u.mem 0 ≠ memGet base.mem 0 :=
  ⟨_, rfl, by decide +kernel⟩

end Sys2Proof.Tests
end

section
/-! PROOFS. FP_SET_DEFINE (R95, Table 5.1, Table 14.11). -/

namespace Sys2Proof.Safety

open Sys2Proof.Machine

theorem advance_store (t : Nat) (s : State) : (s.advance t).store = s.store := by
  obtain ⟨n, hn, -⟩ := advance_eq t s
  rw [hn]

/-- The fields of Table 5.1 are each in their range. -/
theorem fpSetRange_iff (set n vocab base seed : Nat) :
    fpSetRange set ⟨n, vocab, base, seed⟩ = true ↔
      set ≤ 63 ∧ 8 ≤ n ∧ n ≤ 64 ∧ vocab ≤ 7 ∧ 2 ≤ base ∧ base ≤ 2 ^ 61 - 2 := by
  simp only [fpSetRange, Bool.and_eq_true, decide_eq_true_eq]
  omega

theorem fpSetRange_eq_false_iff (set n vocab base seed : Nat) :
    fpSetRange set ⟨n, vocab, base, seed⟩ = false ↔
      63 < set ∨ n < 8 ∨ 64 < n ∨ 7 < vocab ∨ base < 2 ∨ 2 ^ 61 - 2 < base := by
  rw [← Bool.not_eq_true, fpSetRange_iff]
  omega

theorem holdsSet_iff (st : Store) (set : Nat) :
    st.holdsSet set = true ↔ ∃ b ∈ st.buckets, ∃ x ∈ b.2, x.st ≠ 0 ∧ x.set = set := by
  simp [Store.holdsSet]

theorem holdsSet_eq_false_iff (st : Store) (set : Nat) :
    st.holdsSet set = false ↔ ∀ b ∈ st.buckets, ∀ x ∈ b.2, x.st ≠ 0 → x.set ≠ set := by
  simp [← Bool.not_eq_true, holdsSet_iff]

/-- The opcode's own checks, in the order of Table 14.11. -/
def fpSetCheck (c : ExecCmd) (s : State) : Nat :=
  firstFail [(!fpSetRange (c.arg 0x18 1) (setDefOf c), E.range), (s.store.holdsSet (c.arg 0x18 1), E.busy)]

/-- What the opcode does once its checks have passed. -/
def defineSet (c : ExecCmd) (s : State) : State :=
  { s with store := { s.store with sets := tset s.store.sets (c.arg 0x18 1) (setDefOf c) } }

theorem exec_fpSetDefine (t : Nat) (i : Inst) (s : State) :
    exec (.fpSetDefine t i) s = s.opcode t 0x0400 i fpSetCheck (fun c s => (defineSet c s, [], none)) true true := rfl

theorem fpSetCheck_of_range {c : ExecCmd} {s : State} (hr : fpSetRange (c.arg 0x18 1) (setDefOf c) = false) :
    fpSetCheck c s = E.range := by
  simp [fpSetCheck, firstFail, hr, E.range]

theorem fpSetCheck_of_held {c : ExecCmd} {s : State} (hr : fpSetRange (c.arg 0x18 1) (setDefOf c) = true)
    (hb : s.store.holdsSet (c.arg 0x18 1) = true) : fpSetCheck c s = E.busy := by
  simp [fpSetCheck, firstFail, hr, hb, E.busy]

theorem fpSetCheck_of_free {c : ExecCmd} {s : State} (hr : fpSetRange (c.arg 0x18 1) (setDefOf c) = true)
    (hb : s.store.holdsSet (c.arg 0x18 1) = false) : fpSetCheck c s = E.ok := by
  simp [fpSetCheck, firstFail, hr, hb]

theorem exec_fpSetDefine_fails {s : State} {i : Inst} {c : ExecCmd} (h : Executing s 0x0400 i c) {t e : Nat}
    (he : fpSetCheck c (s.advance t) = e) (h0 : e ≠ 0) :
    exec (.fpSetDefine t i) s = .next ((s.advance t).complete c (Answer.fail e)) := by
  subst he
  exact (exec_fpSetDefine t i s).trans (opcode_fails h t _ _ true true h0)

theorem exec_fpSetDefine_ok {s : State} {i : Inst} {c : ExecCmd} (h : Executing s 0x0400 i c) {t : Nat}
    (he : fpSetCheck c (s.advance t) = E.ok) :
    exec (.fpSetDefine t i) s = .next (State.complete c ⟨E.ok, (s.advance t).count, [], none⟩
      (defineSet c (s.advance t)).bumpConfig) :=
  (exec_fpSetDefine t i s).trans (opcode_of h t _ _ true true he)

/-- Settles O31: the ranges of Table 5.1 are checked before the set's slots (Table 14.11), and each outcome of the two checks
gives one clause. -/
theorem fpSetDefineRow : Obligations.FpSetDefineRow := by
  unfold Obligations.FpSetDefineRow
  rintro t i c s _ _ _ _ _ _ rfl hx rfl rfl rfl rfl rfl
  have hst := advance_store t s
  refine ⟨fun h1 h2 h3 h4 h5 h6 => ?_, fun hbad => ?_⟩
  · have hr := (fpSetRange_iff _ _ _ _ (c.arg 0x28 8)).2 ⟨h1, h2, h3, h4, h5, h6⟩
    refine ⟨fun hfree => ⟨?_, tget_tset_self _ _ _⟩, fun hheld => ?_⟩
    · rw [← hst] at hfree ⊢
      exact exec_fpSetDefine_ok hx (fpSetCheck_of_free hr ((holdsSet_eq_false_iff _ _).2 hfree))
    · rw [← hst] at hheld
      exact exec_fpSetDefine_fails hx (fpSetCheck_of_held hr ((holdsSet_iff _ _).2 hheld)) (by decide)
  · have hr := (fpSetRange_eq_false_iff _ _ _ _ (c.arg 0x28 8)).2 hbad
    exact exec_fpSetDefine_fails hx (fpSetCheck_of_range hr) (by decide)

end Sys2Proof.Safety
end

section
/-! PROOFS. The Lamp: Table 13.3 and Table 13.4 (R307, R308). -/

namespace Sys2Proof.Safety

open Sys2Proof.Machine

/-! ### What a queued event leaves of an instance -/

@[simp] theorem pushEvent_lease (x : InstState) (etype ctx stream stamp : Nat) (p : Bytes) :
    (x.pushEvent etype ctx stream stamp p).lease = x.lease := rfl

@[simp] theorem event_lease (x : InstState) (etype ctx stream stamp now : Nat) (p : Bytes) :
    (x.event etype ctx stream stamp now p).lease = x.lease := by
  unfold InstState.event
  split
  · by_cases hd : x.dropped = 0 <;> simp [hd]
  · rfl

@[simp] theorem eventAll_insts_length (etype stamp : Nat) (p : Bytes) (s : State) :
    (s.eventAll etype stamp p).insts.length = s.insts.length := by
  simp [State.eventAll]

/-- An event reaches an instance or passes it by; its LAMP_LEASE stands either way. -/
@[simp] theorem eventAll_inst_lease (etype stamp : Nat) (p : Bytes) (s : State) (i : Inst) :
    ((s.eventAll etype stamp p).inst i).lease = (s.inst i).lease := by
  simp only [State.inst, State.eventAll, List.getD_eq_getElem?_getD, List.getElem?_mapIdx]
  cases s.insts[i.idx]? with
  | none => rfl
  | some x => simp only [Option.map_some, Option.getD_some, apply_ite InstState.lease, event_lease, ite_self]

/-! ### The Lamp as an operation finds it -/

theorem lampDue_of_run_out {s : State} (he : s.lampExpired = true) (hp : s.lamp.expiryPosted = false) :
    s.lampDue = ({ s with lamp := { s.lamp with expiryPosted := true } }).lampEvent LampKind.expired s.lamp s.lamp.expiry := by
  simp [State.lampDue, he, hp]

/-- The expiry that is due marks its event as queued and touches the event queues: no other field of the Lamp and no lease. -/
theorem lampDue_keeps (s : State) : (∃ b, s.lampDue.lamp = { s.lamp with expiryPosted := b }) ∧
    s.lampDue.insts.length = s.insts.length ∧ ∀ i, (s.lampDue.inst i).lease = (s.inst i).lease := by
  unfold State.lampDue
  split
  · exact ⟨⟨true, rfl⟩, eventAll_insts_length .., eventAll_inst_lease _ _ _ _⟩
  · exact ⟨⟨s.lamp.expiryPosted, rfl⟩, rfl, fun _ => rfl⟩

/-- A window access changes neither the Lamp nor the instances before its operation. -/
theorem windowed_lampDue_keeps (s : State) (t : Nat) : (∃ b, (windowed s t).lampDue.lamp = { s.lamp with expiryPosted := b }) ∧
    (windowed s t).lampDue.insts.length = s.insts.length ∧ ∀ i, ((windowed s t).lampDue.inst i).lease = (s.inst i).lease := by
  obtain ⟨n, p, hw, -⟩ := windowed_eq s t
  rw [hw]
  exact lampDue_keeps _

/-! ### The conditions of Table 13.4 -/

theorem lampOwner_iff (s : State) (i : Inst) (o : Nat) :
    s.lampOwner i o = true ↔ s.lamp.held = true ∧ s.lamp.port = i.port ∧ s.lamp.domain = i.domain ∧ s.lamp.owner = o := by
  simp [State.lampOwner, and_assoc]

theorem lampExpired_iff (s : State) : s.lampExpired = true ↔ s.lamp.held = true ∧ s.lamp.expiry ≤ s.count := by
  simp [State.lampExpired]

theorem leaseBad_iff (s : State) (i : Inst) : s.leaseBad i = true ↔ (s.inst i).lease < 1 ∨ 10000 < (s.inst i).lease := by
  simp [State.leaseBad]

theorem leaseBad_eq_false_iff (s : State) (i : Inst) : s.leaseBad i = false ↔ 1 ≤ (s.inst i).lease ∧ (s.inst i).lease ≤ 10000 := by
  rw [← Bool.not_eq_true, leaseBad_iff]
  omega

theorem held_of_lampOwner {s : State} {i : Inst} {o : Nat} (h : s.lampOwner i o = true) : s.lamp.held = true :=
  ((lampOwner_iff s i o).1 h).1

theorem held_of_lampExpired {s : State} (h : s.lampExpired = true) : s.lamp.held = true := ((lampExpired_iff s).1 h).1

/-! ### The rows of Table 13.4 -/

section Rows
variable {s : State} {i : Inst} {o : Nat}

theorem lampAcquire_of_leaseBad (hl : s.leaseBad i = true) : s.lampAcquire i o = s.lampResult i 0 E.range := by
  simp [State.lampAcquire, hl]

theorem lampAcquire_of_free (hl : s.leaseBad i = false) (hh : s.lamp.held = false) :
    s.lampAcquire i o = (s.lampGrant i o LampKind.granted 0).lampResult i 0 E.ok := by
  simp [State.lampAcquire, hl, hh]

theorem lampAcquire_of_owner (hl : s.leaseBad i = false) (ho : s.lampOwner i o = true) :
    s.lampAcquire i o = (s.lampGrant i o LampKind.renewed 0).lampResult i 0 E.ok := by
  simp [State.lampAcquire, hl, held_of_lampOwner ho, ho]

theorem lampAcquire_of_other_running (hl : s.leaseBad i = false) (hh : s.lamp.held = true) (ho : ¬ s.lampOwner i o = true)
    (he : ¬ s.lampExpired = true) : s.lampAcquire i o = s.lampResult i 0 E.busy := by
  simp [State.lampAcquire, hl, hh, ho, he]

theorem lampAcquire_of_other_expired (hl : s.leaseBad i = false) (ho : ¬ s.lampOwner i o = true) (he : s.lampExpired = true) :
    s.lampAcquire i o = s.lampResult i 0 E.lamp := by
  simp [State.lampAcquire, hl, held_of_lampExpired he, ho, he]

theorem lampBreak_of_leaseBad (hl : s.leaseBad i = true) : s.lampBreak i o = s.lampResult i 2 E.range := by
  simp [State.lampBreak, hl]

theorem lampBreak_of_free (hl : s.leaseBad i = false) (hh : s.lamp.held = false) : s.lampBreak i o = s.lampResult i 2 E.state := by
  simp [State.lampBreak, hl, hh]

theorem lampBreak_of_running (hl : s.leaseBad i = false) (hh : s.lamp.held = true) (he : ¬ s.lampExpired = true) :
    s.lampBreak i o = s.lampResult i 2 E.busy := by
  simp [State.lampBreak, hl, hh, he]

theorem lampBreak_of_same_port (hl : s.leaseBad i = false) (he : s.lampExpired = true) (hp : s.lamp.port = i.port) :
    s.lampBreak i o = s.lampResult i 2 E.lamp := by
  simp [State.lampBreak, hl, held_of_lampExpired he, he, hp]

theorem lampBreak_of_other_port (hl : s.leaseBad i = false) (he : s.lampExpired = true) (hp : s.lamp.port ≠ i.port) :
    s.lampBreak i o = (s.lampGrant i o LampKind.broken 1).lampResult i 2 E.ok := by
  simp [State.lampBreak, hl, held_of_lampExpired he, he, hp]

theorem lampRelease_of_free (hh : s.lamp.held = false) : s.lampRelease i o = s.lampResult i 1 E.state := by
  simp [State.lampRelease, hh]

theorem lampRelease_of_allowed (ha : s.lampOwner i o = true ∨ s.lampExpired = true ∧ s.lamp.port = i.port) :
    s.lampRelease i o = (({ s with lamp := { s.lamp with held := false } }).lampEvent LampKind.released s.lamp s.count).lampResult i 1 E.ok := by
  have hh : s.lamp.held = true := ha.elim held_of_lampOwner fun h => held_of_lampExpired h.1
  simp [State.lampRelease, hh, ha]

theorem lampRelease_of_refused (hh : s.lamp.held = true) (ho : ¬ s.lampOwner i o = true)
    (he : ¬ (s.lampExpired = true ∧ s.lamp.port = i.port)) : s.lampRelease i o = s.lampResult i 1 E.lamp := by
  simp [State.lampRelease, hh, ho, he]

end Rows

/-- LAMP_RESULT reads the outcome that the operation recorded (R307). -/
theorem lampResult_inst {s : State} {i : Inst} (h : i.idx < s.insts.length) (op code : Nat) :
    (s.lampResult i op code).inst i = { s.inst i with lampStatus := code, lampOp := op } :=
  inst_modInst h _

theorem inst_idx_lt {ctl : CtlPort} {dom : Nat} (h : dom < 4) : (Inst.mk ctl dom).idx < 8 := by
  cases ctl <;> simp only [Inst.idx] <;> omega

/-! ### The operations over a window -/

section Operations
variable {s : State} {port : Nat} {ctl : CtlPort} {dom : Nat} (h : Window s port ctl dom) (t o : Nat)
include h

theorem exec_acquire : exec (.acquire t port ctl o) s = .next ((windowed s t).lampDue.lampAcquire ⟨ctl, dom⟩ (o % 8)) :=
  congrArg Host.Outcome.next (window_of h t fun i s => s.lampDue.lampAcquire i (o % 8))

theorem exec_release : exec (.release t port ctl o) s = .next ((windowed s t).lampDue.lampRelease ⟨ctl, dom⟩ (o % 8)) :=
  congrArg Host.Outcome.next (window_of h t fun i s => s.lampDue.lampRelease i (o % 8))

theorem exec_breakLamp : exec (.breakLamp t port ctl o) s = .next ((windowed s t).lampDue.lampBreak ⟨ctl, dom⟩ (o % 8)) :=
  congrArg Host.Outcome.next (window_of h t fun i s => s.lampDue.lampBreak i (o % 8))

end Operations

theorem exec_lampExpiry {s : State} (h : Up s) (t : Nat) : exec (.lampExpiry t) s = .next (s.advance t).lampDue :=
  congrArg Host.Outcome.next (live_of_up h t State.lampDue)

theorem advance_lamp (t : Nat) (s : State) : (s.advance t).lamp = s.lamp := by
  obtain ⟨n, hn, -⟩ := advance_eq t s
  rw [hn]

/-! ### LAMP_STATUS -/

theorem b2n_lt_two (a : Bool) : b2n a < 2 := by cases a <;> decide

theorem b2n_beq_one (a : Bool) : (b2n a == 1) = a := by cases a <;> rfl

theorem bits_of_mod_four {v : Nat} {a b : Bool} (h : v % 4 = b2n a + 2 * b2n b) : bit v 0 = a ∧ bit v 1 = b := by
  have ha := b2n_lt_two a
  have h0 : v / 2 ^ 0 % 2 = b2n a := by omega
  have h1 : v / 2 ^ 1 % 2 = b2n b := by omega
  rw [bit, bit, h0, h1]
  exact ⟨b2n_beq_one a, b2n_beq_one b⟩

/-- HELD and EXPIRED are the two low bits of LAMP_STATUS; every field above them starts at bit 2 or later. -/
theorem lampStatusWord_mod_four (s : State) (i : Inst) : s.lampStatusWord i % 4 = b2n s.lamp.held + 2 * b2n s.lampExpired := by
  have hh := b2n_lt_two s.lamp.held
  have he := b2n_lt_two s.lampExpired
  unfold State.lampStatusWord
  split <;> omega

theorem lampStatus_read (i : Inst) (s : State) :
    bit (s.plainRead i 0x108) 0 = s.lamp.held ∧ bit (s.plainRead i 0x108) 1 = s.lampExpired :=
  bits_of_mod_four (lampStatusWord_mod_four s i)

/-- Settles O36: an operation acts on the Lamp after an expiry that is due, which leaves holder, EXPIRY and every lease as they
were, so the conditions of Table 13.4 on the state before it are those that the operation tests. -/
theorem lampRows : Obligations.LampRows := by
  unfold Obligations.LampRows
  refine ⟨?_, ?_, fun _ _ _ _ => rfl, fun i s => ?_⟩
  · rintro t port ctl dom o s w i own expired lease grant hwin hw rfl rfl hown hexp hgrant
    obtain ⟨⟨b, hlamp⟩, hlen, hlease⟩ := windowed_lampDue_keeps s t
    rw [← hw] at hlamp hlen hlease
    rw [exec_acquire hwin, exec_release hwin, exec_breakLamp hwin, ← hw]
    have hheld : s.lamp.held = w.lamp.held := by rw [hlamp]
    have hport : s.lamp.port = w.lamp.port := by rw [hlamp]
    have howner : own = (w.lampOwner ⟨ctl, dom⟩ (o % 8) = true) := by rw [hown, propext (lampOwner_iff ..), hlamp]
    have hexpired : expired = (w.lampExpired = true) := by rw [hexp, propext (lampExpired_iff ..), hlamp]
    have hgranted : ∀ kind br, grant kind br = w.lampGrant ⟨ctl, dom⟩ (o % 8) kind br := fun kind br => by
      rw [hgrant kind br _ rfl, State.lampGrant, hlease, hlamp]
    rw [howner, hexpired, hheld, hport, ← hlease]
    simp only [hgranted]
    refine ⟨fun hl => ?_, fun hl hu => ?_, fun ha => ?_, fun hh => ?_, fun hh ho he => ?_, fun h8 hd op code => ?_⟩
    · have hbad := (leaseBad_iff w ⟨ctl, dom⟩).2 hl
      rw [lampAcquire_of_leaseBad hbad, lampBreak_of_leaseBad hbad]
      exact ⟨rfl, rfl⟩
    · have hok := (leaseBad_eq_false_iff w ⟨ctl, dom⟩).2 ⟨hl, hu⟩
      refine ⟨fun hh => ?_, fun ho => ?_, fun hh ho he => ?_, fun _ ho he => ?_, fun he hp => ?_, fun hh he => ?_,
        fun he hp => ?_, fun hh => ?_⟩
      · rw [lampAcquire_of_free hok hh]
      · rw [lampAcquire_of_owner hok ho]
      · rw [lampAcquire_of_other_running hok hh ho he]
      · rw [lampAcquire_of_other_expired hok ho he]
      · rw [lampBreak_of_other_port hok he hp]
      · rw [lampBreak_of_running hok hh he]
      · rw [lampBreak_of_same_port hok he hp]
      · rw [lampBreak_of_free hok hh]
    · rw [lampRelease_of_allowed ha]
    · rw [lampRelease_of_free hh]
    · rw [lampRelease_of_refused hh ho he]
    · have hi : (Inst.mk ctl dom).idx < w.insts.length := by rw [hlen, h8]; exact inst_idx_lt hd
      rw [lampResult_inst hi]
      exact ⟨rfl, rfl⟩
  · rintro t s w hup rfl hheld hcount hposted
    have hlamp := advance_lamp t s
    have hrun : (s.advance t).lampExpired = true := by rw [lampExpired_iff, hlamp]; exact ⟨hheld, hcount⟩
    rw [exec_lampExpiry hup, lampDue_of_run_out hrun (by rw [hlamp, hposted]), hlamp]
  · obtain ⟨h0, h1⟩ := lampStatus_read i s
    rw [h0, h1]
    exact ⟨rfl, lampExpired_iff s⟩

end Sys2Proof.Safety
end

section
/-! PROOFS. PREFIX_DROP (R332): the snapshot leaves the store; restores and saves in progress stand (R45, R46, R56). -/

namespace Sys2Proof.Safety

open Sys2Proof.Machine

/-! ### What the arrival count leaves -/

theorem advance_poisoned (t : Nat) (s : State) : (s.advance t).poisoned = s.poisoned := by
  obtain ⟨a, ha, -⟩ := advance_eq t s
  rw [ha]

theorem advance_stream (t : Nat) (s : State) (sid : Nat) : (s.advance t).stream sid = s.stream sid := by
  obtain ⟨a, ha, -⟩ := advance_eq t s
  rw [ha]
  rfl

theorem advance_snapshot (t : Nat) (s : State) (c k : Nat) : (s.advance t).snapshot c k = s.snapshot c k := by
  obtain ⟨a, ha, -⟩ := advance_eq t s
  rw [ha]
  rfl

/-! ### A snapshot under its key (R44) -/

theorem snapKey_eq_iff (m : Snapshot) (c gen k : Nat) : snapKey m = (c, gen, k) ↔ m.ctx = c ∧ m.gen = gen ∧ m.handle = k := by
  simp [snapKey]

theorem snapKey_of_snapshot {s : State} {c k : Nat} {n : Snapshot} (h : s.snapshot c k = some n) :
    snapKey n = (c, (s.ctx c).gen, k) := by
  rw [snapKey_eq_iff]
  simpa [and_assoc] using List.find?_some h

theorem snapshot_eq_none_iff (s : State) (c k : Nat) :
    s.snapshot c k = none ↔ ∀ m ∈ s.snapshots, snapKey m ≠ (c, (s.ctx c).gen, k) := by
  simp [State.snapshot, snapKey]

/-! ### Deletion (R258) -/

/-- Without a poisoned page every page that is released goes to zeroing; none is retired. -/
theorem releasePages_of_no_poison {s : State} (h : s.poisoned = []) (ps : List Nat) :
    s.releasePages ps = { s with zeroing := s.zeroing ++ ps.filter fun p => !s.zeroing.contains p } := by
  have hretire : ps.filter s.poisoned.contains = [] := by simp [h]
  have hzero : (fun p => !s.poisoned.contains p && !s.zeroing.contains p) = fun p => !s.zeroing.contains p := by simp [h]
  rw [State.releasePages, hretire, hzero, List.foldl_nil]

theorem deleteSnapshot_of_no_poison {s : State} (h : s.poisoned = []) (n : Snapshot) :
    s.deleteSnapshot n = { s with
      snapshots := s.snapshots.filter fun m => snapKey m != snapKey n
      zeroing := s.zeroing ++ n.pages.filter fun p => !s.zeroing.contains p } :=
  releasePages_of_no_poison (s := { s with snapshots := s.snapshots.filter fun m => snapKey m != snapKey n }) h n.pages

theorem deleteSnapshot_eq (n : Snapshot) (s : State) :
    PagesOnly { s with snapshots := s.snapshots.filter fun m => snapKey m != snapKey n } (s.deleteSnapshot n) :=
  pagesOnly_release n.pages _

@[simp] theorem deleteSnapshot_snapshots (n : Snapshot) (s : State) :
    (s.deleteSnapshot n).snapshots = s.snapshots.filter fun m => snapKey m != snapKey n := by
  rw [deleteSnapshot_eq n s]

@[simp] theorem deleteSnapshot_ctx (n : Snapshot) (s : State) (c : Nat) : (s.deleteSnapshot n).ctx c = s.ctx c := by
  rw [deleteSnapshot_eq n s]
  rfl

/-- Nothing is left under the key of a deleted snapshot. -/
theorem snapshot_deleteSnapshot {s : State} {c k : Nat} {n : Snapshot} (h : s.snapshot c k = some n) :
    (s.deleteSnapshot n).snapshot c k = none := by
  rw [snapshot_eq_none_iff, deleteSnapshot_ctx, ← snapKey_of_snapshot h]
  simp

/-! ### What a later restore finds, and what one in progress and a save do -/

theorem admitStream_answer {s : State} {r : AdmitReq} {sid : Nat} (hm : r.mode = 2) (hf : s.freeEntry = some sid) :
    (s.admitStream r).2 =
      (sid, if (s.usable r.ctx r.handle r.vocab (s.ctx r.ctx).pinsNow (s.adapterPinsNow r.ctx (s.ctx r.ctx).pinsNow)).isNone
        then hsBad else hsOk) := by
  unfold State.admitStream
  rw [hf]
  simp only [hm, beq_self_eq_true, Bool.true_and, if_true, OfNat.ofNat_ne_zero, if_false]

/-- An admission that asks for a restore where no snapshot is stored gets its stream with HANDLE_STATUS refused (R46). -/
theorem admitStream_of_no_snapshot {s : State} {r : AdmitReq} {sid : Nat} (hm : r.mode = 2) (hf : s.freeEntry = some sid)
    (hn : s.snapshot r.ctx r.handle = none) : (s.admitStream r).2 = (sid, hsBad) := by
  simp [admitStream_answer hm hf, State.usable, hn]

theorem access_clean {s : State} (h : s.poisoned = []) (own : List Nat) (bad good : State → State) :
    s.access own .clean bad good = good s := by
  simp [State.access, State.meet, eccFatal, eccInPart, eccInImage, h]

theorem exec_snapshotRestoreComplete_clean {s : State} {sid : Nat} {m : Snapshot} (h : Ready s) (hp : s.poisoned = [])
    (hm : (s.stream sid).bind (·.restore) = some m) (t : Nat) :
    exec (.snapshotRestoreComplete t sid .clean) s = .next (State.progress sid ((s.advance t).prefixRestored sid m)) := by
  change execSnapshotRestoreComplete t sid .clean s = _
  rw [← advance_poisoned t] at hp
  rw [execSnapshotRestoreComplete, done, run_of_ready h, advance_stream, hm]
  simp only [access_clean hp]

theorem exec_snapshotWriteComplete_ok {s : State} {sid : Nat} {m : Snapshot} (h : Ready s)
    (hm : (s.stream sid).bind (·.saving) = some m) (hl : pagesOf m.bytes ≤ m.pages.length) (t : Nat) :
    exec (.snapshotWriteComplete t sid false) s =
      .next (State.progress sid (((s.advance t).endSave sid E.ok).putSnapshot m)) := by
  change execSnapshotWriteComplete t sid false s = _
  rw [execSnapshotWriteComplete, done, run_of_ready h, advance_stream, hm]
  simp [Nat.not_lt.mpr hl]

theorem mem_putSnapshot (m : Snapshot) (s : State) : m ∈ (s.putSnapshot m).snapshots := by
  unfold State.putSnapshot
  split <;> simp

/-! ### The opcode -/

/-- The opcode's own checks (Table 14.7). -/
def dropCheck (c : ExecCmd) (s : State) : Nat :=
  firstFail [(s.ctxBad c c.ctxId || !((s.ctx c.ctxId).state == .opened || (s.ctx c.ctxId).state == .closing), E.context),
    ((s.snapshot c.ctxId (c.arg 0x20 8)).isNone, E.handle)]

/-- What the opcode does once its checks have passed. -/
def dropEffect (c : ExecCmd) (s : State) : State :=
  match s.snapshot c.ctxId (c.arg 0x20 8) with
  | some n => s.deleteSnapshot n
  | none => s

theorem exec_prefixDrop (t : Nat) (i : Inst) (s : State) :
    exec (.prefixDrop t i) s = s.opcode t 0x0206 i dropCheck (fun c s => (dropEffect c s, [], none)) false true := rfl

theorem dropCheck_advance (c : ExecCmd) (t : Nat) (s : State) : dropCheck c (s.advance t) = dropCheck c s := by
  obtain ⟨a, ha, -⟩ := advance_eq t s
  rw [ha]
  rfl

theorem dropCheck_of_stored {c : ExecCmd} {s : State} {n : Snapshot} (hb : s.ctxBad c c.ctxId = false)
    (hst : (s.ctx c.ctxId).state = .opened ∨ (s.ctx c.ctxId).state = .closing) (hn : s.snapshot c.ctxId (c.arg 0x20 8) = some n) :
    dropCheck c s = E.ok := by
  rcases hst with hst | hst <;> simp [dropCheck, firstFail, hb, hst, hn]

theorem dropEffect_of_stored {c : ExecCmd} {s : State} {n : Snapshot} (hn : s.snapshot c.ctxId (c.arg 0x20 8) = some n) :
    dropEffect c s = s.deleteSnapshot n := by
  simp [dropEffect, hn]

theorem exec_prefixDrop_ok {s : State} {i : Inst} {c : ExecCmd} {n : Snapshot} (h : Executing s 0x0206 i c)
    (hc : dropCheck c s = E.ok) (hn : s.snapshot c.ctxId (c.arg 0x20 8) = some n) (t : Nat) :
    exec (.prefixDrop t i) s =
      .next (State.complete c ⟨E.ok, (s.advance t).count, [], none⟩ ((s.advance t).deleteSnapshot n)) := by
  rw [exec_prefixDrop, opcode_of h t _ _ false true ((dropCheck_advance c t s).trans hc)]
  rw [← advance_snapshot t] at hn
  simp [dropEffect_of_stored hn]

/-- Settles O27: the command deletes the snapshot that it names, so that nothing is left under its key; a restore and a save hold
their snapshot in the stream, which the deletion leaves. -/
theorem prefixDropRow : Obligations.PrefixDropRow := by
  unfold Obligations.PrefixDropRow
  rintro t i c s _ u n rfl hx hb hst hn hp hu
  obtain ⟨a, ha, -⟩ := advance_eq t s
  have hdel : u = (s.advance t).deleteSnapshot n := by
    rw [hu, ha]
    exact (deleteSnapshot_of_no_poison (s := { s with count := a }) hp n).symm
  have hstreams : u.streams = s.streams := by rw [hu, ha]
  have hpu : u.poisoned = [] := by rw [hu, ha, hp]
  have hnone : u.snapshot c.ctxId (c.arg 0x20 8) = none := by
    rw [hdel]
    exact snapshot_deleteSnapshot ((advance_snapshot ..).trans hn)
  have hsame := same_complete c ⟨E.ok, (s.advance t).count, [], none⟩ u
  refine ⟨?_, hsame.snapshots, hnone, hsame.streams.trans hstreams, ?_, ?_, ?_⟩
  · rw [hdel]
    exact exec_prefixDrop_ok hx (dropCheck_of_stored hb hst hn) hn t
  · rintro r sid hc hk hm hf
    exact admitStream_of_no_snapshot hm hf (by rw [hc, hk, hnone])
  · rintro t2 sid m hr hm
    exact exec_snapshotRestoreComplete_clean hr hpu hm t2
  · rintro t2 sid m hr hm - hl
    exact ⟨exec_snapshotWriteComplete_ok hr hm hl t2, mem_putSnapshot m _⟩

end Sys2Proof.Safety
end

section
/-! PROOFS. The block as a whole: steps, the queue, the device count, the stopped block and who owns what (R370, R371, R408). -/

namespace Sys2Proof.Safety

open Sys2Proof.Machine

/-! ### Steps -/

theorem step_of_front {s : State} {c : Instr} {rest : List Instr} (h : s.pending = c :: rest) :
    step s = exec c { s with pending := rest } := by
  unfold step
  rw [h]

theorem step_of_empty {s : State} (h : s.pending = []) : step s = .next s.tick := by
  unfold step
  split
  · rfl
  · simp_all

/-- Settles O1: the two cases of the queue are the two cases of `step`. -/
theorem stepRunsFrontCommand : Obligations.StepRunsFrontCommand := by
  unfold Obligations.StepRunsFrontCommand
  exact ⟨fun c rest s h => step_of_front h, fun s h => step_of_empty h⟩

/-- No meaning stops the block (log 9). -/
theorem exec_total (c : Instr) (s : State) : ∃ u, exec c s = .next u := by
  cases c <;> exact ⟨_, rfl⟩

/-! ### What a command may change of the device as a whole -/

/-- A core with the fields that a command owns as they are in the state it leaves. -/
def ownPut (c : Instr) (a : Core) (u : State) : Core :=
  match c with
  | .write _ _ _ => { a with lamp := u.lamp, mem := u.mem }
  | .layoutSet _ _ => { a with layoutRec := u.layoutRec }
  | .canarySet _ _ => { a with threshold := u.threshold }
  | .acquire _ _ _ _ => { a with lamp := u.lamp }
  | .release _ _ _ _ => { a with lamp := u.lamp }
  | .breakLamp _ _ _ _ => { a with lamp := u.lamp }
  | .lampExpiry _ => { a with lamp := u.lamp }
  | .registerWrite _ _ _ _ _ => { a with lamp := u.lamp }
  | .recoveryComplete _ _ _ _ => Core.putRecovery { a with boot := u.boot } u
  | .blkPorstRelease _ => { a with porst := u.porst, boot := u.boot }
  | .deviceCountStart _ => { a with count := u.count, running := u.running, boot := u.boot }
  | .pilotRefclkLoss _ => { a with running := u.running, pilotFault := u.pilotFault }
  | .bootComplete _ _ _ _ => { a with boot := u.boot }
  | .bundleWrite _ _ => { a with boot := u.boot }
  | .bundleCommit _ _ => { a with boot := u.boot }
  | .domainMapSet _ _ => { a with domains := u.domains }
  | .routingSet _ _ => { a with routing := u.routing }
  | .policyRootSet _ _ => { a with roots := u.roots }
  | _ => a

/-- A command but BLK_PORST_N ticks the count at most, and beside that changes what it owns. -/
theorem ownPut_of_exec {c : Instr} {s u : State} (hc : ∀ t, c ≠ .blkPorstAssert t) (h : exec c s = .next u) :
    ∃ a, Core.Ticked s.base.core a ∧ u.base.core = ownPut c a u := by
  have hw := whole c s u h
  have put : ∀ g : Core → Core, Changes g s u → (∀ a, u.base.core = g a → g a = ownPut c a u) →
      ∃ a, Core.Ticked s.base.core a ∧ u.base.core = ownPut c a u := by
    rintro g ⟨a, ha, hu⟩ hg
    exact ⟨a, ha, hu.trans (hg a hu)⟩
  have same : u = s → ownPut c s.base.core s = s.base.core → ∃ a, Core.Ticked s.base.core a ∧ u.base.core = ownPut c a u := by
    rintro rfl hs
    exact ⟨_, Core.ticked_refl _, hs.symm⟩
  cases c
  case blkPorstAssert t => exact absurd rfl (hc t)
  case write t port p =>
    rcases hw with hw | ⟨m, hw⟩
    · refine put _ hw fun a ha => ?_
      have hm : u.mem = a.mem := congrArg Core.mem ha
      rw [ownPut, hm]; rfl
    · refine put _ hw fun a ha => ?_
      have hl : u.lamp = a.lamp := congrArg Core.lamp ha
      have hm : u.mem = _ := congrArg Core.mem ha
      rw [ownPut, hl, hm]
  case recoveryComplete => exact put _ hw.1 fun _ _ => rfl
  case blkPorstRelease =>
    refine ⟨_, Core.ticked_refl _, ?_⟩
    rcases hw with hw | ⟨-, hw⟩
    · have hp : u.porst = s.porst := congrArg Core.porst hw
      have hb : u.boot = s.boot := congrArg Core.boot hw
      rw [hw, ownPut, hp, hb]; rfl
    · have hp : u.porst = false := congrArg Core.porst hw
      rw [hw, ownPut, hp]
  case deviceCountStart =>
    rcases hw with hw | ⟨-, -, hw⟩
    · exact same hw rfl
    · refine ⟨_, Core.ticked_refl _, ?_⟩
      have hn : u.count = 0 := congrArg Core.count hw
      have hr : u.running = true := congrArg Core.running hw
      rw [hw, ownPut, hn, hr]
  case pilotRefclkLoss t =>
    rcases hw with hw | hw
    · exact same hw rfl
    · refine ⟨_, State.advance_ticked t s, ?_⟩
      have hr : u.running = false := congrArg Core.running hw
      have hf : u.pilotFault = true := congrArg Core.pilotFault hw
      rw [hw, ownPut, hr, hf]
  all_goals exact put _ hw fun _ _ => rfl

section Fields
variable (c : Instr) (a : Core) (u : State)

@[simp] theorem ownPut_pending : (ownPut c a u).pending = a.pending := by unfold ownPut; split <;> rfl
@[simp] theorem ownPut_fuses : (ownPut c a u).fuses = a.fuses := by unfold ownPut; split <;> rfl

theorem ownPut_count (hc : ∀ t, c ≠ .deviceCountStart t) : (ownPut c a u).count = a.count := by
  unfold ownPut
  split <;> first | rfl | exact absurd rfl (hc _)

theorem owner_of_roots (h : (ownPut c a u).roots ≠ a.roots) : ∃ t m, c = .policyRootSet t m := by
  revert h; unfold ownPut; split <;> simp [Core.putRecovery]
theorem owner_of_routing (h : (ownPut c a u).routing ≠ a.routing) : ∃ t m, c = .routingSet t m := by
  revert h; unfold ownPut; split <;> simp [Core.putRecovery]
theorem owner_of_domains (h : (ownPut c a u).domains ≠ a.domains) : ∃ t m, c = .domainMapSet t m := by
  revert h; unfold ownPut; split <;> simp [Core.putRecovery]
theorem owner_of_layoutRec (h : (ownPut c a u).layoutRec ≠ a.layoutRec) : ∃ t i, c = .layoutSet t i := by
  revert h; unfold ownPut; split <;> simp [Core.putRecovery]
theorem owner_of_threshold (h : (ownPut c a u).threshold ≠ a.threshold) : ∃ t i, c = .canarySet t i := by
  revert h; unfold ownPut; split <;> simp [Core.putRecovery]
theorem owner_of_layout (h : (ownPut c a u).layout ≠ a.layout) : ∃ t k f b, c = .recoveryComplete t k f b := by
  revert h; unfold ownPut; split <;> simp [Core.putRecovery]
theorem owner_of_mem (h : (ownPut c a u).mem ≠ a.mem) : (∃ t p k, c = .write t p k) ∨ ∃ t k f b, c = .recoveryComplete t k f b := by
  revert h; unfold ownPut; split <;> simp [Core.putRecovery]
theorem owner_of_lamp (h : (ownPut c a u).lamp ≠ a.lamp) :
    (∃ t p k o, c = .acquire t p k o ∨ c = .release t p k o ∨ c = .breakLamp t p k o) ∨ (∃ t, c = .lampExpiry t) ∨
      (∃ t p k o v, c = .registerWrite t p k o v) ∨ ∃ t p k, c = .write t p k := by
  revert h; unfold ownPut; split <;> simp [Core.putRecovery]
theorem owner_of_boot (h : (ownPut c a u).boot ≠ a.boot) :
    (∃ t, c = .blkPorstRelease t ∨ c = .deviceCountStart t) ∨ (∃ t m, c = .bundleWrite t m ∨ c = .bundleCommit t m) ∨
      (∃ t k f b, c = .bootComplete t k f b) ∨ ∃ t k f b, c = .recoveryComplete t k f b := by
  revert h; unfold ownPut; split <;> simp [Core.putRecovery]

end Fields

/-- A field of the core that no tick moves differs only where the command's own part differs. -/
theorem ownPut_ne {α : Type} (f : Core → α) (ht : ∀ (a : Core) n, f { a with count := n } = f a) {c : Instr} {s u : State} {a : Core}
    (ha : Core.Ticked s.base.core a) (hu : u.base.core = ownPut c a u) (h : f u.base.core ≠ f s.base.core) :
    f (ownPut c a u) ≠ f a := by
  rw [← hu, show f a = f s.base.core from (congrArg f ha.1).trans (ht _ _)]
  exact h

/-- Settles O9: beside the tick a command changes its own part, and each register is part of few. -/
theorem onlyOwnersChangeDeviceState : Obligations.OnlyOwnersChangeDeviceState := by
  unfold Obligations.OnlyOwnersChangeDeviceState
  intro c s u hc h
  obtain ⟨a, ha, hu⟩ := ownPut_of_exec hc h
  refine ⟨fun hd => owner_of_roots c a u (ownPut_ne Core.roots (fun _ _ => rfl) ha hu hd),
    fun hd => owner_of_routing c a u (ownPut_ne Core.routing (fun _ _ => rfl) ha hu hd),
    fun hd => owner_of_domains c a u (ownPut_ne Core.domains (fun _ _ => rfl) ha hu hd),
    fun hd => owner_of_layoutRec c a u (ownPut_ne Core.layoutRec (fun _ _ => rfl) ha hu hd),
    fun hd => owner_of_threshold c a u (ownPut_ne Core.threshold (fun _ _ => rfl) ha hu hd),
    fun hd => owner_of_layout c a u (ownPut_ne Core.layout (fun _ _ => rfl) ha hu hd),
    fun hd => owner_of_lamp c a u (ownPut_ne Core.lamp (fun _ _ => rfl) ha hu hd),
    fun hd => owner_of_boot c a u (ownPut_ne Core.boot (fun _ _ => rfl) ha hu hd), fun ⟨k, hk⟩ => ?_⟩
  have hd : u.mem ≠ s.mem := fun e => hk (by rw [e])
  exact owner_of_mem c a u (ownPut_ne Core.mem (fun _ _ => rfl) ha hu hd)

/-- Settles O2: the queue and the fuses are part of no command's own fields, and BLK_PORST_N carries them over. -/
theorem everyCommandAnswersAndKeepsQueue : Obligations.EveryCommandAnswersAndKeepsQueue := by
  unfold Obligations.EveryCommandAnswersAndKeepsQueue
  intro c s
  obtain ⟨u, h⟩ := exec_total c s
  refine ⟨u, h, ?_⟩
  by_cases hp : ∃ t, c = .blkPorstAssert t
  · obtain ⟨t, rfl⟩ := hp
    have hu := whole _ s u h
    exact ⟨congrArg Core.pending hu, congrArg Core.fuses hu⟩
  · obtain ⟨a, ha, hu⟩ := ownPut_of_exec (fun t e => hp ⟨t, e⟩) h
    have h1 : u.pending = a.pending := (congrArg Core.pending hu).trans (ownPut_pending c a u)
    have h2 : u.fuses = a.fuses := (congrArg Core.fuses hu).trans (ownPut_fuses c a u)
    rw [h1, h2, ha.1]
    exact ⟨rfl, rfl⟩

/-- Settles O6: a command ticks the count at most, the count's start and BLK_PORST_N apart, which set it to 0. -/
theorem countNeverMovesBack : Obligations.CountNeverMovesBack := by
  unfold Obligations.CountNeverMovesBack
  refine ⟨fun c s u hp hc h => ?_, fun t s u h => ?_, fun t s u h => ?_⟩
  · obtain ⟨a, ⟨-, hle, hstop, hlt⟩, hu⟩ := ownPut_of_exec hp h
    have hn : u.count = a.count := (congrArg Core.count hu).trans (ownPut_count c a u hc)
    rw [hn]
    exact ⟨hle, hstop, hlt⟩
  · exact congrArg Core.count (whole _ s u h)
  · rcases whole _ s u h with hs | ⟨-, -, hu⟩
    · exact .inr hs
    · exact .inl (congrArg Core.count hu)

/-! ### A block that is held in reset or stopped by a Pilot fault (R371, R408) -/

/-- Every command but those of BLK_PORST_N, of the test access port and of the count's start acts through `State.live`. -/
theorem exec_live {c : Instr} (ht : isTap c = false) (ha : ∀ t, c ≠ .blkPorstAssert t) (hr : ∀ t, c ≠ .blkPorstRelease t)
    (hc : ∀ t, c ≠ .deviceCountStart t) (s : State) : ∃ t f, exec c s = .next (s.live t f) := by
  cases c
  case blkPorstAssert t => exact absurd rfl (ha t)
  case blkPorstRelease t => exact absurd rfl (hr t)
  case deviceCountStart t => exact absurd rfl (hc t)
  case trstN | testLogicReset | idcode | bypass | samplePreload | extest => cases ht
  all_goals exact ⟨_, _, rfl⟩

theorem deviceCountStart_of_down {s : State} (h : s.porst = true ∨ s.pilotFault = true) (t : Nat) :
    exec (.deviceCountStart t) s = .next s := by
  refine congrArg Host.Outcome.next (if_pos ?_)
  rcases h with h | h <;> simp [h]

/-- Settles O7: what acts through `State.live` leaves a held block alone, and so does the count's start. -/
theorem stoppedBlockDoesNothing : Obligations.StoppedBlockDoesNothing := by
  unfold Obligations.StoppedBlockDoesNothing
  intro c s hs ht ha hr
  by_cases hc : ∃ t, c = .deviceCountStart t
  · obtain ⟨t, rfl⟩ := hc
    exact deviceCountStart_of_down hs t
  · obtain ⟨t, f, h⟩ := exec_live ht ha hr (fun t e => hc ⟨t, e⟩) s
    rw [h, live_of_down hs]

/-! ### The invariant -/

theorem lampOk_of_base {v w : State} (h : w.base = v.base) (hv : LampOk v.lamp) : LampOk w.lamp := by
  rw [show w.lamp = v.lamp from congrArg (fun b => b.core.lamp) h]
  exact hv

/-- A grant sets a legal owner and a lease that LAMP_LEASE allows (R308). -/
theorem lampOk_lampGrant {s : State} {i : Inst} {o : Nat} (ho : o < 8) (hl : s.leaseBad i = false) (k b : Nat) :
    LampOk (s.lampGrant i o k b).lamp := by
  obtain ⟨h1, h2⟩ := (leaseBad_eq_false_iff s i).1 hl
  intro _
  change o < 8 ∧ s.count + 100000 ≤ s.count + (s.inst i).lease * 100000 ∧ s.count + (s.inst i).lease * 100000 ≤ s.count + 1000000000
  omega

theorem lampOk_lampAcquire {s : State} {o : Nat} (h : LampOk s.lamp) (i : Inst) (ho : o < 8) : LampOk (s.lampAcquire i o).lamp := by
  unfold State.lampAcquire
  split
  · exact h
  · rename_i hl
    have hg : ∀ k, LampOk (s.lampGrant i o k 0).lamp := fun k => lampOk_lampGrant ho (by simpa using hl) k 0
    split
    · exact hg LampKind.granted
    · split
      · exact hg LampKind.renewed
      · split <;> exact h

theorem lampOk_lampRelease {s : State} (h : LampOk s.lamp) (i : Inst) (o : Nat) : LampOk (s.lampRelease i o).lamp := by
  unfold State.lampRelease
  split
  · exact h
  · split
    · exact fun hh => by cases hh
    · exact h

theorem lampOk_lampBreak {s : State} {o : Nat} (h : LampOk s.lamp) (i : Inst) (ho : o < 8) : LampOk (s.lampBreak i o).lamp := by
  unfold State.lampBreak
  split
  · exact h
  · rename_i hl
    split
    · exact h
    · split
      · exact h
      · split
        · exact h
        · exact lampOk_lampGrant ho (by simpa using hl) LampKind.broken 1

theorem lampOk_lampDue {s : State} (h : LampOk s.lamp) : LampOk s.lampDue.lamp := by
  obtain ⟨⟨b, hb⟩, -⟩ := lampDue_keeps s
  rw [hb]
  exact h

theorem lampOk_lampCtrl {s : State} (h : LampOk s.lamp) (i : Inst) (v : Nat) : LampOk (s.lampCtrl i v).lamp := by
  have ho : bits v 6 4 < 8 := Nat.mod_lt _ (by decide)
  unfold State.lampCtrl
  split
  · exact lampOk_lampAcquire (lampOk_lampDue h) i ho
  · exact lampOk_lampRelease (lampOk_lampDue h) i _
  · exact lampOk_lampBreak (lampOk_lampDue h) i ho
  · exact h

/-- Of the window's words LAMP_CTRL alone reaches the core. -/
theorem writeReg_base {off : Nat} (h : off ≠ 0x100) (i : Inst) (port v : Nat) (s : State) :
    (s.writeReg i port off v).base = s.base := by
  unfold State.writeReg
  simp [h]

theorem lampOk_writeReg {s : State} (h : LampOk s.lamp) (i : Inst) (port off v : Nat) : LampOk (s.writeReg i port off v).lamp := by
  by_cases ho : off = 0x100
  · subst ho
    exact lampOk_lampCtrl h i v
  · exact lampOk_of_base (writeReg_base ho i port v s) h

theorem lampOk_live {t : Nat} {s : State} {f : State → State} (h : LampOk s.lamp) (hf : ∀ v : State, LampOk v.lamp → LampOk (f v).lamp) :
    LampOk (s.live t f).lamp := by
  rcases State.live_cases t s f with e | e <;> rw [e]
  · exact h
  · exact hf _ (by rw [advance_lamp]; exact h)

theorem lampOk_window {t port : Nat} {ctl : CtlPort} {s : State} {f : Inst → State → State} (h : LampOk s.lamp)
    (hf : ∀ i (v : State), LampOk v.lamp → LampOk (f i v).lamp) : LampOk (s.window t port ctl f).lamp := by
  refine lampOk_live h fun v hv => ?_
  split
  · exact hv
  · extract_lets w dom
    split
    · exact hf _ w hv
    · exact hv

theorem lampOk_transaction {t port : Nat} {p : Bytes} {s : State} {f : Nat → State → State} (h : LampOk s.lamp)
    (hf : ∀ d (v : State), LampOk v.lamp → LampOk (f d v).lamp) : LampOk (s.transaction t port p f).lamp := by
  refine lampOk_live h fun v hv => ?_
  split
  · extract_lets dom n w
    split
    · exact lampOk_of_base (v := w) (by simp) hv
    · exact hf _ _ hv
  · exact hv

theorem lampOk_write {t port : Nat} {p : Bytes} {s u : State} (h : LampOk s.lamp) (hu : exec (.write t port p) s = .next u) :
    LampOk u.lamp := by
  cases hu
  refine lampOk_transaction h fun d v hv => ?_
  split
  · exact hv
  · split
    · exact hv
    · split
      · exact hv
      · exact lampOk_writeReg hv _ _ _ _
      · exact hv

theorem lampOk_registerWrite {t port off : Nat} {ctl : CtlPort} {x : Word} {s u : State} (h : LampOk s.lamp)
    (hu : exec (.registerWrite t port ctl off x) s = .next u) : LampOk u.lamp := by
  cases hu
  refine lampOk_window h fun i v hv => ?_
  split
  · exact lampOk_writeReg hv _ _ _ _
  · exact hv

/-- Every row that owns the Lamp leaves it legal. -/
theorem lampOk_of_exec {c : Instr} {s u : State} (hc : ∀ t, c ≠ .blkPorstAssert t) (h : exec c s = .next u) (hs : LampOk s.lamp) :
    LampOk u.lamp := by
  by_cases hne : u.lamp = s.lamp
  · rw [hne]; exact hs
  · obtain ⟨a, ha, hu⟩ := ownPut_of_exec hc h
    rcases owner_of_lamp c a u (ownPut_ne Core.lamp (fun _ _ => rfl) ha hu hne) with
      ⟨t, p, k, o, rfl | rfl | rfl⟩ | ⟨t, rfl⟩ | ⟨t, p, k, o, v, rfl⟩ | ⟨t, p, k, rfl⟩
    · cases h
      exact lampOk_window hs fun i v hv => lampOk_lampAcquire (lampOk_lampDue hv) i (Nat.mod_lt _ (by decide))
    · cases h
      exact lampOk_window hs fun i v hv => lampOk_lampRelease (lampOk_lampDue hv) i _
    · cases h
      exact lampOk_window hs fun i v hv => lampOk_lampBreak (lampOk_lampDue hv) i (Nat.mod_lt _ (by decide))
    · cases h
      exact lampOk_live hs fun v hv => lampOk_lampDue hv
    · exact lampOk_registerWrite hs h
    · exact lampOk_write hs h

theorem threshold_of_exec {c : Instr} {s u : State} (hc : ∀ t, c ≠ .blkPorstAssert t) (h : exec c s = .next u) :
    u.threshold = s.threshold ∨ 100 ≤ u.threshold ∧ u.threshold ≤ 1000000 := by
  by_cases hne : u.threshold = s.threshold
  · exact .inl hne
  · obtain ⟨a, ha, hu⟩ := ownPut_of_exec hc h
    obtain ⟨t, i, rfl⟩ := owner_of_threshold c a u (ownPut_ne Core.threshold (fun _ _ => rfl) ha hu hne)
    exact execCanarySet_range t i s u h

theorem mem_wf_of_exec {c : Instr} {s u : State} (hc : ∀ t, c ≠ .blkPorstAssert t) (h : exec c s = .next u)
    (hs : Memory.wf s.mem = true) : Memory.wf u.mem = true := by
  by_cases hne : u.mem = s.mem
  · rw [hne]; exact hs
  · obtain ⟨a, ha, hu⟩ := ownPut_of_exec hc h
    have hw := whole c s u h
    rcases owner_of_mem c a u (ownPut_ne Core.mem (fun _ _ => rfl) ha hu hne) with ⟨t, p, k, rfl⟩ | ⟨t, k, f, b, rfl⟩
    · rcases hw with ⟨b, hb, hw⟩ | ⟨n, b, hb, hw⟩
      · have hm : u.mem = b.mem := congrArg Core.mem hw
        exact absurd (hm.trans (congrArg Core.mem hb.1)) hne
      · have hm : u.mem = memWrite b.mem n _ := congrArg Core.mem hw
        rw [hm, hb.1]
        exact memWrite_wf _ hs n
    · rw [hw.2.resolve_left hne]; rfl

theorem owner_of_power {c : Instr} {a : Core} {u : State}
    (h : ((ownPut c a u).running, (ownPut c a u).porst, (ownPut c a u).pilotFault) ≠ (a.running, a.porst, a.pilotFault)) :
    ∃ t, c = .blkPorstRelease t ∨ c = .deviceCountStart t ∨ c = .pilotRefclkLoss t := by
  revert h; unfold ownPut; split <;> simp [Core.putRecovery]

/-- The count runs only in a block that is under power and its clock (R371, R408). -/
theorem running_of_exec {c : Instr} {s u : State} (hc : ∀ t, c ≠ .blkPorstAssert t) (h : exec c s = .next u)
    (hs : s.porst = true ∨ s.pilotFault = true → s.running = false) :
    u.porst = true ∨ u.pilotFault = true → u.running = false := by
  by_cases hne : (u.running, u.porst, u.pilotFault) = (s.running, s.porst, s.pilotFault)
  · obtain ⟨h1, h2, h3⟩ : u.running = s.running ∧ u.porst = s.porst ∧ u.pilotFault = s.pilotFault := by simpa using hne
    rw [h1, h2, h3]; exact hs
  · obtain ⟨a, ha, hu⟩ := ownPut_of_exec hc h
    have hw := whole c s u h
    obtain ⟨t, rfl | rfl | rfl⟩ := owner_of_power (ownPut_ne (fun b => (b.running, b.porst, b.pilotFault)) (fun _ _ => rfl) ha hu hne)
    · rcases hw with hw | ⟨hp, hw⟩
      · exact absurd (congrArg (fun b : Core => (b.running, b.porst, b.pilotFault)) hw) hne
      · have hr : u.running = s.running := congrArg Core.running hw
        exact fun _ => hr.trans (hs (.inl hp))
    · rcases hw with rfl | ⟨hp, hf, hw⟩
      · exact hs
      · have h1 : u.porst = s.porst := congrArg Core.porst hw
        have h2 : u.pilotFault = s.pilotFault := congrArg Core.pilotFault hw
        rw [h1, h2, hp, hf]
        simp
    · rcases hw with rfl | hw
      · exact hs
      · exact fun _ => congrArg Core.running hw

/-- Settles O4: reset leaves no byte of memory, a free Lamp, THRESHOLD 2000 and a count that stands. -/
theorem resetHasInvariant : Obligations.ResetHasInvariant := by
  unfold Obligations.ResetHasInvariant Inv LampOk
  exact ⟨State.reset_mem_wf, by decide, by decide, by decide, fun _ => rfl⟩

theorem inv_of_blkPorstAssert {t : Nat} {s u : State} (h : exec (.blkPorstAssert t) s = .next u) : Inv u := by
  have hu := whole _ s u h
  obtain ⟨h1, h2, h3, h4, -⟩ := resetHasInvariant
  have m : u.mem = State.reset.mem := congrArg Core.mem hu
  have l : u.lamp = State.reset.lamp := congrArg Core.lamp hu
  have n : u.threshold = State.reset.threshold := congrArg Core.threshold hu
  exact ⟨by rw [m]; exact h1, by rw [l]; exact h2, by rw [n]; exact h3, by rw [n]; exact h4, fun _ => congrArg Core.running hu⟩

theorem inv_of_exec {c : Instr} {s u : State} (h : exec c s = .next u) (hi : Inv s) : Inv u := by
  by_cases hp : ∃ t, c = .blkPorstAssert t
  · obtain ⟨t, rfl⟩ := hp
    exact inv_of_blkPorstAssert h
  · have hc : ∀ t, c ≠ .blkPorstAssert t := fun t e => hp ⟨t, e⟩
    obtain ⟨hm, hl, h1, h2, hr⟩ := hi
    obtain ⟨h3, h4⟩ : 100 ≤ u.threshold ∧ u.threshold ≤ 1000000 := by
      rcases threshold_of_exec hc h with e | e
      · rw [e]; exact ⟨h1, h2⟩
      · exact e
    exact ⟨mem_wf_of_exec hc h hm, lampOk_of_exec hc h hl, h3, h4, running_of_exec hc h hr⟩

theorem inv_tick {s : State} (hi : Inv s) : Inv s.tick := by
  unfold State.tick
  split <;> exact hi

/-- Settles O3: each part of the invariant is part of what few rows own, and each of those rows keeps it. -/
theorem stepKeepsInvariant : Obligations.StepKeepsInvariant := by
  unfold Obligations.StepKeepsInvariant
  intro s u hi h
  cases hq : s.pending with
  | nil =>
    rw [step_of_empty hq] at h
    cases h
    exact inv_tick hi
  | cons c rest =>
    rw [step_of_front hq] at h
    exact inv_of_exec h hi

/-- Settles O5: reset is one state, and each value is a field of it. -/
theorem resetValues : Obligations.ResetValues := by
  unfold Obligations.ResetValues
  refine ⟨rfl, rfl, rfl, rfl, rfl, rfl, rfl, rfl, rfl, rfl, rfl, rfl, rfl, rfl, rfl, rfl, rfl, rfl, rfl, rfl, rfl, rfl, rfl,
    ?_, ?_, ?_, ?_, rfl⟩
  · decide
  · decide
  · decide
  · decide

end Sys2Proof.Safety
end

section
/-! PROOFS. Tallies: the order in which waiters are served (R264, R265). -/

namespace Sys2Proof.Safety

open Sys2Proof.Machine

/-- The waiters that leave stand first in the wait list, what they consume leaves COUNT, and the head that stays waits for more
than is left. -/
structure ServesPrefix (x y : Tally) (k : Nat) : Prop where
  waiters : y.waiters = x.waiters.drop k
  count : y.count + ((x.waiters.take k).map Waiter.n).sum = x.count
  consumed : y.consumed = x.consumed + ((x.waiters.take k).map Waiter.n).sum
  head : ∀ w, y.waiters.head? = some w → y.count < w.n
  overflow : y.overflow = x.overflow

theorem serve_servesPrefix (f : Nat) (x : Tally) (hf : x.waiters.length < f) : ∃ k, ServesPrefix x (x.serve f) k := by
  induction f generalizing x with
  | zero => omega
  | succ f ih =>
    unfold Tally.serve
    split
    · rename_i hw
      exact ⟨0, rfl, by simp, by simp, by simp [hw], rfl⟩
    · rename_i w ws hw
      split
      · rename_i hn
        obtain ⟨k, h1, h2, h3, h4, h5⟩ :=
          ih { x with count := x.count - w.n, consumed := x.consumed + w.n, waiters := ws } (by simpa [hw] using hf)
        dsimp only at h1 h2 h3 h5
        refine ⟨k + 1, by simpa [hw] using h1, ?_, ?_, h4, h5⟩
        · simp only [hw, List.take_succ_cons, List.map_cons, List.sum_cons]; omega
        · simp only [hw, List.take_succ_cons, List.map_cons, List.sum_cons]; omega
      · rename_i hn
        exact ⟨0, rfl, by simp, by simp, by simp [hw]; omega, rfl⟩

/-- Settles O42: a SIGNAL that does not saturate raises COUNT and then serves the wait list. -/
theorem signalServesInOrder : Obligations.SignalServesInOrder := by
  unfold Obligations.SignalServesInOrder
  intro x n hx
  obtain ⟨k, h⟩ := serve_servesPrefix (x.waiters.length + 1) { x with count := x.count + n } (Nat.lt_succ_self _)
  have hs : x.signal n = Tally.serve (x.waiters.length + 1) { x with count := x.count + n } := by
    rw [Tally.signal, if_pos hx]
  rw [hs]
  exact ⟨k, h.waiters, h.count, h.consumed, h.head, h.overflow⟩

end Sys2Proof.Safety
end

section
/-! PROOFS. The windows: ring pointers, flushes and capturing reads (R6, R261, R269, R311). -/

namespace Sys2Proof.Safety

open Sys2Proof.Machine

/-- An update of an instance depends on what it does to that instance alone. -/
theorem modInst_congr {s : State} {i : Inst} {f g : InstState → InstState} (h : f (s.inst i) = g (s.inst i)) :
    s.modInst i f = s.modInst i g := by
  unfold State.modInst
  congr 1
  by_cases hi : i.idx < s.insts.length
  · have hx : s.insts[i.idx]? = some (s.inst i) := by
      rw [State.inst, List.getD_eq_getElem?_getD, List.getElem?_eq_getElem hi]; rfl
    rw [lmod_of hx, lmod_of hx, h]
  · have hn : s.insts[i.idx]? = none := List.getElem?_eq_none (by omega)
    simp [lmod, List.modify_eq_self (Nat.le_of_not_lt hi)]

theorem push_wr (q : Queue) (n : Nat) : (q.push n).wr = (q.wr + n) % q.span := by
  unfold Queue.push Queue.cross
  split <;> rfl

/-- The tail as a doorbell that is accepted leaves it. -/
def tailMoved (port move : Nat) (x : InstState) : InstState :=
  { x with cmdQ := x.cmdQ.push move
           slotPort := (List.range move).foldl (fun l k => l.set ((x.cmdQ.wr + k) % 16) port) x.slotPort }

section Pointers
variable {s : State} {i : Inst} {v : Nat}

theorem doorbell_of_fits {port : Nat} (hv : v < 32) (h1 : 1 ≤ (v + 32 - (s.inst i).cmdQ.wr) % 32)
    (h2 : (v + 32 - (s.inst i).cmdQ.wr) % 32 ≤ 16 - (s.inst i).cmdQ.level) :
    s.doorbell i port v = (s.modInst i (tailMoved port ((v + 32 - (s.inst i).cmdQ.wr) % 32))).pump pumpFuel := by
  unfold State.doorbell
  simp only [Nat.not_le.mpr hv, if_false, Nat.one_le_iff_ne_zero.mp h1, h2, if_true]
  rfl

theorem doorbell_of_too_far {port : Nat} (hv : v < 32) (h : 16 - (s.inst i).cmdQ.level < (v + 32 - (s.inst i).cmdQ.wr) % 32) :
    s.doorbell i port v = s.modInst i fun x => { x with doorbellErr := true } := by
  have h0 : (v + 32 - (s.inst i).cmdQ.wr) % 32 ≠ 0 := by omega
  unfold State.doorbell
  simp only [Nat.not_le.mpr hv, if_false, h0, Nat.not_le.mpr h]

theorem cplHeadWrite_of_fits (hv : v < 32) (h : (v + 32 - (s.inst i).cplQ.rd) % 32 ≤ (s.inst i).cplQ.level) :
    s.cplHeadWrite i v = (s.modInst i fun x => { x with cplQ := (s.inst i).cplQ.pop ((v + 32 - (s.inst i).cplQ.rd) % 32) }).pump pumpFuel := by
  unfold State.cplHeadWrite
  rw [if_pos ⟨hv, h⟩]
  congr 1
  exact modInst_congr rfl

theorem cplHeadWrite_of_too_far (h : (s.inst i).cplQ.level < (v + 32 - (s.inst i).cplQ.rd) % 32) :
    s.cplHeadWrite i v = s.modInst i fun x => { x with cplHeadErr := true } :=
  if_neg fun hc => absurd hc.2 (Nat.not_le.mpr h)

theorem evtHeadWrite_of_fits (hv : v < 512) (h : (v + 512 - (s.inst i).evtQ.rd) % 512 ≤ (s.inst i).evtQ.level) :
    s.evtHeadWrite i v = s.modInst i fun x => { x with evtQ := (s.inst i).evtQ.pop ((v + 512 - (s.inst i).evtQ.rd) % 512) } :=
  (if_pos ⟨hv, h⟩).trans (modInst_congr rfl)

theorem evtHeadWrite_of_too_far (h : (s.inst i).evtQ.level < (v + 512 - (s.inst i).evtQ.rd) % 512) :
    s.evtHeadWrite i v = s.modInst i fun x => { x with evtHeadErr := true } :=
  if_neg fun hc => absurd hc.2 (Nat.not_le.mpr h)

end Pointers

section Windows
variable {s : State} {port : Nat} {ctl : CtlPort} {dom : Nat} (h : Window s port ctl dom) (t : Nat)
include h

theorem exec_cmdTail (v : Word) : exec (.cmdTail t port ctl v) s = .next ((windowed s t).doorbell ⟨ctl, dom⟩ port (v.toNat % 32)) :=
  congrArg Host.Outcome.next (window_of h t fun i s => s.doorbell i port (v.toNat % 32))

theorem exec_cplHead (v : Word) : exec (.cplHead t port ctl v) s = .next ((windowed s t).cplHeadWrite ⟨ctl, dom⟩ (v.toNat % 32)) :=
  congrArg Host.Outcome.next (window_of h t fun i s => s.cplHeadWrite i (v.toNat % 32))

theorem exec_evtHead (v : Word) : exec (.evtHead t port ctl v) s = .next ((windowed s t).evtHeadWrite ⟨ctl, dom⟩ (v.toNat % 512)) :=
  congrArg Host.Outcome.next (window_of h t fun i s => s.evtHeadWrite i (v.toNat % 512))

theorem exec_flush (k : Nat) : exec (.flush t port ctl k) s = .next ((windowed s t).flushReq ⟨ctl, dom⟩ k) :=
  congrArg Host.Outcome.next (window_of h t fun i s => s.flushReq i k)

theorem exec_ledgerTotalRead : exec (.ledgerTotalRead t port ctl) s = .next ((windowed s t).ledgerTotal ⟨ctl, dom⟩).1 :=
  congrArg Host.Outcome.next (window_of h t fun i s => (s.ledgerTotal i).1)

end Windows

/-- Settles O37: the distance that a pointer write asks for, against the room or the entries there are, selects the outcome. -/
theorem ringPointerRows : Obligations.RingPointerRows := by
  unfold Obligations.RingPointerRows
  intro t port ctl dom v s hwin
  rw [exec_cmdTail hwin, exec_cplHead hwin, exec_evtHead hwin]
  have hi := windowed_inst s t ⟨ctl, dom⟩
  have h32 : v.toNat % 32 < 32 := Nat.mod_lt _ (by decide)
  have h512 : v.toNat % 512 < 512 := Nat.mod_lt _ (by decide)
  rw [← hi]
  refine ⟨⟨fun h1 h2 => ?_, fun h => ?_⟩, ⟨fun h => ?_, fun h => ?_⟩, fun h => ?_, fun h => ?_⟩
  · rw [doorbell_of_fits h32 h1 h2]
    refine ⟨_, _, rfl, same_modInst _ _ _, rfl, same_pump _ _, fun hlen => ?_⟩
    obtain ⟨n, p, hw, -⟩ := windowed_eq s t
    rw [inst_modInst (by rw [hw]; exact hlen)]
    exact push_wr _ _
  · rw [doorbell_of_too_far h32 h]
  · rw [cplHeadWrite_of_fits h32 h]; rfl
  · rw [cplHeadWrite_of_too_far h]
  · rw [evtHeadWrite_of_fits h512 h]; rfl
  · rw [evtHeadWrite_of_too_far h]

theorem exec_flushDiscard {s : State} (h : Up s) (i : Inst) {k : Nat} (hf : ((s.inst i).queue k).flush = true) (t : Nat) :
    exec (.flushDiscard t i k) s =
      .next (((s.advance t).modInst i (·.modQueue k fun q => { q with rd := q.wr, flush := false })).pump pumpFuel) := by
  obtain ⟨n, hn, -⟩ := advance_eq t s
  refine congrArg Host.Outcome.next ((live_of_up h t _).trans (if_pos ?_))
  rw [hn]
  exact hf

/-- A queue whose read pointer stands at its write pointer holds nothing. -/
theorem level_of_discarded (q : Queue) : ({ q with rd := q.wr, flush := false } : Queue).level = 0 := by
  have h : q.wr + q.span - q.wr = q.span := by omega
  change (q.wr + q.span - q.wr) % q.span = 0
  rw [h, Nat.mod_self]

/-- Settles O38: the request sets the bit, the packet boundary moves the read pointer to the write pointer. -/
theorem flushRows : Obligations.FlushRows := by
  unfold Obligations.FlushRows
  exact ⟨fun t port ctl dom k s hwin _ => exec_flush hwin t k, fun t i k s hu hf => exec_flushDiscard hu i hf t,
    fun q _ => level_of_discarded q⟩

/-- The 64-bit quantities of the window and the offsets of their low words. -/
theorem exec_lowWordRead {s : State} {port : Nat} {ctl : CtlPort} {dom : Nat} (h : Window s port ctl dom) {t off v : Nat}
    (hv : (windowed s t).wide off = some v) :
    exec (.lowWordRead t port ctl off) s = .next ((windowed s t).modInst ⟨ctl, dom⟩ fun x =>
      { x with shadows := tset x.shadows (off + 4) (BitVec.ofNat 32 (v / 2 ^ 32)) }) := by
  refine congrArg Host.Outcome.next ((window_of h t _).trans ?_)
  rw [hv]
  rfl

/-- Settles O39: each read is one update of the instance's shadows. -/
theorem capturingReads : Obligations.CapturingReads := by
  unfold Obligations.CapturingReads
  intro t port ctl dom s hwin
  have hi := windowed_inst s t ⟨ctl, dom⟩
  obtain ⟨n, p, hw, hn, -⟩ := windowed_eq s t
  refine ⟨⟨_, rfl, ?_⟩, fun off v hv => ?_⟩
  · rw [exec_ledgerTotalRead hwin, State.ledgerTotal, hi, hw]
    rfl
  · refine exec_lowWordRead hwin ?_
    simp only [List.mem_cons, Prod.mk.injEq, List.not_mem_nil, or_false] at hv
    rw [hw]
    rcases hv with ⟨rfl, rfl⟩ | ⟨rfl, rfl⟩ | ⟨rfl, rfl⟩
    · rw [hn]; rfl
    · rfl
    · rfl

end Sys2Proof.Safety
end

section
/-! PROOFS. Commands of the rings: the checks of an opcode in their order, commands refused before the payload, queries and Tallies
(R264, R313, R314, R316, R324, R327, R335 to R340). -/

namespace Sys2Proof.Safety

open Sys2Proof.Machine

/-! ### The checks of an opcode, in their order (R313, R324) -/

section Checks
variable {b : Bool} {e : Nat} {l : List (Bool × Nat)}

theorem firstFail_of_pass (hb : b = false) (hl : firstFail l = E.ok) : firstFail ((b, e) :: l) = E.ok := by
  simp [firstFail, hb, hl]

theorem firstFail_of_code (he : e = E.ok) (hl : firstFail l = E.ok) : firstFail ((b, e) :: l) = E.ok := by
  simp [firstFail, he, hl]

theorem firstFail_of_fail (hb : b = true) (he : e ≠ 0) : firstFail ((b, e) :: l) = e := by
  simp [firstFail, hb, he]

end Checks

/-- The executing command is the instance's own. -/
theorem Executing.inst_eq {s : State} {op : Nat} {i : Inst} {c : ExecCmd} (h : Executing s op i c) : c.inst = i := h.2.2.1

/-- Every command of a ring acts through `State.command`. -/
theorem exec_of_opcodeOf {k : Instr} {t : Nat} {i : Inst} {op : Nat} (h : opcodeOf k = some (t, i, op)) (s : State) :
    ∃ f, exec k s = done (s.live t fun s => s.command op i f) := by
  cases k <;> first | (cases h; exact ⟨_, rfl⟩) | cases h

/-- Settles O22: the status of the checks before the payload is answered, and a completion changes no more than the rings. -/
theorem refusedCommand : Obligations.RefusedCommand := by
  unfold Obligations.RefusedCommand
  intro k t i op s c hk hu hc hi ho hr hm hp
  obtain ⟨f, hf⟩ := exec_of_opcodeOf hk s
  exact ⟨hf.trans (pre_fails hu hc hi ho hr hm hp t f), same_complete _ _ _⟩

/-! ### Queries -/

theorem tallyRange_of {c : ExecCmd} (h1 : 64 ≤ c.tally) (h2 : c.tally ≤ 4095) : tallyRange c = false := by
  simp [tallyRange, Nat.not_lt.mpr h1, Nat.not_lt.mpr h2]

/-- A record that is met keeps its number, so the search finds the same one. -/
theorem ashpitOf_meetAshpit_isSome (k j : Nat) (s : State) : ((s.meetAshpit k).ashpitOf j).isSome = (s.ashpitOf j).isSome := by
  simp only [State.ashpitOf, State.meetAshpit, List.find?_map, Option.isSome_map]
  congr 2
  funext r
  simp only [Function.comp_apply]
  split <;> rfl

/-- Settles O24: a query answers from the state at its arrival count and leaves it to the completion. -/
theorem queryRows : Obligations.QueryRows := by
  unfold Obligations.QueryRows
  rintro t i c s _ rfl
  obtain ⟨n, hn, -⟩ := advance_eq t s
  rw [hn]
  refine ⟨fun hx => op_ok hx hn _ _ false false rfl, fun hx h0 hd => ?_, fun x hx hs hf hd hst => ?_, fun r hx hb hk hq => ?_,
    fun hx => op_ok hx hn _ _ false false rfl, fun x hx h1 h2 hc => ?_, fun hx => op_ok hx hn _ _ false false rfl,
    fun r v hx hv hf => ?_, fun m l hx hb hm h1 h2 hl hlen => ?_, fun hx => op_ok hx hn _ _ false false rfl⟩
  · refine op_ok hx hn _ _ false false (firstFail_of_pass ?_ rfl)
    change (c.ctxId == 0 || ((s.ctx c.ctxId).state != .free && (s.ctx c.ctxId).domain != c.inst.domain)) = false
    rw [hx.inst_eq]
    rcases hd with hd | hd <;> simp [h0, hd]
  · rw [← hx.inst_eq] at hd
    refine (op_ok hx hn _ _ false false (streamCheck_ok n hs hf hd hst)).trans ?_
    rw [cmdEntry_of n hs]
    rfl
  · have hq' : State.queried { s with count := n } c = some r := hq
    refine (op_ok hx hn _ _ false false (firstFail_of_pass hb (firstFail_of_pass ?_ rfl))).trans ?_
    · rw [hq']; simp [Nat.not_lt.mpr hk]
    · rw [hq']; rfl
  · have hc' : State.cmdTally { s with count := n } c = some x := hc
    refine (op_ok hx hn _ _ false false (firstFail_of_pass (tallyRange_of h1 h2) (firstFail_of_pass ?_ rfl))).trans ?_
    · rw [hc']; rfl
    · rw [hc']; rfl
  · subst hv
    have hs := ashpitOf_meetAshpit_isSome (c.arg 0x18 4) (c.arg 0x18 4) { s with count := n }
    have hf' : State.ashpitOf (State.meetAshpit (c.arg 0x18 4) { s with count := n }) (c.arg 0x18 4) = some r := hf
    rw [hf'] at hs
    refine (op_ok hx hn _ _ false false (firstFail_of_pass ?_ rfl)).trans ?_
    · rw [← Option.not_isSome, ← hs]; rfl
    · dsimp only; rw [hf', hx.inst_eq]; rfl
  · have hl' : State.counterList { s with count := n } c = l := hl
    subst hm
    refine (op_ok hx hn _ _ false false (firstFail_of_pass ?_ (firstFail_of_pass ?_ rfl))).trans ?_
    · rcases hb with hb | hb
      · simp [hb]
      · have hb' : State.ctxBad { s with count := n } c c.ctxId = false := hb
        simp [hb']
    · rw [hl']; simp; omega
    · rw [hl']; rfl

/-! ### Tallies and the Canary's threshold -/

/-- An allocation sets a run of Tallies of the context, all alike. -/
theorem fold_allocTally (id k : Nat) (l : List Nat) (s : State) :
    l.foldl (fun (s : State) j => s.setTally (k + j) ⟨true, id, (s.ctx id).gen, 0, false, 0, []⟩) s =
      { s with tallies := l.foldl (fun q j => tset q (k + j) ⟨true, id, (s.ctx id).gen, 0, false, 0, []⟩) s.tallies } := by
  induction l generalizing s with
  | nil => rfl
  | cons a l ih => rw [List.foldl_cons, ih]; rfl

/-- The Tallies after an allocation of `m` from `k` on. -/
def allocated (s : State) (c : ExecCmd) (m k : Nat) : Tbl Tally :=
  (List.range m).foldl (fun q j => tset q (k + j) ⟨true, c.ctxId, (s.ctx c.ctxId).gen, 0, false, 0, []⟩) s.tallies

theorem exec_tallyAlloc_ok {s : State} {i : Inst} {c : ExecCmd} {m k : Nat} (hx : Executing s 0x0500 i c)
    (ho : s.ctxNotOpen c c.ctxId = false) (hm : c.arg 0x1C 2 = m) (h1 : 1 ≤ m) (h2 : m ≤ 256) (h0 : c.tally = 0)
    (hk : s.freeRun m = some k) (t : Nat) :
    exec (.tallyAlloc t i) s = .next (State.complete c ⟨E.ok, (s.advance t).count, leBytes 2 k, none⟩
      (State.bumpConfig { s.advance t with tallies := allocated s c m k })) := by
  subst hm
  obtain ⟨n, hn, -⟩ := advance_eq t s
  have hk' : State.freeRun { s with count := n } (c.arg 0x1C 2) = some k := hk
  refine (op_ok hx hn _ _ true true (firstFail_of_pass ho (firstFail_of_pass ?_ (firstFail_of_pass ?_ rfl)))).trans ?_
  · simp [h0]; omega
  · rw [hk']; rfl
  · dsimp only
    rw [hn, hk', fold_allocTally]
    rfl

/-- The checks of TALLY_FREE and TALLY_SET on the Tally itself (Table 14.12). -/
theorem cmdTally_any_waiters {s : State} {c : ExecCmd} {x : Tally} (hc : s.cmdTally c = some x) (hw : x.waiters = []) :
    (s.cmdTally c).any (fun x => !x.waiters.isEmpty) = false := by
  simp [hc, hw]

theorem canaryCheck_eq_false_iff (v : Nat) : (decide (v < 100) || decide (1000000 < v)) = false ↔ 100 ≤ v ∧ v ≤ 1000000 := by
  simp

/-- Settles O21: the checks pass under the clause's conditions, and the effect is one update of the table or of THRESHOLD. -/
theorem tallyCommandRows : Obligations.TallyCommandRows := by
  unfold Obligations.TallyCommandRows
  rintro t i c s _ rfl
  refine ⟨fun m k hx ho hm h1 h2 h0 hk => ⟨_, exec_tallyAlloc_ok hx ho hm h1 h2 h0 hk t, rfl, fun j hj1 hj2 => ?_, fun j hj => ?_⟩,
    fun x hx h1 h2 hc hw hnm => ?_, fun x hx h1 h2 hc hw => ?_, fun v hx hv => ?_⟩
  · exact (tget_fold ..).trans (if_pos ⟨hj1, hj2⟩)
  · exact (tget_fold ..).trans (if_neg (by omega))
  all_goals
    obtain ⟨n, hn, -⟩ := advance_eq t s
    rw [hn]
  · have hc' : State.cmdTally { s with count := n } c = some x := hc
    refine op_ok hx hn _ _ true true (firstFail_of_pass (tallyRange_of h1 h2) (firstFail_of_pass (by rw [hc']; rfl) (firstFail_of_pass ?_ rfl)))
    rw [cmdTally_any_waiters hc' hw]
    exact hnm
  · have hc' : State.cmdTally { s with count := n } c = some x := hc
    exact op_ok hx hn _ _ true true (firstFail_of_pass (tallyRange_of h1 h2) (firstFail_of_pass (by rw [hc']; rfl)
      (firstFail_of_pass (cmdTally_any_waiters hc' hw) rfl)))
  · subst hv
    refine ⟨fun h1 h2 => ?_, fun hbad => ?_⟩
    · exact op_ok hx hn _ _ true true (firstFail_of_pass ((canaryCheck_eq_false_iff _).2 ⟨h1, h2⟩) rfl)
    · refine op_fail hx hn _ _ true true E.range (firstFail_of_fail ?_ (by decide)) (by decide)
      rw [← Bool.not_eq_false, canaryCheck_eq_false_iff]
      omega

end Sys2Proof.Safety
end

section
/-! PROOFS. Images, vocabularies, normalisation banks and adapters (R21, R49, R50, R57, R154, R160, R334, R413). -/

namespace Sys2Proof.Safety

open Sys2Proof.Machine

/-! ### What the operations of these commands do -/

theorem tdel_of_absent {α : Type} {l : Tbl α} {n : Nat} (h : tget l n = none) : tdel l n = l := by
  induction l with
  | nil => rfl
  | cons p l ih =>
    obtain ⟨k, v⟩ := p
    unfold tget at h
    split at h
    · cases h
    · rename_i hk
      rw [tdel, if_neg hk, ih h]

theorem releasePages_nil (s : State) : s.releasePages [] = s := by
  simp [State.releasePages]

theorem stagedAfter_of_append {s : State} {c : ExecCmd} (hf : c.stageFirst = false) (hd : c.stageDiscard = false) :
    s.stagedAfter c = s.staged c.inst (c.arg 0x18 1) ++ c.payload := by
  simp [State.stagedAfter, hf, hd]

theorem loadTarget_install {s : State} {id gen kind : Nat} {x : Install} {stage : Option Nat}
    (hst : (s.ctx id).state = .opened ∨ (s.ctx id).state = .closing) (hg : (s.ctx id).gen = gen) :
    s.loadTarget (.install id gen kind x stage) = true := by
  rcases hst with hst | hst <;> simp [State.loadTarget, hst, hg]

/-- A load whose context stands and whose content agrees with the other installs comes into force (R181). -/
theorem loadComplete_install {s : State} {i : Inst} {k : ExecCmd} {id gen kind e : Nat} {x : Install}
    (hw : (s.inst i).working = some ⟨k, .install id gen kind x none, e⟩)
    (hst : (s.ctx id).state = .opened ∨ (s.ctx id).state = .closing) (hg : (s.ctx id).gen = gen)
    (hc : (s.ctx id).consistent kind x.body = true) :
    s.loadComplete i = ((s.makeAvailable id kind x).bumpConfig).endWork i
      ⟨E.ok, s.count, leBytes 4 ((s.ctx id).nextInstall.getD kind 1) ++ verBytes x.version, none⟩ := by
  unfold State.loadComplete
  rw [hw]
  simp only [loadTarget_install hst hg, hc, Bool.not_true, Bool.false_eq_true, and_false, if_false, if_true]

theorem target_le_one (x : NormSlot) (e : Nat) (f : Bool) : x.target e f ≤ 1 := by
  unfold NormSlot.target
  dsimp only
  have hbit := b2n_lt_two f
  (repeat' split) <;> omega

/-- The pairs' count, their length and their BF16 values are the checks of TAP_NORM_LOAD. -/
theorem normCheck_of {c : ExecCmd} {n : Nat} (hn : c.arg 0x1A 2 = n) (hl : Slot.descLen c.slot = 4 * n) (h1 : 64 ≤ n) (h2 : n ≤ 2048)
    (h3 : n % 64 = 0) (hr : c.arg 0x18 1 ≤ 3)
    (hp : ∀ k, k < c.payload.length / 2 → bf16Finite (field c.payload (2 * k) 2) = true) :
    firstFail
      [(Slot.descLen c.slot != 4 * c.arg 0x1A 2 ||
          (List.range (c.payload.length / 2)).any (fun k => !bf16Finite (field c.payload (2 * k) 2)), E.field),
       (decide (3 < c.arg 0x18 1) || decide (c.arg 0x1A 2 < 64) || decide (2048 < c.arg 0x1A 2) || c.arg 0x1A 2 % 64 != 0, E.range)] =
      E.ok := by
  subst hn
  refine firstFail_of_pass ?_ (firstFail_of_pass ?_ rfl)
  · simpa [hl] using hp
  · simp [h3]; omega

/-- What no arrival count moves is after it as it was before. -/
theorem of_advance {α : Type} (t : Nat) (s : State) (f : State → α) (h : ∀ n, f { s with count := n } = f s) : f (s.advance t) = f s := by
  obtain ⟨n, hn, -⟩ := advance_eq t s
  rw [hn, h]

section Commands
variable {s : State} {i : Inst} {c : ExecCmd} (t : Nat)

theorem exec_imageStage_append (hx : Executing s 0x0300 i c) (hc : (s.advance t).stageCheck c = 0) (hf : c.stageFirst = false)
    (hd : c.stageDiscard = false) :
    exec (.imageStage t i) s = .next ((((s.advance t).setStage i (c.arg 0x18 1) (s.staged i (c.arg 0x18 1) ++ c.payload)).bumpConfig).complete c
      ⟨E.ok, (s.advance t).count, leBytes 8 (s.staged i (c.arg 0x18 1) ++ c.payload).length, none⟩) := by
  obtain rfl := hx.inst_eq
  have hb : (s.advance t).stagedAfter c = s.staged c.inst (c.arg 0x18 1) ++ c.payload :=
    (stagedAfter_of_append hf hd).trans (congrArg (· ++ c.payload) (of_advance t s (fun s => s.staged c.inst (c.arg 0x18 1)) fun _ => rfl))
  refine (opcode_of hx t _ _ true true hc).trans ?_
  simp only [hb, hf, hd, Bool.or_self, Bool.false_eq_true, if_false, if_true]

theorem exec_imageInstall_ok (hx : Executing s 0x0301 i c) (hc : (s.advance t).installCheck c = 0) :
    exec (.imageInstall t i) s = .next ((s.advance t).startInstall c) := by
  refine congrArg Host.Outcome.next ((command_of hx t _).trans (if_neg (not_not_intro hc)))

theorem exec_imageLoadComplete_install {k : ExecCmd} {id gen kind : Nat} {x : Install} (hr : Ready s) (hf : s.foreman.restarting = false)
    (hw : (s.inst i).working = some ⟨k, .install id gen kind x none, 0⟩)
    (hst : (s.ctx id).state = .opened ∨ (s.ctx id).state = .closing) (hg : (s.ctx id).gen = gen)
    (hc : (s.ctx id).consistent kind x.body = true) :
    exec (.imageLoadComplete t i) s = .next ((((s.advance t).makeAvailable id kind x).bumpConfig).endWork i
      ⟨E.ok, (s.advance t).count, leBytes 4 ((s.ctx id).nextInstall.getD kind 1) ++ verBytes x.version, none⟩) := by
  have hctx : (s.advance t).ctx id = s.ctx id := of_advance t s (fun s => s.ctx id) fun _ => rfl
  have hi : (s.advance t).inst i = s.inst i := of_advance t s (fun s => s.inst i) fun _ => rfl
  have hf' : (s.advance t).foreman.restarting = false := (of_advance t s (fun s => s.foreman.restarting) fun _ => rfl).trans hf
  refine congrArg Host.Outcome.next ((run_of_ready hr t _).trans ?_)
  rw [if_neg (by simp [hf'])]
  rw [← hctx] at hst hg hc ⊢
  exact loadComplete_install (hi ▸ hw) hst hg hc

theorem exec_vocabLoad_new (hx : Executing s 0x0303 i c) (hc : (s.advance t).vocabCheck c = 0) (h1 : bit (c.arg 0x19 1) 1 = false)
    (h0 : bit (c.arg 0x19 1) 0 = false) (hv : tget s.vocabs (c.arg 0x18 1) = none) :
    exec (.vocabLoad t i) s = .next ((State.bumpConfig { s.advance t with
      vocabs := tset (tdel s.vocabs (c.arg 0x18 1)) (c.arg 0x18 1) { (loadVocab c.payload).body with
        pages := (s.advance t).allocRegion 4 (pagesOf (vocabBytes (loadVocab c.payload).body)) } }).complete c
        ⟨E.ok, (s.advance t).count, [], none⟩) := by
  have hw : (s.advance t).vocabs = s.vocabs := of_advance t s State.vocabs fun _ => rfl
  rw [← hw] at hv ⊢
  refine (opcode_of hx t _ _ true true hc).trans ?_
  simp only [h1, h0, hv, tdel_of_absent hv, State.image, releasePages_nil, Bool.false_eq_true, if_false, if_true, Option.map_none, Option.getD_none]

end Commands

/-- Settles O29: each command passes its checks and makes its one change; a load that ends puts its install in force. -/
theorem imageRows : Obligations.ImageRows := by
  unfold Obligations.ImageRows
  rintro t i c s _ rfl
  refine ⟨fun hx hc hf hd => exec_imageStage_append t hx hc hf hd, fun img kind k staged x hx hc hkind hk hst himg hxi => ?_,
    fun k id gen kind x hr hfr hw hst hg hcons => exec_imageLoadComplete_install t hr hfr hw hst hg hcons,
    fun hx hc h1 h0 hv => exec_vocabLoad_new t hx hc h1 h0 hv, fun m hx hm hl h1 h2 h3 h4 hp => ⟨_, target_le_one _ _ _, rfl, ?_⟩⟩
  · subst hkind hk hst himg hxi
    have hctx : (s.advance t).ctx c.ctxId = s.ctx c.ctxId := of_advance t s (fun s => s.ctx c.ctxId) fun _ => rfl
    rw [exec_imageInstall_ok t hx hc]
    simp only [State.startInstall, hctx]
  · obtain ⟨n, hn, -⟩ := advance_eq t s
    rw [hn]
    exact op_ok hx hn _ _ true true (normCheck_of hm hl h1 h2 h3 h4 hp)

/-! ### Adapters -/

theorem ownedSlot_pins {s : State} {c : ExecCmd} {a : AdapterSlot}
    (hp : ∀ v ∈ a.versions, s.adapterPinCount c.adapterSlot v.version = 0) :
    (a.versions.any fun v => s.adapterPinCount c.adapterSlot v.version != 0) = false := by
  simpa using hp

/-- Settles O30: the owned slot is the one that the checks and the effect read. -/
theorem adapterRows : Obligations.AdapterRows := by
  unfold Obligations.AdapterRows
  rintro t i c s _ rfl
  have hslot : (s.advance t).ownedSlot c = s.ownedSlot c := of_advance t s (fun s => s.ownedSlot c) fun _ => rfl
  have hadapters : (s.advance t).adapters = s.adapters := of_advance t s State.adapters fun _ => rfl
  refine ⟨fun k hx ho hk => ?_, fun a hx ha hr hp => ?_, fun v hx hv => ?_, fun a v hx ha hv hw => ?_⟩
  · obtain ⟨n, hn, -⟩ := advance_eq t s
    rw [hn]
    have hk' : State.freeSlot { s with count := n } = some k := hk
    refine (op_ok hx hn _ _ true true (firstFail_of_pass ho (firstFail_of_pass (by rw [hk']; rfl) rfl))).trans ?_
    simp only [hk']
    rfl
  · have hpins : ∀ v ∈ a.versions, (s.advance t).adapterPinCount c.adapterSlot v.version = 0 := fun v hv =>
      (of_advance t s (fun s => s.adapterPinCount c.adapterSlot v.version) fun _ => rfl).trans (hp v hv)
    refine (opcode_of hx t _ _ true true ?_).trans ?_
    · simp only [hslot, ha, ownedSlot_pins hpins, Nat.not_lt.mpr hr]
      rfl
    · simp only [hslot, ha, hadapters, if_true]
  · subst hv
    have hctx : (s.advance t).ctx c.ctxId = s.ctx c.ctxId := of_advance t s (fun s => s.ctx c.ctxId) fun _ => rfl
    refine congrArg Host.Outcome.next ((command_of hx t _).trans ?_)
    simp only [ne_eq, ite_not, hctx]
  · refine (opcode_of hx t _ _ true true ?_).trans ?_
    · simp only [hslot, ha, Option.map_some, hv, hw]
      rfl
    · simp only [hadapters, if_true]

end Sys2Proof.Safety
end

section
/-! PROOFS. The fingerprint store's commands and its sweep (R104 to R106, R111). -/

namespace Sys2Proof.Safety

open Sys2Proof.Machine

/-! ### Work of the store without a poisoned page or a peer -/

theorem meetStore_of_no_poison {s : State} (h : s.poisoned = []) (ps : List Nat) : s.meetStore ps = s := by
  unfold State.meetStore
  induction ps with
  | nil => rfl
  | cons p ps ih => rw [List.foldl_cons, if_neg (by simp [h]), ih]

theorem storeSettle_of_no_poison {s : State} (h : s.poisoned = []) (k : Bool) :
    s.storeSettle k = State.active { s with store := s.store.settle k } := by
  rw [State.storeSettle, meetStore_of_no_poison h]

theorem storeRecord_of_no_poison {s : State} (h : s.poisoned = []) (k : Nat) (b : Bytes) :
    s.storeRecord k b = ({ s with store := { (s.store.record k b).1 with lost := s.store.lost } }, (s.store.record k b).2.1) := by
  have hl : s.store.lost ++ s.poisoned = s.store.lost := by rw [h, List.append_nil]
  unfold State.storeRecord
  rw [meetStore_of_no_poison h]
  dsimp only
  rw [hl]
  refine Prod.ext ?_ rfl
  apply meetStore_of_no_poison
  exact h

theorem toPeers_of_no_peer {s : State} (h : s.store.peers = []) (ms : List DriftMsg) : s.toPeers ms = s := by
  simp [State.toPeers, h]

theorem replaceLost_of_none {s : State} (hp : s.poisoned = []) (hl : s.store.lost = []) (ps : List Nat) :
    (s.meetStore ps).store.lost.foldl (fun s p => s.replaceLost p) (s.meetStore ps) = s := by
  rw [meetStore_of_no_poison hp, hl]
  rfl

/-! ### The sweep (R106) -/

theorem exec_fpSweepComplete_done {s : State} (hr : Ready s) (he : s.store.epoch = .sweeping)
    (ha : ∀ p ∈ s.items, s.store.effect ≤ p.2.stamp ∨ p.2.answered = true) (t : Nat) :
    exec (.fpSweepComplete t) s = .next (s.advance t).sweepDone.startForwarded := by
  obtain ⟨n, hn, -⟩ := advance_eq t s
  refine congrArg Host.Outcome.next ((run_of_ready hr t _).trans (if_pos ?_))
  rw [hn]
  refine ⟨he, ?_⟩
  change (!(s.items.any fun p => decide (p.2.stamp < s.store.effect) && !p.2.answered)) = true
  simpa [Decidable.or_iff_not_imp_left] using ha

theorem exec_fpSweepComplete_waits {s : State} (hr : Ready s)
    (ha : ∃ p ∈ s.items, p.2.stamp < s.store.effect ∧ p.2.answered = false) (t : Nat) :
    exec (.fpSweepComplete t) s = .next (s.advance t) := by
  obtain ⟨n, hn, -⟩ := advance_eq t s
  refine congrArg Host.Outcome.next ((run_of_ready hr t _).trans (if_neg ?_))
  rw [hn]
  rintro ⟨-, hw⟩
  change (!(s.items.any fun p => decide (p.2.stamp < s.store.effect) && !p.2.answered)) = true at hw
  obtain ⟨p, hp, h1, h2⟩ := ha
  simp only [Bool.not_eq_true', List.any_eq_false, Bool.and_eq_true, decide_eq_true_eq, Bool.not_eq_true', not_and] at hw
  exact hw p hp h1 h2

theorem sweepDone_store {s : State} (h : s.poisoned = []) : s.sweepDone.store = s.store.settle true := by
  rw [State.sweepDone, storeSettle_of_no_poison h]
  rfl

/-! ### The commands -/

section Commands
variable {s : State} {i : Inst} {c : ExecCmd} (t : Nat)

theorem exec_fpEpochOpen_ok (hx : Executing s 0x0401 i c) (he : s.store.epoch = .idle) (hf : s.store.forwarded = []) (hl : s.store.lost = [])
    (hp : s.poisoned = []) (ha : ∀ q ∈ maskPorts (c.arg 0x18 1), (s.driftPort q).link = .active) :
    exec (.fpEpochOpen t i) s = .next (State.complete c ⟨E.ok, (s.advance t).count, leBytes 4 ((s.storeEpoch + 1) % 2 ^ 32), none⟩
      (State.bumpConfig { s.advance t with store := { s.store with
        epoch := .opened, fromPeer := false, records := 0, touched := [], peers := maskPorts (c.arg 0x18 1) } })) := by
  have hdrift : ∀ q, (s.advance t).driftPort q = s.driftPort q := fun q => of_advance t s (fun s => s.driftPort q) fun _ => rfl
  have hepoch : (s.advance t).storeEpoch = s.storeEpoch := of_advance t s State.storeEpoch fun _ => rfl
  have hkeep := replaceLost_of_none (s := s.advance t) (by rw [advance_poisoned, hp]) (by rw [advance_store, hl])
  refine (opcode_of hx t _ _ true true (firstFail_of_pass ?_ (firstFail_of_pass ?_ rfl))).trans ?_
  · simp [advance_store, he, hf]
  · rw [List.any_eq_false]
    intro q hq
    simp [hdrift, ha q hq]
  · dsimp only
    rw [hkeep, advance_store, hepoch]
    rfl

theorem exec_fpUpdate_ok {rs : List Bytes} (hx : Executing s 0x0402 i c) (hrs : fpRecords c.payload = rs) (ho : s.store.ownOpen = true)
    (hm : s.store.records + rs.length ≤ 16777216) (hb : rs.any s.recordBad = false)
    (hpeers : ((s.advance t).storeRecords rs).1.store.peers = []) :
    exec (.fpUpdate t i) s = .next (State.complete c ⟨E.ok, (s.advance t).count,
      countOf .applied ((s.advance t).storeRecords rs).2 ++ countOf .duplicate ((s.advance t).storeRecords rs).2 ++
        countOf .absent ((s.advance t).storeRecords rs).2 ++ countOf .full ((s.advance t).storeRecords rs).2 ++
        leBytes 4 ((s.advance t).storeRecords rs).1.store.records, none⟩ ((s.advance t).storeRecords rs).1.bumpConfig) := by
  subst hrs
  have hb' : (fpRecords c.payload).any (s.advance t).recordBad = false :=
    (congrArg (fpRecords c.payload).any (of_advance t s State.recordBad fun _ => rfl)).trans hb
  refine (opcode_of hx t _ _ true true (firstFail_of_pass ?_ (firstFail_of_pass hb' rfl))).trans ?_
  · rw [advance_store, ho]
    simpa using hm
  · simp only [toPeers_of_no_peer hpeers, if_true]

theorem exec_fpEpochCommit_ok (hx : Executing s 0x0403 i c) (ho : s.store.ownOpen = true) (hp : s.store.peers = []) :
    exec (.fpEpochCommit t i) s = .next (State.complete c ⟨E.ok, (s.advance t).count, leBytes 4 ((s.storeEpoch + 1) % 2 ^ 32), none⟩
      (State.bumpConfig { s.advance t with
        storeEpoch := (s.storeEpoch + 1) % 2 ^ 32
        store := { s.store with epoch := .sweeping, effect := (s.advance t).count, peers := [], fromPeer := false } })) := by
  obtain ⟨n, hn, -⟩ := advance_eq t s
  refine (op_ok hx hn _ _ true true (firstFail_of_pass (by simp [ho]) rfl)).trans ?_
  rw [hn]
  simp only [toPeers_of_no_peer (s := { s with count := n }) hp, State.fpCommit, if_true]

theorem exec_fpEpochAbort_ok (hx : Executing s 0x0404 i c) (ho : s.store.ownOpen = true) (hp : s.store.peers = [])
    (hz : s.poisoned = []) :
    exec (.fpEpochAbort t i) s = .next (State.complete c ⟨E.ok, (s.advance t).count, [], none⟩
      (State.bumpConfig (State.startForwarded (State.active { s.advance t with store := s.store.settle false })))) := by
  obtain ⟨n, hn, -⟩ := advance_eq t s
  refine (op_ok hx hn _ _ true true (firstFail_of_pass (by simp [ho]) rfl)).trans ?_
  rw [hn]
  simp only [toPeers_of_no_peer (s := { s with count := n }) hp, storeSettle_of_no_poison (s := { s with count := n }) hz, if_true]

end Commands

/-- Settles O32: an epoch is opened, filled, committed or aborted by its own command, and the sweep ends by the items' answers. -/
theorem fingerprintRows : Obligations.FingerprintRows := by
  unfold Obligations.FingerprintRows
  rintro t i c s _ rfl
  refine ⟨fun hx he hf hl hp ha => exec_fpEpochOpen_ok t hx he hf hl hp ha, ?_, ?_, fun hx ho hp => exec_fpEpochCommit_ok t hx ho hp,
    fun hx ho hp hz => exec_fpEpochAbort_ok t hx ho hp hz, fun hr he ha => ⟨exec_fpSweepComplete_done hr he ha t, fun hz => ?_⟩,
    fun hr _ ha => exec_fpSweepComplete_waits hr ha t⟩
  · rintro rs _ hx hrs ho hm hb rfl hp
    exact exec_fpUpdate_ok t hx hrs ho hm hb hp
  · rintro k b _ hz rfl
    have h := storeRecord_of_no_poison (s := s.advance t) (by rw [advance_poisoned, hz]) k b
    rwa [advance_store] at h
  · rw [sweepDone_store (by rw [advance_poisoned, hz]), advance_store]

end Sys2Proof.Safety
end

section
/-! PROOFS. Peers (R301, R302, R341) and admission (R23, R31, R34, R36). -/

namespace Sys2Proof.Safety

open Sys2Proof.Machine

/-! ### Admission -/

/-- A stream that is admitted without a restore is one new entry, at the lowest FREE id (R34). -/
theorem admitStream_of_no_restore {s : State} {r : AdmitReq} {sid : Nat} (hf : s.freeEntry = some sid) (hm : r.mode ≠ 2) :
    ∃ st : Stream, s.admitStream r = ({ s with streams := tset s.streams sid st, freshCtr := s.freshCtr + 1 }, sid, if r.mode = 0 then 0 else 1) ∧
      st.e = Entry.admitted r s.count (s.ctx r.ctx).pinsNow (s.adapterPinsNow r.ctx (s.ctx r.ctx).pinsNow)
        (if setting (s.ctx r.ctx).settings Setting.hotPolicy = 0 then s.freeHot else none) false false := by
  unfold State.admitStream
  rw [hf]
  simp only [hm, if_false, beq_eq_false_iff_ne.mpr hm, Bool.false_and, Bool.false_eq_true]
  exact ⟨_, rfl, rfl⟩

theorem admitStream_id {s : State} {sid : Nat} (hf : s.freeEntry = some sid) (r : AdmitReq) : (s.admitStream r).2.1 = sid := by
  unfold State.admitStream
  rw [hf]

section Packet
variable {s : State} {port : Nat} {p : Bytes} (h : Arrives s port 1 p) (t : Nat)
include h

/-- An ADMIT packet is answered by the checks of R31 on the state in which it is taken. -/
theorem exec_admitPacket : exec (.admitPacket t port p) s = .next (
    let v := taken s t port p
    let r := AdmitReq.ofPacket (s.portDomain port) port p
    if v.admitCheck r = 0 then
      (v.admitStream r).1.handOff ⟨s.portDomain port, port, r.ctx, some (v.admitStream r).2.1, 0, 0,
        admissionAnswer port v.count (v.admitStream r).2.1 0 (v.admitStream r).2.2 (field p 0x16 2)⟩
    else v.handOff ⟨s.portDomain port, port, 0, none, 0, 0, admissionAnswer port v.count 0 (v.admitCheck r) 0 (field p 0x16 2)⟩) :=
  congrArg Host.Outcome.next (inbound_of h (by decide) t _)

/-- An ADMIT packet that passes R31 on the state in which it is taken is admitted and answered with its stream. -/
theorem exec_admitPacket_pass (hc : (taken s t port p).admitCheck (AdmitReq.ofPacket (s.portDomain port) port p) = 0) :
    exec (.admitPacket t port p) s = .next (
      ((taken s t port p).admitStream (AdmitReq.ofPacket (s.portDomain port) port p)).1.handOff
        ⟨s.portDomain port, port, (AdmitReq.ofPacket (s.portDomain port) port p).ctx,
          some ((taken s t port p).admitStream (AdmitReq.ofPacket (s.portDomain port) port p)).2.1, 0, 0,
          admissionAnswer port (taken s t port p).count ((taken s t port p).admitStream (AdmitReq.ofPacket (s.portDomain port) port p)).2.1 0
            ((taken s t port p).admitStream (AdmitReq.ofPacket (s.portDomain port) port p)).2.2 (field p 0x16 2)⟩) := by
  rw [exec_admitPacket h t]
  generalize taken s t port p = v at hc
  exact congrArg Host.Outcome.next (if_pos hc)

/-- One that fails is answered with the code of its check. -/
theorem exec_admitPacket_fail (hc : (taken s t port p).admitCheck (AdmitReq.ofPacket (s.portDomain port) port p) ≠ 0) :
    exec (.admitPacket t port p) s = .next ((taken s t port p).handOff ⟨s.portDomain port, port, 0, none, 0, 0,
      admissionAnswer port (taken s t port p).count 0
        ((taken s t port p).admitCheck (AdmitReq.ofPacket (s.portDomain port) port p)) 0 (field p 0x16 2)⟩) := by
  rw [exec_admitPacket h t]
  generalize taken s t port p = v at hc
  exact congrArg Host.Outcome.next (if_neg hc)

end Packet

/-- Settles O28: the arbiter writes one entry for a request that passes; a refusal leaves the stream table. -/
theorem admissionRows : Obligations.AdmissionRows := by
  unfold Obligations.AdmissionRows
  refine ⟨fun s r sid _ hf hm => ?_, ?_, ?_⟩
  · obtain ⟨st, hs, he⟩ := admitStream_of_no_restore hf hm
    refine ⟨_, hs, rfl, fun k hk => tget_tset_ne _ _ hk, st, tget_tset_self _ _ _, ?_⟩
    rw [he]
    exact ⟨rfl, rfl, rfl, rfl, rfl, rfl, rfl, rfl, rfl, rfl, rfl, rfl, rfl, rfl⟩
  · rintro t port p s _ ha rfl
    refine ⟨?_, ?_⟩
    · intro hc a hadm
      rw [hadm]
      exact exec_admitPacket_pass ha t hc
    · rintro _ rfl hc
      refine ⟨_, exec_admitPacket_fail ha t hc, ?_, rfl⟩
      rw [txOnly_handOff]
      exact (taken_streams s t port p).1
  · rintro t i c s _ sid rfl hx hc hf hm
    have hf' : (s.advance t).freeEntry = some sid := (of_advance t s State.freeEntry fun _ => rfl).trans hf
    obtain ⟨st, hs, -⟩ := admitStream_of_no_restore hf' hm
    refine (opcode_of hx t _ _ false true hc).trans ?_
    simp only [hs]
    rfl

/-! ### Peers -/

/-- The checks of DRIFT_PEER_STATE: an OP of Table 14.16, and another device than this one. -/
theorem peerCheck_of {c : ExecCmd} {s : State} (ho : c.arg 0x19 1 ≤ 2) (hd : c.arg 0x18 1 ≠ s.routing.device) :
    firstFail [(decide (2 < c.arg 0x19 1), E.field), (c.arg 0x18 1 == s.routing.device, E.range)] = E.ok :=
  firstFail_of_pass (by simpa using ho) (firstFail_of_pass (by simpa using hd) rfl)

theorem dropReplicas_replicas (p : Replica → Bool) (s : State) : (s.dropReplicas p).replicas = s.replicas.filter fun r => !p r := by
  unfold State.dropReplicas
  rw [pagesOnly_release]

section Commands
variable {s : State} {i : Inst} {c : ExecCmd} (t : Nat)

/-- What a peer command does by its OP. -/
theorem exec_driftPeerState_ok {k : Nat} (hx : Executing s 0x0800 i c) (ho : c.arg 0x19 1 = k) (hk : k ≤ 2) (hd : c.arg 0x18 1 ≠ s.routing.device) :
    exec (.driftPeerState t i) s = .next (State.complete c ⟨E.ok, (s.advance t).count, [], none⟩ (State.bumpConfig
      (match (generalizing := false) k with
        | 0 => (s.advance t).setDead (c.arg 0x18 1) false
        | 1 => (s.advance t).setDead (c.arg 0x18 1) true
        | _ => (s.advance t).forget (c.arg 0x18 1)))) := by
  have hr : (s.advance t).routing = s.routing := of_advance t s State.routing fun _ => rfl
  refine (opcode_of hx t _ _ true true ?_).trans ?_
  · exact peerCheck_of (ho ▸ hk) (by rw [hr]; exact hd)
  · subst ho
    rfl

theorem exec_snapshotMigrate_ok {n : Snapshot} (hx : Executing s 0x0801 i c) (hb : s.ctxBad c c.ctxId = false)
    (hst : (s.ctx c.ctxId).state = .opened ∨ (s.ctx c.ctxId).state = .closing) {q : Nat} (hd : c.arg 0x1A 1 ≠ s.routing.device)
    (hq : s.portTo (c.arg 0x1A 1) = some q) (hn : s.snapshot c.ctxId (c.arg 0x20 8) = some n) (hp : ∀ p ∈ n.pages, p ∉ s.poisoned) :
    exec (.snapshotMigrate t i) s = .next ((s.advance t).startMigrate c n) := by
  obtain ⟨m, hm, -⟩ := advance_eq t s
  refine (op_cmd hx hm _).trans (congrArg Host.Outcome.next ?_)
  rw [hm]
  have hn' : State.snapshot { s with count := m } c.ctxId (c.arg 0x20 8) = some n := hn
  dsimp only
  rw [if_neg, hn']
  · refine if_neg ?_
    simpa using hp
  · refine not_not_intro (firstFail_of_pass ?_ (firstFail_of_pass ?_ rfl))
    · change (s.ctxBad c c.ctxId || !((s.ctx c.ctxId).state == .opened || (s.ctx c.ctxId).state == .closing)) = false
      rcases hst with hst | hst <;> simp [hb, hst]
    · change (c.arg 0x1A 1 == s.routing.device || (s.portTo (c.arg 0x1A 1)).isNone) = false
      simp [hd, hq]

theorem startMigrate_of_port {n : Snapshot} {q : Nat} (hq : s.portTo (c.arg 0x1A 1) = some q) (v : State)
    (hv : v = ({ s with nextXfer := s.nextXfer + 1 }).driftSend q
      (snapMsgs (s.ctx n.ctx).gen s.nextXfer n (s.pinDigests n.ctx n.imagePins n.adapterPins) s.count)) :
    s.startMigrate c n = State.pump pumpFuel { v with
      insts := (v.modInst c.inst fun x => { x with working := some ⟨c, .migrate (c.arg 0x1A 1) s.nextXfer n.ctx, 0⟩ }).insts
      foreman := { v.foreman with exec := none } } := by
  unfold State.startMigrate
  simp only [hq, ← hv, State.modInst]

theorem exec_snapshotMigrateOutcome {k : ExecCmd} {a b d e code : Nat} (hu : Up s) (hr : s.foreman.restarting = false)
    (hw : (s.inst i).working = some ⟨k, .migrate a b d, e⟩) (hc : code ∈ [E.ok, E.context, E.handle, E.capacity, E.transfer]) :
    exec (.snapshotMigrateOutcome t i code) s = .next ((s.advance t).endWork i (Answer.fail code)) := by
  obtain ⟨n, hn, -⟩ := advance_eq t s
  refine congrArg Host.Outcome.next ((live_of_up hu t _).trans ?_)
  rw [hn]
  have hw' : (State.inst { s with count := n } i).working = some ⟨k, .migrate a b d, e⟩ := hw
  rw [hw']
  exact if_pos ⟨by simp [hr], List.contains_iff_mem.2 hc⟩

theorem endWork_of {w : Working} (hw : (s.inst i).working = some w) (a : Answer) :
    s.endWork i a = State.pump pumpFuel { (s.postCompletion w.cmd a).modInst i fun x => { x with working := none } with lastActivity := s.count } := by
  unfold State.endWork
  rw [hw]

theorem exec_streamTakeover_ok {r : Replica} {sid : Nat} (hx : Executing s 0x0802 i c) (hc : (s.advance t).takeCheck c = 0)
    (hr : s.replicaOf c = some r) (hf : s.freeEntry = some sid) :
    exec (.streamTakeover t i) s = .next (State.complete c
      ⟨E.ok, (s.advance t).count, leBytes 4 sid ++ leBytes 4 r.pos ++ leBytes 4 (r.pos + c.tokenCount), none⟩
      (State.dropReplicas (fun q => q == r) (State.restoreFrom sid r.ckpt
        (((List.range (takeTokens c).length).map (· + r.pos)).zip (takeTokens c))
        (State.modStream sid (Stream.fromReplica r (takeTokens c) (c.arg 0x20 4)) ((s.advance t).admitStream (takeReq c r)).1)))) := by
  have hr' : (s.advance t).replicaOf c = some r := (of_advance t s (fun s => s.replicaOf c) fun _ => rfl).trans hr
  have hf' : (s.advance t).freeEntry = some sid := (of_advance t s State.freeEntry fun _ => rfl).trans hf
  refine (opcode_of hx t _ _ false true hc).trans ?_
  simp only [hr', State.takeOver, admitStream_id hf', Bool.false_eq_true, if_false, if_true]

end Commands

/-- Settles O20: PEER_STATE acts by its OP, a migration starts and waits, a takeover is an admission and a restore. -/
theorem peerRows : Obligations.PeerRows := by
  unfold Obligations.PeerRows
  rintro t i c s _ rfl
  have hdead : (s.advance t).dead = s.dead := of_advance t s State.dead fun _ => rfl
  refine ⟨fun dev hx hdev hd => ?_, fun peer q n hx hb hst hpeer hd hq hn hp => ?_, fun code k a b d e hu hr hw hc => ?_,
    fun r sid hx hc hr hf => ⟨_, _, rfl, rfl, exec_streamTakeover_ok t hx hc hr hf⟩⟩
  · subst hdev
    refine ⟨fun ho => ⟨_, exec_driftPeerState_ok t hx ho (by decide) hd, ?_⟩, fun ho => ⟨_, exec_driftPeerState_ok t hx ho (by decide) hd, ?_⟩,
      fun ho => ⟨_, exec_driftPeerState_ok t hx ho (by decide) hd, ?_⟩⟩
    · rw [← hdead]; rfl
    · rw [← hdead]; rfl
    · refine (dropReplicas_replicas _ _).trans ?_
      rw [of_advance t s State.replicas fun _ => rfl]
      rfl
  · subst hpeer
    obtain rfl := hx.inst_eq
    have hq' : (s.advance t).portTo (c.arg 0x1A 1) = some q := (of_advance t s (fun s => s.portTo (c.arg 0x1A 1)) fun _ => rfl).trans hq
    have hx1 : (s.advance t).nextXfer = s.nextXfer := of_advance t s State.nextXfer fun _ => rfl
    have hctx : (s.advance t).ctx n.ctx = s.ctx n.ctx := of_advance t s (fun s => s.ctx n.ctx) fun _ => rfl
    have hdig : (s.advance t).pinDigests n.ctx n.imagePins n.adapterPins = s.pinDigests n.ctx n.imagePins n.adapterPins :=
      of_advance t s (fun s => s.pinDigests n.ctx n.imagePins n.adapterPins) fun _ => rfl
    refine ⟨exec_snapshotMigrate_ok t hx hb hst hd hq hn hp, _, rfl, ?_⟩
    have h := startMigrate_of_port (c := c) (n := n) hq' _ rfl
    rw [hx1, hctx, hdig] at h
    exact h
  · refine ⟨exec_snapshotMigrateOutcome t hu hr hw hc, ?_⟩
    have hw' : ((s.advance t).inst i).working = some ⟨k, .migrate a b d, e⟩ :=
      (of_advance t s (fun s => (s.inst i).working) fun _ => rfl).trans hw
    exact endWork_of hw' _

end Sys2Proof.Safety
end

section
/-! PROOFS. The management endpoint: SPDM, MCTP and I3C, the test access port, bundles, reports and Ashpit fetches (R351, R383 to R394, R411). -/

namespace Sys2Proof.Safety

open Sys2Proof.Machine

/-- What neither the count, the power mode nor the last activity reaches is in the state of an access what it was before. -/
theorem of_windowed {α : Type} (t : Nat) (s : State) (f : State → α) (h : ∀ n p a, f { s with count := n, power := p, lastActivity := a } = f s) :
    f (windowed s t) = f s := by
  obtain ⟨n, p, hw, -, -⟩ := windowed_eq s t
  rw [hw, h]

@[simp] theorem windowed_mgmt (s : State) (t : Nat) : (windowed s t).mgmt = s.mgmt := of_windowed t s State.mgmt fun _ _ _ => rfl
@[simp] theorem windowed_out (s : State) (t : Nat) : (windowed s t).out = s.out := of_windowed t s State.out fun _ _ _ => rfl
@[simp] theorem windowed_boot (s : State) (t : Nat) : (windowed s t).boot = s.boot := of_windowed t s State.boot fun _ _ _ => rfl
@[simp] theorem windowed_fuses (s : State) (t : Nat) : (windowed s t).fuses = s.fuses := of_windowed t s State.fuses fun _ _ _ => rfl
@[simp] theorem windowed_ashpit (s : State) (t : Nat) : (windowed s t).ashpit = s.ashpit := of_windowed t s State.ashpit fun _ _ _ => rfl
@[simp] theorem windowed_reports (s : State) (t : Nat) : (windowed s t).reports = s.reports := of_windowed t s State.reports fun _ _ _ => rfl
@[simp] theorem windowed_freshCtr (s : State) (t : Nat) : (windowed s t).freshCtr = s.freshCtr := of_windowed t s State.freshCtr fun _ _ _ => rfl
@[simp] theorem advance_mgmt (t : Nat) (s : State) : (s.advance t).mgmt = s.mgmt := of_advance t s State.mgmt fun _ => rfl
@[simp] theorem advance_out (t : Nat) (s : State) : (s.advance t).out = s.out := of_advance t s State.out fun _ => rfl
@[simp] theorem advance_fuses (t : Nat) (s : State) : (s.advance t).fuses = s.fuses := of_advance t s State.fuses fun _ => rfl
@[simp] theorem advance_porst (t : Nat) (s : State) : (s.advance t).porst = s.porst := of_advance t s State.porst fun _ => rfl

/-! ### The test access port (R411) -/

/-- Settles O59: each row of the port loads its instruction and shifts its register out. -/
theorem testPortRows : Obligations.TestPortRows := by
  unfold Obligations.TestPortRows
  intro t s
  have reset (x : State) : x.tapReset = { x with mgmt := { x.mgmt with jtag := "IDCODE" } } := rfl
  have tap (i : String) (v : Option (BitVec 32)) : (s.advance t).tap i v =
      { s.advance t with mgmt := { s.mgmt with jtag := i }, out := s.out ++ [.tdo i v] } := by
    simp only [State.tap, advance_mgmt, advance_out]
  refine ⟨?_, ?_, ?_, ?_, ⟨_, congrArg Host.Outcome.next (tap _ _)⟩, ?_⟩
  · exact congrArg Host.Outcome.next ((reset _).trans (by rw [advance_mgmt]))
  · exact congrArg Host.Outcome.next ((reset _).trans (by rw [advance_mgmt]))
  · refine congrArg Host.Outcome.next ((tap _ _).trans ?_)
    rw [State.idcode]
  · exact congrArg Host.Outcome.next (tap _ _)
  · refine congrArg Host.Outcome.next ((tap _ _).trans ?_)
    rw [advance_porst]

/-! ### MCTP control and I3C (R383) -/

/-- Settles O58: each request that has its form is answered, and sets the address that it assigns. -/
theorem endpointRows : Obligations.EndpointRows := by
  unfold Obligations.EndpointRows
  intro t s h
  have answer (f : State → State) {u : State} (hf : f (windowed s t) = u) : done (s.managed t f) = .next u :=
    congrArg Host.Outcome.next ((managed_of h t f).trans hf)
  refine ⟨fun op eid hop h8 h254 => ?_, ?_, fun k hk => ?_, ?_, ?_, fun a ha => ⟨?_, ?_⟩⟩
  · refine answer _ ((if_pos ⟨hop, h8, h254⟩).trans ?_)
    simp only [State.emit, windowed_mgmt, windowed_out]
    rfl
  · refine answer _ ?_
    simp only [State.emit, windowed_mgmt, windowed_out]
    rfl
  · refine answer _ ((if_pos hk).trans ?_)
    simp only [State.emit, windowed_out]
    rfl
  · refine answer _ ?_
    simp only [State.emit, windowed_out]
    rfl
  · refine answer _ ((if_pos rfl).trans ?_)
    simp only [State.emit, windowed_out]
    rfl
  · refine answer _ ((if_neg (by simp [ha])).trans ?_)
    simp only [State.emit, windowed_mgmt, windowed_out, windowed_fuses]
  · refine answer _ ((if_neg (by simp [ha])).trans ?_)
    simp only [State.emit, windowed_mgmt, windowed_out]

/-! ### SPDM (R392 to R394) -/

/-- A request before its time is answered with UnexpectedRequest (R393). -/
theorem spdm_unexpected {s : State} (h : Managed s) (t v : Nat) (hv : v = 0x11 ∨ v = 0x12) (r : State → Bool) (f : State → State)
    (hr : r (windowed s t) = false) : s.spdm t v r f = (windowed s t).spdmError Spdm.unexpected := by
  unfold State.spdm
  rw [managed_of h, if_neg (by omega), if_pos (by rw [hr]; decide)]

/-- Settles O57: each exchange of the order negotiated answers what DSP0274's message carries. -/
theorem spdmRows : Obligations.SpdmRows := by
  unfold Obligations.SpdmRows
  intro t s h
  refine ⟨fun v => ?_, fun v hv hr => ?_, fun v hv hr => ?_, fun v asym hash hv hr ha hh => ?_, fun v hv hr => ?_⟩
  · refine congrArg Host.Outcome.next ((managed_of h t _).trans ?_)
    simp only [State.emit, windowed_mgmt, windowed_out]
    rfl
  · refine congrArg Host.Outcome.next ((spdm_of h t v hv _ _ (by simpa using hr)).trans ?_)
    simp only [State.emit, windowed_mgmt, windowed_out]
  · refine congrArg Host.Outcome.next ((spdm_unexpected h t v hv _ _ (by simpa using hr)).trans ?_)
    simp only [State.spdmError, State.emit, windowed_out]
    rfl
  · refine congrArg Host.Outcome.next ((spdm_of h t v hv _ _ (by simpa using hr)).trans ?_)
    simp only [ha, hh, Bool.and_self, if_true, State.emit, windowed_mgmt, windowed_out]
  · have serve (f : State → State) {u : State} (hf : f (windowed s t) = u) : done (s.spdm t v (fun s => s.mgmt.spdmAlgs) f) = .next u :=
      congrArg Host.Outcome.next ((spdm_of h t v hv _ f (by simpa using hr)).trans hf)
    refine ⟨serve _ ?_, fun off len n ho hn => serve _ ((if_neg (by omega)).trans ?_), fun nonce hn => serve _ ((if_neg (by simp [hn])).trans ?_),
      fun nonce => serve _ ?_, fun seq hs => serve _ ((if_neg ?_).trans ?_)⟩
    · simp only [State.emit, windowed_out]
    · have hl : ((Config.certChain.drop off).take len).length = n := by rw [List.length_take, List.length_drop, hn]
      simp only [State.emit, windowed_out, hl]
    · simp only [State.fresh, State.emit, windowed_freshCtr, windowed_out, State.spdmSign]
    · simp only [Bool.false_and, Bool.false_eq_true, if_false, ne_eq, not_true_eq_false, false_and, if_true]
      refine (if_pos (show 1 ≤ 4096 by decide)).trans ?_
      simp only [State.emit, windowed_out]
      rfl
    · rw [windowed_mgmt]
      omega
    · simp only [State.emit, windowed_mgmt, windowed_out]

/-! ### Bundles (R385, R386, R388) -/

theorem respond_windowed (s : State) (t code status mseq : Nat) (payload : Bytes) :
    (windowed s t).respond code status mseq payload = { windowed s t with out := s.out ++ [.mgmt code status mseq payload] } := by
  rw [State.respond, State.emit, windowed_out]

/-- The form of a BUNDLE_WRITE: its reserved field is 0 and its length is that of the bytes it carries. -/
theorem bundleForm_of {p : Bytes} {len : Nat} (hl : field p 4 2 = len) (hp : p.length = 8 + len) (hz : zeroRange p 6 2 = true) :
    (zeroRange p 6 2 && decide (8 ≤ p.length) && p.length == 8 + field p 4 2) = true := by
  simp [hl, hp, hz]

/-- Settles O56: a bundle is written from its start to its end, committed when its checks pass, and reported. -/
theorem bundleRows : Obligations.BundleRows := by
  unfold Obligations.BundleRows
  refine ⟨fun t m s len h ho hl hp hz h1 h2 h3 => ?_, fun t m s off len h ho hl hp hz h1 h2 h3 hne hoff hfit => ?_,
    fun t m s h hp hb hw hs hc ha => ?_, fun t m s h hp => ?_⟩
  · refine (req_of h t _ _ (bundleForm_of hl hp hz)).trans (congrArg Host.Outcome.next ?_)
    simp only [ho, hl, if_true, List.length_nil, List.nil_append]
    rw [firstFail_of_pass (by simp; omega) (firstFail_of_pass (by simp) (firstFail_of_pass (by simp; omega) rfl))]
    simp only [E.ok, if_true, State.respond, State.emit, windowed_boot, windowed_out]
  · refine (req_of h t _ _ (bundleForm_of hl hp hz)).trans (congrArg Host.Outcome.next ?_)
    simp only [ho, hl, hne, if_false, windowed_boot, ← hoff]
    rw [firstFail_of_pass (by simp; omega) (firstFail_of_pass (by simp) (firstFail_of_pass (by simp; omega) rfl))]
    simp only [E.ok, if_true, State.respond, State.emit, windowed_out]
  · refine (req_of h t _ _ (by rw [hp]; rfl)).trans (congrArg Host.Outcome.next ?_)
    have hs' : (windowed s t).bundleSigOk s.boot.stagedBytes = true := (of_windowed t s (fun v => v.bundleSigOk s.boot.stagedBytes) fun _ _ _ => rfl).trans hs
    have hc' : (windowed s t).bundleComboOk s.boot.stagedBytes = true := (of_windowed t s (fun v => v.bundleComboOk s.boot.stagedBytes) fun _ _ _ => rfl).trans hc
    have ha' : (windowed s t).abiOffender (comboRow s.fuses.b0 (Img.version (bundleHalves s.boot.stagedBytes).1)) = none :=
      (of_windowed t s (fun v => v.abiOffender (comboRow s.fuses.b0 (Img.version (bundleHalves s.boot.stagedBytes).1))) fun _ _ _ => rfl).trans ha
    have hcode : firstFail [(s.boot.staged != .writing, E.state), (!(windowed s t).bundleSigOk s.boot.stagedBytes, E.imageSig),
        (!(windowed s t).bundleComboOk s.boot.stagedBytes, E.combo), ((none : Option (Nat × Nat × Nat)).isSome, E.imageAbi)] = 0 :=
      firstFail_of_pass (by rw [hw]; rfl) (firstFail_of_pass (by rw [hs']; rfl) (firstFail_of_pass (by rw [hc']; rfl) rfl))
    have hfirst : (!s.boot.phase == .waitCommit) = true := by rw [hb]; rfl
    simp only [windowed_boot, windowed_fuses, ha', hcode, hfirst, if_true, State.respond, State.emit, windowed_out]
  · refine (req_of h t _ _ (by rw [hp]; rfl)).trans (congrArg Host.Outcome.next ?_)
    rw [windowed_boot, respond_windowed]

/-! ### Ashpit fetches and reports (R351, R385) -/

/-- Settles O53: a fetch answers the bytes from its offset; a response takes the head, and an unanswered head goes out again. -/
theorem reportRows : Obligations.ReportRows := by
  unfold Obligations.ReportRows
  refine ⟨fun t m s r off h hp ho hf hoff => ?_, fun t s r rest h hr => ?_, fun t s r rest h hr hd => ?_⟩
  · refine ⟨(List.range (min 4096 (r.bytes - off))).map fun i => Config.captureByte r.num (off + i), _, by simp,
      req_of h t _ _ (by rw [hp]; rfl), ?_⟩
    simp only [windowed_ashpit, hf, ho, if_neg (Nat.not_le.2 hoff), State.meetAshpit, State.respond, State.emit, windowed_out]
  · refine ⟨_, congrArg Host.Outcome.next (managed_of h t _), ?_⟩
    simp only [windowed_reports, hr, ne_eq, not_true_eq_false, if_false]
    cases rest with
    | nil => exact ⟨rfl, rfl, fun _ => windowed_out s t, fun n l h => absurd h.symm (List.cons_ne_nil n l)⟩
    | cons x l =>
      refine ⟨rfl, rfl, fun h => absurd h (List.cons_ne_nil x l), fun n l' h => ?_⟩
      obtain ⟨rfl, -⟩ := List.cons.inj h
      exact congrArg (· ++ _) (windowed_out s t)
  · have hr' : (s.advance t).reports = r :: rest := (of_advance t s State.reports fun _ => rfl).trans hr
    refine ⟨_, congrArg Host.Outcome.next (live_of_up h t _), ?_⟩
    simp only [hr', advance_mgmt, advance_out, hd, if_true, and_self]

end Sys2Proof.Safety
end

section
/-! PROOFS. Clocks, resets, power, voltage and temperature, and device faults (R12, R135, R136, R359 to R381, R404 to R410). -/

namespace Sys2Proof.Safety

open Sys2Proof.Machine

/-! ### Reports and device faults -/

theorem reports_report_of_room {s : State} (h : s.reports.length < 256) (c : Nat) (d : List Nat) :
    (s.report c d).reports = s.reports ++ [⟨c, s.count, s.reportsDropped, s.reportSeq % 65536, d⟩] := by
  obtain ⟨a, b, e, f, g, hs, ha, -⟩ := rep_cases c d s
  rw [hs]
  exact ha h

@[simp] theorem report_mode (c : Nat) (d : List Nat) (s : State) : (s.report c d).mode = s.mode := congrArg Base.mode (State.report_base c d s)
@[simp] theorem report_recovery (c : Nat) (d : List Nat) (s : State) : (s.report c d).recovery = s.recovery :=
  congrArg Base.recovery (State.report_base c d s)
@[simp] theorem advance_pins (t : Nat) (s : State) : (s.advance t).pins = s.pins := of_advance t s State.pins fun _ => rfl

theorem deviceFault_mode {v : State} (hm : v.mode ≠ .banked) (hr : v.recovery = none) (c : Nat) : (v.deviceFault c).mode = .recovering :=
  (faulted_of c v v hm hr ⟨rfl, rfl, rfl, rfl, fun _ => trivial, id⟩).1

/-- A first device fault keeps the pins but for FAULT_N and CORE_VID (R359, R360). -/
theorem deviceFault_pins {v : State} (hm : v.mode ≠ .banked) (hr : v.recovery = none) (c : Nat) :
    (v.deviceFault c).pins = { v.pins with faultN := true, vid := 0 } := by
  unfold State.deviceFault
  rw [if_neg hm, hr]
  simp only [show ¬ 3 ≤ 0 by decide, if_false]
  generalize hv : State.mk .. = w
  obtain ⟨a, b, e, f, g, hs, -⟩ := rep_cases Rep.deviceFault [c, 0] w
  rw [hs, ← hv]

theorem mem_out_report {o : Out} {s : State} (h : o ∈ s.out) (c : Nat) (d : List Nat) : o ∈ (s.report c d).out := by
  unfold State.report
  split
  · exact h
  · dsimp only
    split
    · exact List.mem_append_left _ h
    · exact h

theorem mem_out_deviceFault {o : Out} {v : State} (h : o ∈ v.out) (hm : v.mode ≠ .banked) (hr : v.recovery = none) (c : Nat) :
    o ∈ (v.deviceFault c).out := by
  unfold State.deviceFault
  rw [if_neg hm, hr]
  simp only [show ¬ 3 ≤ 0 by decide, if_false]
  refine mem_out_report ?_ _ _
  exact h

section Answered
variable {s v : State} (o : Out)

/-- A device fault after an answer leaves what it leaves without one, and the answer stands. -/
theorem faulted_emit (hm : v.mode ≠ .banked) (hr : v.recovery = none) (hs : v.streams = s.streams) (hc : v.ctxs = s.ctxs)
    (ht : v.store = s.store) (hmem : v.mem = s.mem) (hl : s.reports.length < 256 → v.reports.length < 256) (c : Nat) :
    Faulted s ((v.emit o).deviceFault c) c :=
  faulted_of c s (v.emit o) hm hr ⟨hs, hc, ht, hmem, fun _ => trivial, hl⟩

theorem mem_out_deviceFault_emit (hm : v.mode ≠ .banked) (hr : v.recovery = none) (c : Nat) : o ∈ ((v.emit o).deviceFault c).out :=
  have h : o ∈ (v.emit o).out := List.mem_append_right _ (List.mem_singleton.2 rfl)
  mem_out_deviceFault (v := v.emit o) h hm hr c

end Answered

/-- Settles O19: each of the four declares the fault on a state that still has the streams, the contexts, the store and the memory. -/
theorem deviceFaultRows : Obligations.DeviceFaultRows := by
  unfold Obligations.DeviceFaultRows
  refine ⟨fun t s hu hb hm hr => ?_, fun t s m h hp hm hr => ?_, fun t s hu => ?_⟩
  · obtain ⟨n, hn, -⟩ := advance_eq t s
    have hne : s.mode ≠ .banked := by rw [hm]; decide
    refine ⟨⟨_, congrArg Host.Outcome.next ((live_of_up hu t _).trans (if_neg ?_)), ?_, ?_⟩,
      fun k => ⟨_, congrArg Host.Outcome.next ((live_of_up hu t _).trans (if_pos ?_)), ?_⟩⟩
    · rw [hn]
      simp [hb, hm]
    · rw [deviceFault_pins] <;> rw [hn]
      · exact hne
      · exact hr
    · rw [hn]
      exact faulted_of _ _ _ hne hr ⟨rfl, rfl, rfl, rfl, fun _ => trivial, id⟩
    · rw [hn]
      exact ⟨hb, hne⟩
    · rw [hn]
      exact faulted_of _ _ _ hne hr ⟨rfl, rfl, rfl, rfl, fun _ => trivial, id⟩
  · have hmode : (windowed s t).mode ≠ .banked := by
      rw [of_windowed t s State.mode fun _ _ _ => rfl, hm]
      decide
    have hrec : (windowed s t).recovery = none := (of_windowed t s State.recovery fun _ _ _ => rfl).trans hr
    have keep : (windowed s t).streams = s.streams ∧ (windowed s t).ctxs = s.ctxs ∧ (windowed s t).store = s.store ∧ (windowed s t).mem = s.mem :=
      ⟨of_windowed t s State.streams fun _ _ _ => rfl, of_windowed t s State.ctxs fun _ _ _ => rfl,
        of_windowed t s State.store fun _ _ _ => rfl, of_windowed t s State.mem fun _ _ _ => rfl⟩
    obtain ⟨h1, h2, h3, h4⟩ := keep
    have hreps : s.reports.length < 256 → (windowed s t).reports.length < 256 := by rw [windowed_reports]; exact id
    exact ⟨_, req_of h t _ _ (by rw [hp]; rfl), faulted_emit (.mgmt 0x20 0 (Msg.mseq m) []) hmode hrec h1 h2 h3 h4 hreps _,
      mem_out_deviceFault_emit _ hmode hrec _⟩
  · refine congrArg Host.Outcome.next ((live_of_up hu t _).trans ?_)
    obtain ⟨n, hn, -⟩ := advance_eq t s
    rw [hn]

/-! ### The Pilot domain (R370, R371, R404, R408) -/

/-- After a Pilot fault only the Drift PHYs' clocks may run. -/
theorem clockRuns_of_pilotFault {s : State} (hf : s.pilotFault = true) (hr : s.running = false) (k : Clock) (hk : ∀ q, k ≠ .driftPhy q) :
    s.clockRuns k = false := by
  have hc : s.fastClocks = false := by simp [State.fastClocks, hr]
  cases k with
  | driftPhy q => exact absurd rfl (hk q)
  | pilot => simp [State.clockRuns, hf]
  | deviceCount | arithRow | arithFlue | fabric | foreman | shaftPhy | stackPhy => simp [State.clockRuns, hr, hc]

/-- The reports of the Drift ports whose reference clock is absent at the count's start. -/
theorem reports_driftDown {s : State} (h : s.reports.length ≤ 253) {q : Nat} (hq : q < 3) :
    ∃ r ∈ ((List.range 3).foldl (fun s q => s.report Rep.portDown [16 + q, 0]) s).reports, r.code = Rep.portDown ∧ r.detail = [16 + q, 0] := by
  have e : (List.range 3).foldl (fun s q => State.report Rep.portDown [16 + q, 0] s) s =
      ((s.report Rep.portDown [16, 0]).report Rep.portDown [17, 0]).report Rep.portDown [18, 0] := rfl
  have h1 := reports_report_of_room (s := s) (by omega) Rep.portDown [16, 0]
  have h2 := reports_report_of_room (s := s.report Rep.portDown [16, 0]) (by rw [h1]; simp; omega) Rep.portDown [17, 0]
  have h3 := reports_report_of_room (s := (s.report Rep.portDown [16, 0]).report Rep.portDown [17, 0]) (by rw [h2, h1]; simp; omega)
    Rep.portDown [18, 0]
  rw [e, h3, h2, h1]
  obtain rfl | rfl | rfl : q = 0 ∨ q = 1 ∨ q = 2 := by omega
  · exact ⟨_, List.mem_append_left _ (List.mem_append_left _ (List.mem_append_right _ (List.mem_singleton.2 rfl))), rfl, rfl⟩
  · exact ⟨_, List.mem_append_left _ (List.mem_append_right _ (List.mem_singleton.2 rfl)), rfl, rfl⟩
  · exact ⟨_, List.mem_append_right _ (List.mem_singleton.2 rfl), rfl, rfl⟩

/-- Settles O33: the reset state, the release, the start with its reports, and the stop. -/
theorem pilotDomainRows : Obligations.PilotDomainRows := by
  unfold Obligations.PilotDomainRows
  refine ⟨fun t s => ⟨_, rfl, rfl, rfl, rfl, rfl, rfl, rfl, rfl, rfl, rfl, rfl, rfl, rfl, rfl, rfl, rfl, rfl, rfl⟩,
    fun t s h => congrArg Host.Outcome.next (if_pos h), fun t s hu hr hb => ?_, fun t s hu => ?_⟩
  · obtain ⟨hp, hf⟩ := hu
    refine ⟨fun hd => ?_, fun hd hl => ⟨_, congrArg Host.Outcome.next ((if_neg (by simp [hp, hf, hr, hb])).trans (if_neg (by simp [hd]))), ?_⟩⟩
    · exact congrArg Host.Outcome.next ((if_neg (by simp [hp, hf, hr, hb])).trans (if_pos hd))
    · refine ⟨?_, ?_, ?_, fun q hq => reports_driftDown ?_ hq⟩
      · exact (foldl_keep State.count _ (fun v q => by obtain ⟨a, b, e, f, g, hs, -⟩ := rep_cases Rep.portDown [16 + q, 0] v; rw [hs]) _ _)
      · exact (foldl_keep State.running _ (fun v q => by obtain ⟨a, b, e, f, g, hs, -⟩ := rep_cases Rep.portDown [16 + q, 0] v; rw [hs]) _ _)
      · exact (foldl_keep State.boot _ (fun v q => by obtain ⟨a, b, e, f, g, hs, -⟩ := rep_cases Rep.portDown [16 + q, 0] v; rw [hs]) _ _)
      · exact hl
  · obtain ⟨n, hn, -⟩ := advance_eq t s
    refine ⟨_, congrArg Host.Outcome.next (live_of_up hu t _), ?_, fun k hk => clockRuns_of_pilotFault rfl rfl k hk⟩
    rw [hn]

/-! ### The Hearth rows (R135, R136, R372, R373, R375) -/

/-- The state of a Hearth by the power of its row (R135, R136). -/
theorem hearthState_of {s : State} {e : Nat} {r : Row} (h : s.rows[e / 8]? = some r) :
    (r.power = .active → s.hearthState e = if s.packed e then .active else .clockGated) ∧
      (r.power = .offLocked → s.hearthState e = .rowOffLocked) ∧ (r.power = .off → s.hearthState e = .rowOff) := by
  have hp : (s.rows.map (·.power)).getD (e / 8) .off = r.power := getD_of (by rw [List.getElem?_map, h]; rfl)
  unfold State.hearthState
  simp only [hp]
  refine ⟨fun hr => ?_, fun hr => ?_, fun hr => ?_⟩ <;> simp only [hr]

theorem hearthState_of_all_off {s : State} (h : ∀ r ∈ s.rows, r.power = .off) (e : Nat) : s.hearthState e = .rowOff := by
  have hp : (s.rows.map (·.power)).getD (e / 8) .off = .off := by
    rw [List.getD_eq_getElem?_getD, List.getElem?_map]
    cases hr : s.rows[e / 8]? with
    | none => rfl
    | some r => exact h r (List.mem_of_getElem? hr)
  rw [State.hearthState, hp]

/-- With no chain and no pass no Hearth is at work, whatever its row does. -/
theorem hearthState_ne_active_of_idle {s : State} (hc : s.chains = []) (hp : s.passes = []) (e : Nat) : s.hearthState e ≠ .active := by
  have hk : s.packed e = false := by simp [State.packed, hc, hp]
  unfold State.hearthState
  split
  · decide
  · decide
  · simp [hk]

theorem exec_rowPowerGate_ok {s : State} {k : Nat} {r : Row} (h : Ready s) (hr : s.rows[k]? = some r) (hp : r.power = .active)
    (hg : s.gateRows.contains k = false) (hw : s.warmSum < s.warmPowered.length) (t : Nat) (hl : r.lastPacked + 20000 ≤ (s.advance t).count) :
    exec (.rowPowerGate t k) s =
      .next { s.advance t with rows := lmod s.rows k fun x => { x with power := if s.rowsLocked then .offLocked else .off } } := by
  obtain ⟨n, hn, -⟩ := advance_eq t s
  refine congrArg Host.Outcome.next ((run_of_ready h t _).trans ?_)
  rw [hn] at hl ⊢
  simp only [hr]
  exact if_pos ⟨hp, (by rw [show State.gateRows { s with count := n } = s.gateRows from rfl, hg]; rfl), hw, hl⟩

/-- Settles O34: a row is gated, wakes or goes off with the others; the state of a Hearth is that of its row. -/
theorem rowPowerRows : Obligations.RowPowerRows := by
  unfold Obligations.RowPowerRows
  refine ⟨fun t k s r h hr hp hg hw hl => exec_rowPowerGate_ok h hr hp hg hw t hl, fun t k s r h hr hw => ?_, fun t s h hp hi ha => ?_,
    fun s e r hr => ⟨fun hp hk => ?_, fun hp hk => ?_, fun hp => ?_⟩, fun s k hc hp => ⟨?_, ?_⟩⟩
  · have hrows : (s.advance t).rows = s.rows := of_advance t s State.rows fun _ => rfl
    refine ⟨_, congrArg Host.Outcome.next (run_of_ready h t _), rfl, ?_, fun j hj => ?_⟩ <;> dsimp only <;> rw [hrows, lmod_of hr]
    · rw [List.getElem?_set_self (List.getElem?_eq_some_iff.1 hr).1, if_pos hw]
    · rw [List.getElem?_set_ne (Ne.symm hj)]
  · obtain ⟨n, hn, -⟩ := advance_eq t s
    refine ⟨_, congrArg Host.Outcome.next ((run_of_ready h t _).trans (if_pos ?_)), rfl, fun r hr => ?_, fun e => hearthState_of_all_off (fun r hr => ?_) e, ?_⟩
    · rw [hn] at ha ⊢
      exact ⟨hp, hi, ha⟩
    · obtain ⟨q, -, rfl⟩ := List.mem_map.1 hr
      exact ⟨rfl, rfl⟩
    · obtain ⟨q, -, rfl⟩ := List.mem_map.1 hr
      rfl
    · simp [State.fastClocks]
  · exact ((hearthState_of hr).1 hp).trans (if_pos hk)
  · exact ((hearthState_of hr).1 hp).trans (if_neg (by rw [hk]; decide))
  · cases hpow : r.power with
    | active => exact absurd hpow hp
    | off => rw [(hearthState_of hr).2.2 hpow]; exact ⟨EngineState.noConfusion, EngineState.noConfusion⟩
    | offLocked => rw [(hearthState_of hr).2.1 hpow]; exact ⟨EngineState.noConfusion, EngineState.noConfusion⟩
  · have : ((List.range 8).any fun j => s.hearthState (8 * k + j) == .active) = false := by
      rw [List.any_eq_false]
      intro j _
      simp [hearthState_ne_active_of_idle hc hp]
    rw [State.clockRuns, this, Bool.and_false]
  · simp [State.clockRuns, hp]

/-! ### Voltage and temperature (R364, R365, R380, R381) -/

theorem foldl_max_lt {b : Int} (l : List Int) : ∀ x, x < b → (∀ y ∈ l, y < b) → l.foldl max x < b := by
  induction l with
  | nil => exact fun x hx _ => hx
  | cons y l ih =>
    intro x hx h
    exact ih _ (max_lt hx (h y List.mem_cons_self)) fun z hz => h z (List.mem_cons_of_mem _ hz)

theorem le_foldl_max (l : List Int) : ∀ x y, (y = x ∨ y ∈ l) → y ≤ l.foldl max x := by
  induction l with
  | nil => rintro x y (rfl | h); exacts [Int.le_refl _, nomatch h]
  | cons z l ih =>
    rintro x y (rfl | h)
    · exact (Int.le_max_left _ z).trans (ih _ _ (.inl rfl))
    · rcases List.mem_cons.1 h with rfl | h
      · exact (Int.le_max_right x _).trans (ih _ _ (.inl rfl))
      · exact ih _ _ (.inr h)

theorem hottest_lt {s : State} {b : Int} (hne : s.pins.sites ≠ []) (h : ∀ x ∈ s.pins.sites, x < b) : s.hottest < b := by
  cases hs : s.pins.sites with
  | nil => exact absurd hs hne
  | cons x l =>
    rw [hs] at h
    rw [State.hottest, hs]
    exact foldl_max_lt _ _ (h x List.mem_cons_self) h

theorem le_hottest {s : State} {x : Int} (h : x ∈ s.pins.sites) : x ≤ s.hottest := le_foldl_max _ _ _ (.inr h)

theorem forall_reading {v : List (Option Int × Option Int)} (hv : v.length = 128) {b : Int} (h : ∀ k, k < 128 → siteReading (v.getD k (none, none)) < b) :
    ∀ x ∈ v.map siteReading, x < b := by
  intro x hx
  obtain ⟨p, hp, rfl⟩ := List.mem_map.1 hx
  obtain ⟨k, hk, rfl⟩ := List.getElem_of_mem hp
  have := h k (hv ▸ hk)
  rwa [getD_of (List.getElem?_eq_getElem hk)] at this

theorem getD_mem_readings {v : List (Option Int × Option Int)} {k : Nat} (hk : k < v.length) :
    siteReading (v.getD k (none, none)) ∈ v.map siteReading := by
  rw [getD_of (List.getElem?_eq_getElem hk)]
  exact List.mem_map_of_mem (List.getElem_mem hk)

/-- What a sample does to the pins besides the readings: the two voltage flags and the count of cooling. -/
theorem pins_sampled (p : Pins) (now : Nat) (cool hot : Int) : ∃ a b c, (p.coldStep now cool).coolStep now hot = { p with cold := a, above35 := b, below100 := c } := by
  have h : ∃ a b, p.coldStep now cool = { p with cold := a, above35 := b } := by
    unfold Pins.coldStep
    split
    · exact ⟨_, _, rfl⟩
    · split
      · dsimp only
        split <;> exact ⟨_, _, rfl⟩
      · exact ⟨_, _, rfl⟩
  obtain ⟨a, b, h⟩ := h
  exact ⟨a, b, _, by rw [h]; rfl⟩

/-- The readings of a whole sample: each site has one. -/
theorem readings_of {v : List (Option Int × Option Int)} (hv : v.length = 128) (f : Nat → Int) (hf : ∀ k x, v[k]? = some x → f k = siteReading x) :
    (List.range 128).map f = v.map siteReading := by
  apply List.ext_getElem?
  intro k
  rw [List.getElem?_map, List.getElem?_map]
  by_cases hk : k < 128
  · have hx := List.getElem?_eq_getElem (show k < v.length by omega)
    rw [List.getElem?_range hk, hx, Option.map_some, Option.map_some, hf k _ hx]
  · rw [List.getElem?_eq_none (by simp; omega), List.getElem?_eq_none (by omega)]
    rfl

/-- The pins after the sensors are sampled, before a trip. -/
def sampledPins (s : State) (now : Nat) (v : List (Option Int × Option Int)) : Pins :=
  let p : Pins := { s.pins with sites := v.map siteReading, sampledAt := now }
  (p.coldStep now (State.coolest { s with pins := p })).coolStep now (State.hottest { s with pins := p })

theorem sampledPins_eq (s : State) (now : Nat) (v : List (Option Int × Option Int)) :
    ∃ a b c, sampledPins s now v = { s.pins with sites := v.map siteReading, sampledAt := now, cold := a, above35 := b, below100 := c } :=
  pins_sampled _ _ _ _

theorem exec_vidStep_up {s : State} (h : Up s) (hr : s.recovery = none) (hb : s.boot.phase = .done) (hm : s.mode = .normal) (t : Nat)
    (hd : ∀ c, s.pins.vidAt = some c → c + 10000 ≤ (s.advance t).count) (hv : s.pins.vid < s.vidTarget) :
    exec (.vidStep t) s = .next { s.advance t with pins := { s.pins with vid := s.pins.vid + 1, vidAt := some (s.advance t).count } } := by
  obtain ⟨n, hn, -⟩ := advance_eq t s
  refine congrArg Host.Outcome.next ((live_of_up h t _).trans ?_)
  rw [hn] at hd ⊢
  refine (if_neg ?_).trans (if_pos hv)
  cases ha : s.pins.vidAt with
  | none => simp [hr, hb, hm]
  | some c => simpa [hr, hb, hm, ha] using hd c ha

theorem exec_sensorSample_cool {s : State} (h : Up s) {v : List (Option Int × Option Int)} (hv : v.length = 128) (t : Nat)
    (hc : State.hottest { s.advance t with pins := sampledPins (s.advance t) (s.advance t).count v } < 1840) :
    exec (.sensorSample t v) s = .next { s.advance t with pins := sampledPins (s.advance t) (s.advance t).count v } := by
  refine congrArg Host.Outcome.next ((live_of_up h t _).trans ?_)
  rw [readings_of hv _ fun k x hk => by simp only [hk]]
  refine (if_neg ?_).trans rfl
  exact fun hh => absurd hh.1 (not_le.2 hc)

theorem exec_sensorSample_trip {s : State} (h : Up s) {v : List (Option Int × Option Int)} (hv : v.length = 128) (t : Nat)
    (hh : 1840 ≤ State.hottest { s.advance t with pins := sampledPins (s.advance t) (s.advance t).count v })
    (ht : (sampledPins (s.advance t) (s.advance t).count v).thermTripN = false) :
    ∃ w d, w = { s.advance t with
        pins := { sampledPins (s.advance t) (s.advance t).count v with thermTripN := true, tripAt := (s.advance t).count, below100 := none } } ∧
      exec (.sensorSample t v) s = .next ((State.report Rep.thermal d w).deviceFault FaultCause.thermal) := by
  refine ⟨_, [intNat (State.hottest { s.advance t with
        pins := { sampledPins (s.advance t) (s.advance t).count v with thermTripN := true, tripAt := (s.advance t).count, below100 := none } }),
      (s.advance t).count, 0], rfl, congrArg Host.Outcome.next ((live_of_up h t _).trans ?_)⟩
  rw [readings_of hv _ fun k x hk => by simp only [hk]]
  refine if_pos ⟨hh, ?_⟩
  exact (congrArg (!·) ht).trans rfl

theorem exec_thermalRelease_due {s : State} {c : Nat} (h : Up s) (ht : s.pins.thermTripN = true) (hb : s.pins.below100 = some c) (t : Nat)
    (hd : c + 10000000 ≤ (s.advance t).count) :
    exec (.thermalRelease t) s = .next (State.report Rep.thermal [intNat (s.advance t).hottest, (s.advance t).pins.tripAt, (s.advance t).count]
      { s.advance t with pins := { s.pins with thermTripN := false } }) := by
  refine congrArg Host.Outcome.next ((live_of_up h t _).trans ?_)
  simp only [advance_pins, hb, ht, hd, and_self, if_true]

/-- Settles O35: a step of the voltage, a sample that is cool, one that trips, and the release. -/
theorem voltageAndTemperatureRows : Obligations.VoltageAndTemperatureRows := by
  unfold Obligations.VoltageAndTemperatureRows
  refine ⟨fun t s hu hr hb hm hd hv => exec_vidStep_up hu hr hb hm t hd hv, fun t s v hu hc hl => ?_, fun t s v k hu hm hr ht hk hl hh => ?_,
    fun t s c hu ht hb hd => ?_⟩
  · obtain ⟨a, b, e, hp⟩ := sampledPins_eq (s.advance t) (s.advance t).count v
    refine ⟨_, exec_sensorSample_cool hu hl t ?_, rfl, ?_⟩
    · rw [hp]
      exact hottest_lt (List.ne_nil_of_length_pos (l := v.map siteReading) (by rw [List.length_map, hl]; decide)) (forall_reading hl hc)
    · dsimp only
      rw [hp, advance_pins]
      exact ⟨rfl, rfl, rfl, rfl⟩
  · obtain ⟨a, b, e, hp⟩ := sampledPins_eq (s.advance t) (s.advance t).count v
    obtain ⟨w, d, hw, he⟩ := exec_sensorSample_trip hu hl t (by
      rw [hp]
      exact hh.trans (le_hottest (getD_mem_readings (by omega)))) (by rw [hp, advance_pins]; exact ht)
    have hm' : (State.report Rep.thermal d w).mode ≠ .banked := by
      rw [report_mode, hw, show State.mode { s.advance t with pins := _ } = (s.advance t).mode from rfl, advance_mode, hm]
      decide
    have hr' : (State.report Rep.thermal d w).recovery = none := by
      rw [report_recovery, hw]
      exact (of_advance t s State.recovery fun _ => rfl).trans hr
    refine ⟨_, he, ?_, ?_, deviceFault_mode hm' hr' _, ?_⟩ <;> rw [deviceFault_pins hm' hr', report_pins, hw]
  · refine ⟨_, exec_thermalRelease_due hu ht hb t hd, ?_⟩
    obtain ⟨a, b, e, f, g, he, -⟩ := rep_cases Rep.thermal [intNat (s.advance t).hottest, (s.advance t).pins.tripAt, (s.advance t).count]
      { s.advance t with pins := { s.pins with thermTripN := false } }
    rw [he]
    exact ⟨rfl, rfl⟩

end Sys2Proof.Safety
end

section
/-! PROOFS. The ends of boot and recovery, the Foreman's restarts, context resets and units (R255 to R268, R314 to R326, R346, R355 to R361, R390). -/

namespace Sys2Proof.Safety

open Sys2Proof.Machine

/-! ### Boot and recovery -/

/-- Settles O54: with nothing failed boot reports itself and the Foreman serves the rings; a failed calibration enters Banked mode. -/
theorem bootCompleteRow : Obligations.BootCompleteRow := by
  unfold Obligations.BootCompleteRow
  intro t s hu hb hm hr
  obtain ⟨n, hn, -⟩ := advance_eq t s
  have boot (z c : Bool) (f : List UnitId) : exec (.bootComplete t z c f) s = execBootComplete t z c f s := rfl
  have start : ¬(s.boot.phase ≠ .committed ∨ s.mode ≠ .recovering ∨ s.recovery.isSome = true) := by simp [hb, hm, hr]
  refine ⟨⟨State.report Rep.boot [0, s.boot.status] { s.advance t with
      failed := [], mode := .normal, lastActivity := (s.advance t).count, boot := { s.boot with phase := .done } }, ?_, ?_⟩, ?_⟩
  · rw [boot, hn]
    refine congrArg Host.Outcome.next ((live_of_up hu t _).trans ?_)
    rw [hn]
    exact (if_neg start).trans rfl
  · obtain ⟨a, b, e, f, g, hs, ha, -⟩ := rep_cases Rep.boot [0, s.boot.status] { s.advance t with
      failed := [], mode := .normal, lastActivity := (s.advance t).count, boot := { s.boot with phase := .done } }
    rw [hs]
    refine ⟨rfl, rfl, rfl, fun hl => rep_last _ (ha ?_) ⟨rfl, rfl⟩⟩
    rw [hn]
    exact hl
  · refine ⟨_, congrArg Host.Outcome.next ((live_of_up hu t _).trans (?_ : _ = State.enterBanked E.internal (s.advance t))), ?_⟩
    · rw [hn]
      exact (if_neg start).trans rfl
    · unfold State.enterBanked
      generalize hv : State.mk .. = v
      obtain ⟨a, b, e, f, g, hs, -⟩ := rep_cases Rep.boot [1, E.internal] v
      rw [hs, ← hv]
      exact ⟨rfl, rfl, rfl⟩

theorem foremanStart_keeps (s : State) : s.foremanStart.1.recoveries = s.recoveries ∧ s.foremanStart.1.replicaEpoch = s.replicaEpoch ∧
    s.foremanStart.1.pins = s.pins := ⟨rfl, rfl, rfl⟩

/-- Whether ACTIVE may run depends on the bundle, the fuses and the policy roots. -/
theorem foremanStart_snd_eq {s v : State} (hf : v.fuses = s.fuses) (hr : v.roots = s.roots) (hb : v.boot = s.boot) :
    v.foremanStart.2 = s.foremanStart.2 := by
  unfold State.foremanStart
  simp only [bundleSigOk_eq hf hr, bundleComboOk_eq hf, hb]

/-- A rebuilt block, when its streams have gone on and the Foreman serves the rings again. -/
theorem rebuild_served (k : Nat) (failed : List UnitId) (bad : List (Nat × Nat × Nat)) (v : State) :
    (State.pump pumpFuel (v.rebuild k failed bad).progressEvery).recoveries = (v.recoveries + 1) % 2 ^ 32 ∧
      (State.pump pumpFuel (v.rebuild k failed bad).progressEvery).replicaEpoch = (v.replicaEpoch + 1) % 2 ^ 32 ∧
      (State.pump pumpFuel (v.rebuild k failed bad).progressEvery).mode = .normal ∧
      (State.pump pumpFuel (v.rebuild k failed bad).progressEvery).recovery = none ∧
      (State.pump pumpFuel (v.rebuild k failed bad).progressEvery).pins = { v.pins with faultN := false } := by
  have h := (State.rebuild_base k failed bad v).1
  generalize v.rebuild k failed bad = u at h ⊢
  have hp : (State.pump pumpFuel u.progressEvery).base = u.base := by simp
  generalize State.pump pumpFuel u.progressEvery = w at hp ⊢
  rw [h] at hp
  exact ⟨congrArg (fun b => b.core.recoveries) hp, congrArg (fun b => b.core.replicaEpoch) hp, congrArg Base.mode hp, congrArg Base.recovery hp,
    congrArg Base.pins hp⟩

theorem exec_recoveryComplete_ok {s : State} {r : Recovery} (hu : Up s) (hr : s.recovery = some r) (ht : s.pins.thermTripN = false)
    (hw : s.pins.warmN = false) (hb : s.boot.phase = .done) {failed : List UnitId} (hf : lastFailed failed = false) (t : Nat)
    (hs : (s.advance t).foremanStart.2 = true) (bad : List (Nat × Nat × Nat)) :
    exec (.recoveryComplete t true failed bad) s = .next (State.pump pumpFuel (State.progressEvery ((s.advance t).foremanStart.1.rebuild r.cause failed bad))) := by
  have hr' : (s.advance t).recovery = some r := (of_advance t s State.recovery fun _ => rfl).trans hr
  have hb' : (s.advance t).boot.phase = .done := (of_advance t s (fun s => s.boot.phase) fun _ => rfl).trans hb
  have hp : (s.advance t).pins = s.pins := advance_pins t s
  refine congrArg Host.Outcome.next ((live_of_up hu t _).trans ?_)
  generalize s.advance t = v at *
  simp only [hr', hp, ht, hw, hb', hf, hs, Bool.false_eq_true, or_self, ne_eq, not_true_eq_false, Bool.not_true, if_false]

/-- Settles O55: the rebuilt block is what `rebuild_base` says, and neither the streams' progress nor the Foreman moves it. -/
theorem recoveryCompleteRow : Obligations.RecoveryCompleteRow := by
  unfold Obligations.RecoveryCompleteRow
  intro t failed bad s r hu hr ht hw hb hf hs
  have hs' : (s.advance t).foremanStart.2 = true := by
    rw [foremanStart_snd_eq (advance_fuses t s) (of_advance t s State.roots fun _ => rfl) (of_advance t s State.boot fun _ => rfl), hs]
  refine ⟨_, exec_recoveryComplete_ok hu hr ht hw hb hf t hs' bad, ?_⟩
  have h := rebuild_served r.cause failed bad (s.advance t).foremanStart.1
  obtain ⟨q1, q2, q3⟩ := foremanStart_keeps (s.advance t)
  rwa [q1, q2, q3, advance_pins, of_advance t s State.recoveries fun _ => rfl, of_advance t s State.replicaEpoch fun _ => rfl] at h

/-! ### The work that instances keep through the Foreman's fetches -/

/-- The commands whose work goes on past the Foreman, by instance. -/
def workings (s : State) : List (Option Working) := s.insts.map (·.working)

theorem inst_working (s : State) (i : Inst) : (s.inst i).working = (workings s).getD i.idx none := by
  unfold workings State.inst
  rw [List.getD_eq_getElem?_getD, List.getD_eq_getElem?_getD, List.getElem?_map]
  cases s.insts[i.idx]? <;> rfl

theorem workings_modInst (i : Inst) {f : InstState → InstState} (hf : ∀ x, (f x).working = x.working) (s : State) :
    workings (s.modInst i f) = workings s := by
  unfold workings State.modInst lmod
  apply List.ext_getElem?
  intro k
  rw [List.getElem?_map, List.getElem?_map, List.getElem?_modify]
  cases s.insts[k]? with
  | none => rfl
  | some x =>
    by_cases hk : i.idx = k
    · simp [hk, hf]
    · simp [hk]

theorem workings_postCompletion (c : ExecCmd) (a : Answer) (s : State) : workings (s.postCompletion c a) = workings s :=
  workings_modInst _ (fun _ => by rfl) s

theorem insts_issueReads (s : State) : s.issueReads.insts = s.insts := by
  unfold State.issueReads
  split
  · rfl
  · exact foldl_keep State.insts _ (fun _ _ => by rfl) _ _

theorem workings_fetch (i : Inst) (s : State) : workings (s.fetch i) = workings s := by
  unfold State.fetch
  extract_lets x b pre c s1 last fm s2 s3
  have h2 : workings s2 = workings s := workings_modInst i (fun _ => by rfl) s
  split
  · exact (workings_postCompletion _ _ s2).trans h2
  · rw [workings, insts_issueReads]
    exact h2

theorem workings_pump (n : Nat) (s : State) : workings (s.pump n) = workings s := by
  induction n generalizing s with
  | zero => rfl
  | succ n ih =>
    unfold State.pump
    split
    · split
      · rfl
      · rw [ih, workings_fetch]
    · rfl

/-- The end of an instance's work leaves that of the others. -/
theorem working_endWork_ne {i j : Inst} (h : i.idx ≠ j.idx) (a : Answer) (s : State) : ((s.endWork i a).inst j).working = (s.inst j).working := by
  unfold State.endWork
  split
  · rfl
  · rename_i w hw
    rw [inst_working, workings_pump, ← inst_working]
    refine (congrArg InstState.working (inst_modInst_ne h _)).trans ?_
    rw [inst_working, workings_postCompletion, ← inst_working]

/-! ### The Foreman and context resets (R314, R326, R346, R355) -/

theorem abandonCommands_exec (all : Bool) (s : State) : (s.abandonCommands all).foreman.exec = none := by
  unfold State.abandonCommands
  extract_lets s1
  split
  · assumption
  · rfl

/-- The waiters that are dropped leave the list for good: service takes only from its front. -/
theorem dropWaiters_waiters (f : Waiter → Bool) (x : Tally) : ∀ q ∈ (x.dropWaiters f).waiters, f q = false := by
  intro q hq
  unfold Tally.dropWaiters at hq
  obtain ⟨k, hk⟩ := serve_servesPrefix _ { x with waiters := x.waiters.filter fun w => !f w } (Nat.lt_succ_self _)
  rw [hk.waiters] at hq
  have := (List.mem_filter.1 (List.drop_subset _ _ hq)).2
  simpa using this

/-- What the end of a reset of context `c` does to the instance that waits for it. -/
def endReset (c : Nat) (s : State) (k : Nat) : State :=
  match (s.inst (rrInst k)).working with
  | some ⟨_, .reset d _, eff⟩ => if d = c then s.endWork (rrInst k) ⟨E.ok, eff, [], none⟩ else s
  | _ => s

theorem endReset_of_none {c k : Nat} {s : State} (h : (s.inst (rrInst k)).working = none) : endReset c s k = s := by
  unfold endReset
  rw [h]

theorem endReset_of_reset {c k gen eff : Nat} {d : ExecCmd} {s : State} (h : (s.inst (rrInst k)).working = some ⟨d, .reset c gen, eff⟩) :
    endReset c s k = s.endWork (rrInst k) ⟨E.ok, eff, [], none⟩ := by
  unfold endReset
  rw [h]
  exact if_pos rfl

theorem endResets_of_none {c : Nat} (l : List Nat) (s : State) (h : ∀ k ∈ l, (s.inst (rrInst k)).working = none) : l.foldl (endReset c) s = s := by
  induction l with
  | nil => rfl
  | cons k l ih =>
    rw [List.foldl_cons, endReset_of_none (h k List.mem_cons_self)]
    exact ih fun j hj => h j (List.mem_cons_of_mem _ hj)

theorem rrInst_idx_ne {j k : Nat} (hj : j < 8) (hk : k < 8) (h : j ≠ k) : (rrInst k).idx ≠ (rrInst j).idx := by
  have : ∀ j < 8, ∀ k < 8, j ≠ k → (rrInst k).idx ≠ (rrInst j).idx := by decide
  exact this j hj k hk h

/-- One instance waits for the reset: it alone is served. -/
theorem endResets_of_one {c k gen eff : Nat} {d : ExecCmd} {s : State} (hk : k < 8) (h : (s.inst (rrInst k)).working = some ⟨d, .reset c gen, eff⟩)
    (ho : ∀ j, j < 8 → j ≠ k → (s.inst (rrInst j)).working = none) :
    (List.range 8).foldl (endReset c) s = s.endWork (rrInst k) ⟨E.ok, eff, [], none⟩ := by
  obtain ⟨l, r, hlr⟩ := List.append_of_mem (List.mem_range.2 hk)
  have hnd := hlr ▸ List.nodup_range (n := 8)
  rw [List.nodup_middle, List.nodup_cons, List.mem_append, not_or] at hnd
  obtain ⟨⟨hl, hr⟩, -⟩ := hnd
  have lt (j : Nat) (hj : j ∈ l ∨ j ∈ r) : j < 8 := by
    rw [← List.mem_range, hlr]
    rcases hj with hj | hj <;> simp [hj]
  rw [hlr, List.foldl_append, List.foldl_cons, endResets_of_none l s fun j hj => ho j (lt j (.inl hj)) fun e => hl (e ▸ hj),
    endReset_of_reset h]
  refine endResets_of_none r _ fun j hj => ?_
  have hj8 := lt j (.inr hj)
  have hjk : j ≠ k := fun e => hr (e ▸ hj)
  rw [working_endWork_ne (rrInst_idx_ne hj8 hk hjk)]
  exact ho j hj8 hjk

theorem same_endResets (c : Nat) (l : List Nat) (s : State) : SameButRings s (l.foldl (endReset c) s) := by
  refine same_foldl _ _ _ fun s k => ?_
  unfold endReset
  split
  · split
    · exact same_endWork _ _ _
    · exact .refl s
  · exact .refl s

/-- The row's two parts, the instances and then the hangs, where there is no hang. -/
theorem endResets_without_hang {c : Nat} {w : State} (hh : w.hangs = []) {f : State → Nat → State} (hf : ∀ v k, f v k = endReset c v k) :
    (let v := (List.range 8).foldl f w
     if v.wasReset c = true then (v.hangs.map (·.1)).foldl (State.resetSuspect c) v else v) = (List.range 8).foldl (endReset c) w := by
  obtain rfl : f = endReset c := funext fun v => funext fun k => hf v k
  have h := same_endResets c (List.range 8) w
  generalize (List.range 8).foldl (endReset c) w = v at h
  have hv : v.hangs = [] := by rw [h, hh]
  simp only [hv, List.map_nil, List.foldl_nil, ite_self]

section Resets
variable {s : State} {c : Nat} (h : Up s) (t : Nat)
include h

/-- A reset that is complete serves the instances that wait for it; without a hang that is all. -/
theorem exec_contextResetComplete_done (hd : s.resetDone c = true) (hr : s.foreman.restarting = false) (hh : s.hangs = []) :
    exec (.contextResetComplete t c) s = .next ((List.range 8).foldl (endReset c) (s.advance t)) := by
  refine congrArg Host.Outcome.next ((live_of_up h t _).trans ((if_pos ⟨?_, ?_⟩).trans (endResets_without_hang ?_ fun v k => ?_)))
  · exact (of_advance t s State.hangs fun _ => rfl).trans hh
  · exact rfl
  · exact (of_advance t s (fun s => s.resetDone c) fun _ => rfl).trans hd
  · rw [show (s.advance t).foreman = s.foreman from of_advance t s State.foreman fun _ => rfl, hr]
    rfl

theorem exec_contextResetComplete_waits (hd : s.resetDone c = false) : exec (.contextResetComplete t c) s = .next (s.advance t) := by
  refine congrArg Host.Outcome.next ((live_of_up h t _).trans (if_neg ?_))
  rw [of_advance t s (fun s => s.resetDone c) fun _ => rfl, hd]
  simp

end Resets

/-- Settles O17: a restart begins and ends by the Foreman's own rows; the end of a reset serves the command that waits for it. -/
theorem foremanRows : Obligations.ForemanRows := by
  unfold Obligations.ForemanRows
  rintro t s w hs rfl
  have hinst (i : Inst) : (s.advance t).inst i = s.inst i := of_advance t s (fun s => s.inst i) fun _ => rfl
  refine ⟨fun hr hl => ?_, fun hr => ?_, fun hr hrec => ?_, fun c k d gen eff hd hr hk hh hw ho => ?_, fun c hd hr hw hh => ?_,
    fun c hd => exec_contextResetComplete_waits hs.1 t hd⟩
  · obtain ⟨n, hn, -⟩ := advance_eq t s
    refine ⟨_, congrArg Host.Outcome.next ((run_of_ready hs t _).trans (if_neg ?_)), ?_⟩ <;> rw [hn]
    · simp [hr, hl]
    · obtain ⟨a, b, e, f, g, he, ha, -⟩ := rep_cases Rep.foremanRestart [0] { s with
        count := n
        tallies := s.tallies.map fun (p : Nat × Tally) =>
          (p.1, ({ p.2 with count := if p.1 < 64 then 0 else p.2.count }).dropWaiters (·.foreman))
        foreman := { s.foreman with restarting := true, lastRestart := some n } }
      rw [he]
      refine ⟨rfl, hs.2, fun k x hx => ⟨_, ?_, rfl, dropWaiters_waiters _ _⟩, rfl, rfl, fun hl => rep_last _ (ha hl) ⟨rfl, rfl⟩⟩
      refine (tget_map s.tallies k fun j y => Tally.dropWaiters (·.foreman) { y with count := if j < 64 then 0 else y.count }).trans ?_
      rw [hx]
      rfl
  · refine ⟨_, rfl, abandonCommands_exec _ _, congrArg Host.Outcome.next ((run_of_ready hs t _).trans ((if_neg ?_).trans rfl))⟩
    rw [show (s.advance t).foreman = s.foreman from of_advance t s State.foreman fun _ => rfl, hr]
    decide
  · obtain ⟨n, hn, -⟩ := advance_eq t s
    have hm : s.mode ≠ .banked := by rw [hs.2]; decide
    refine ⟨_, congrArg Host.Outcome.next ((run_of_ready hs t _).trans ((if_neg ?_).trans (if_pos rfl))), ?_⟩ <;> rw [hn]
    · simp [hr]
    · exact faulted_of _ s { s with count := n } hm hrec ⟨rfl, rfl, rfl, rfl, fun _ => trivial, id⟩
  · rw [exec_contextResetComplete_done hs.1 t hd hr hh]
    refine congrArg Host.Outcome.next (endResets_of_one hk (gen := gen) (d := d) ?_ fun j hj hjk => ?_)
    · rw [hinst, hw]
    · rw [hinst, ho j hj hjk]
  · rw [exec_contextResetComplete_done hs.1 t hd hr hh]
    refine congrArg Host.Outcome.next (endResets_of_none _ _ fun k hk => ?_)
    rw [hinst, hw k (List.mem_range.1 hk)]

end Sys2Proof.Safety
end
section
namespace Sys2Proof.Safety
open Sys2Proof.Machine

/-! ### Units (R255 to R258, R267, R268, R356 to R359) -/

/-- DEGRADED adds at most a report. -/
theorem reportShort_cases (was : Bool) (s : State) : ∃ a b e f g, s.reportShort was = { s with reports := a, reportsDropped := b, reportSeq := e, out := f, mgmt := g } ∧
    ∀ r ∈ s.reports, r ∈ a := by
  unfold State.reportShort
  split
  · obtain ⟨a, b, e, f, g, hs, -, hk⟩ := rep_cases Rep.degraded (s.shortKinds.map kindNumber) s
    exact ⟨a, b, e, f, g, hs, hk⟩
  · exact ⟨_, _, _, _, _, rfl, fun r h => h⟩

/-- What the failure of an output engine leaves: it is fenced, reported and recorded (R356, R357). -/
theorem failUnit_grate {s : State} {k : Nat} (h : s.failed.contains (.grate k) = false) (hl : lastFailed (s.failed ++ [.grate k]) = false) :
    ∃ a b e f g, s.failUnit (.grate k) = { s with
        failed := s.failed ++ [.grate k], remapping := s.remapping ++ [.grate k]
        ashpit := s.ashpit ++ [⟨s.ashpitNext, 1, [], s.count, 0, 0, false, false, false⟩], ashpitNext := s.ashpitNext + 1
        reports := a, reportsDropped := b, reportSeq := e, out := f, mgmt := g } ∧
      (s.reports.length < 256 → ∃ r ∈ a, r.code = Rep.unitFailed ∧ r.detail = unitCode (.grate k)) := by
  obtain ⟨a, b, e, f, g, hs, ha, -⟩ := rep_cases Rep.unitFailed (unitCode (.grate k))
    { s with failed := s.failed ++ [.grate k], remapping := s.remapping ++ [.grate k] }
  obtain ⟨a2, b2, e2, f2, g2, hs2, hk⟩ := reportShort_cases s.anyShort (State.ashpitRecord 1 []
    { s with failed := s.failed ++ [.grate k], remapping := s.remapping ++ [.grate k], reports := a, reportsDropped := b, reportSeq := e, out := f, mgmt := g })
  refine ⟨a2, b2, e2, f2, g2, ?_, fun hr => ?_⟩
  · unfold State.failUnit
    rw [if_neg (by rw [h]; decide), if_neg (by simp)]
    dsimp only
    rw [if_neg (show ¬ UnitId.grate k = UnitId.prospector by simp), hs]
    refine (if_neg ?_).trans (hs2.trans rfl)
    change ¬ lastFailed (s.failed ++ [.grate k]) = true
    rw [hl]
    decide
  · refine ⟨⟨Rep.unitFailed, s.count, s.reportsDropped, s.reportSeq % 65536, unitCode (.grate k)⟩, hk _ ?_, rfl, rfl⟩
    exact (congrArg (fun l => _ ∈ l) (ha hr)).mpr (List.mem_append_right _ (List.mem_singleton.2 rfl))

theorem rehomeGrate_poisoned (k : Nat) (s : State) : (s.rehomeGrate k).poisoned = s.poisoned := by
  unfold State.rehomeGrate
  exact foldl_keep State.poisoned _ (fun _ _ => by rfl) _ _

theorem badImages_of_no_poison {s : State} (h : s.poisoned = []) (kinds : List Nat) (ads : Bool) : s.badImages kinds ads = [] := by
  simp [State.badImages, h]

theorem reload_grate {s : State} (h : s.poisoned = []) (k : Nat) : s.reload (.grate k) = s := by
  unfold State.reload
  simp only [badImages_of_no_poison h]
  rfl

/-- Settles O18: what a unit's failure, its remap, a quiesce and a scrub leave. -/
theorem unitRows : Obligations.UnitRows := by
  unfold Obligations.UnitRows
  rintro t s w hs rfl
  have hfailed : (s.advance t).failed = s.failed := of_advance t s State.failed fun _ => rfl
  have hreps : (s.advance t).reports = s.reports := of_advance t s State.reports fun _ => rfl
  refine ⟨fun k hk hl => ?_, fun v hf hr hv => ?_, fun x u hx hu => ?_, fun a b hu hl => ?_, fun n => ?_, fun n p hp hn => ?_⟩
  · obtain ⟨a, b, e, f, g, he, ha⟩ := failUnit_grate (s := s.advance t) (k := k) (by rw [hfailed, hk]) (by rw [hfailed, hl])
    have hrow : s.run t (·.failUnit (.grate k)) = _ := (run_of_ready hs t _).trans he
    refine ⟨_, congrArg Host.Outcome.next hrow, congrArg Host.Outcome.next hrow, ?_⟩
    obtain ⟨n, hn, -⟩ := advance_eq t s
    rw [hn]
    refine ⟨rfl, rfl, hs.2, rfl, rfl, rfl, fun hl => ha ?_⟩
    rw [hreps]
    omega
  · have hm : s.mode ≠ .banked := by rw [hs.2]; decide
    subst hv
    refine ⟨_, congrArg Host.Outcome.next ((run_of_ready hs t _).trans ((if_neg ?_).trans (if_pos (.inl rfl)))), ?_⟩
    · rw [hfailed, hf]
      decide
    rw [hfailed]
    refine faulted_of _ _ _ ?_ ?_ ⟨rfl, rfl, rfl, rfl, fun _ => trivial, id⟩
    · rw [report_mode, show State.mode { s.advance t with failed := _ } = (s.advance t).mode from rfl, advance_mode]
      exact hm
    · rw [report_recovery]
      exact (of_advance t s State.recovery fun _ => rfl).trans hr
  · have hrem : (s.advance t).remapping = s.remapping := of_advance t s State.remapping fun _ => rfl
    subst hu
    refine ⟨?_, fun k => ⟨fun hk hz => ?_, fun hk => ?_⟩⟩
    · refine congrArg Host.Outcome.next ((run_of_ready hs t _).trans ((if_pos ?_).trans ?_)) <;> rw [hrem]
      exact hx
    · subst hk
      refine reload_grate ?_ k
      exact (rehomeGrate_poisoned k _).trans ((of_advance t s State.poisoned fun _ => rfl).trans hz)
    · subst hk
      rfl
  · have hledger : (s.advance t).ledgerFault = false := (of_advance t s State.ledgerFault fun _ => rfl).trans hl
    obtain ⟨x, y, e, f, g, he, ha, -⟩ := rep_cases Rep.ledgerFault [a, b] { s.advance t with ledgerFault := true }
    refine ⟨State.ashpitRecord 4 [] (State.report Rep.ledgerFault [a, b] { s.advance t with ledgerFault := true }),
      congrArg Host.Outcome.next ((run_of_ready hs t _).trans ?_), ?_⟩
    · simp only [hu, hledger, Bool.false_eq_true, if_false]
    · rw [he]
      refine ⟨rfl, congrArg (· + 1) (of_advance t s State.ashpitNext fun _ => rfl), fun hl => rep_last _ (ha ?_) ⟨rfl, rfl⟩⟩
      exact hreps.symm ▸ hl
  · exact congrArg Host.Outcome.next (run_of_ready hs t _)
  · have hpois : (s.advance t).poisoned = s.poisoned := of_advance t s State.poisoned fun _ => rfl
    refine ⟨_, congrArg Host.Outcome.next (run_of_ready hs t _), ?_⟩
    refine (if_neg ?_).trans (congrArg (· ++ [p]) hpois)
    rw [show ((s.advance t).active.devCount Cnt.eccCorrected n).poisoned = s.poisoned from hpois]
    simp [hn]
    omega

end Sys2Proof.Safety
end

section
/-! PROOFS. The Shaft: host memory transactions, packets and credits, bulk reads, links (R271, R278 to R292). -/

namespace Sys2Proof.Safety

open Sys2Proof.Machine

@[simp] theorem advance_shaft (t : Nat) (s : State) : (s.advance t).shaft = s.shaft := of_advance t s State.shaft fun _ => rfl
@[simp] theorem advance_credits (t : Nat) (s : State) : (s.advance t).credits = s.credits := of_advance t s State.credits fun _ => rfl
@[simp] theorem advance_domCounters (t : Nat) (s : State) : (s.advance t).domCounters = s.domCounters := of_advance t s State.domCounters fun _ => rfl
@[simp] theorem advance_queuedTx (t : Nat) (s : State) : (s.advance t).queuedTx = s.queuedTx := of_advance t s State.queuedTx fun _ => rfl
@[simp] theorem advance_domains (t : Nat) (s : State) : (s.advance t).domains = s.domains := of_advance t s State.domains fun _ => rfl
@[simp] theorem windowed_credits (s : State) (t : Nat) : (windowed s t).credits = s.credits := of_windowed t s State.credits fun _ _ _ => rfl
@[simp] theorem windowed_mem (s : State) (t : Nat) : (windowed s t).mem = s.mem := of_windowed t s State.mem fun _ _ _ => rfl
@[simp] theorem windowed_domCounters (s : State) (t : Nat) : (windowed s t).domCounters = s.domCounters :=
  of_windowed t s State.domCounters fun _ _ _ => rfl
@[simp] theorem windowed_queuedTx (s : State) (t : Nat) : (windowed s t).queuedTx = s.queuedTx := of_windowed t s State.queuedTx fun _ _ _ => rfl
@[simp] theorem windowed_foreman (s : State) (t : Nat) : (windowed s t).foreman = s.foreman := of_windowed t s State.foreman fun _ _ _ => rfl
@[simp] theorem windowed_bulk (s : State) (t : Nat) : (windowed s t).bulk = s.bulk := of_windowed t s State.bulk fun _ _ _ => rfl

/-! ### Host memory transactions (R287) -/

section Transactions
variable {s : State} {port dom : Nat} {p : Bytes} (t : Nat)

/-- The state in which a host transaction acts: the port is busy and its credits are used. -/
def atHost (s : State) (t : Nat) (sh : List ShaftPort) (cr : List DomCredits) : State := { windowed s t with shaft := sh, credits := cr }

theorem atHost_decodeAddr (sh : List ShaftPort) (cr : List DomCredits) : (atHost s t sh cr).decodeAddr dom p = s.decodeAddr dom p :=
  of_windowed t s (fun v => State.decodeAddr { v with shaft := sh, credits := cr } dom p) fun _ _ _ => rfl

theorem atHost_hostPoisoned (sh : List ShaftPort) (cr : List DomCredits) (a n : Nat) : (atHost s t sh cr).hostPoisoned a n = s.hostPoisoned a n :=
  of_windowed t s (fun v => State.hostPoisoned { v with shaft := sh, credits := cr } a n) fun _ _ _ => rfl

variable (hu : Up s) (ha : s.portActive port = true) (hd : s.portDomain port = dom)
  (hc : s.creditShort dom 4 (1 + (p.length - 64 + 63) / 64) = false)
include hu ha hd hc

theorem exec_read_region {a : Nat} (ho : Tx.op p = 0) (hf : Tx.formOk dom 4 0 p = true) (hr : s.decodeAddr dom p = .region a)
    (hp : s.hostPoisoned a (Tx.length p) = false) :
    ∃ sh cr, exec (.read t port p) s = .next ((atHost s t sh cr).memCpl port (Tx.tag p) 0 (memRead s.mem a (Tx.length p))) := by
  obtain ⟨sh, cr, htx, -⟩ := tx_of hu ha hd hc t _
  refine ⟨sh, cr, congrArg Host.Outcome.next (htx.trans ?_)⟩
  rw [show ({ windowed s t with shaft := sh, credits := cr } : State) = atHost s t sh cr from rfl]
  have hm : (atHost s t sh cr).mem = s.mem := windowed_mem s t
  simp only [ho, hf, atHost_decodeAddr, hr, atHost_hostPoisoned, hp, hm, ne_eq, not_true_eq_false, Bool.not_true, Bool.false_eq_true, if_false]

theorem exec_write_region {a : Nat} (ho : Tx.op p = 1) (hf : Tx.formOk dom 4 (ceilDiv (Tx.length p) 64) p = true) (hr : s.decodeAddr dom p = .region a) :
    ∃ sh cr, exec (.write t port p) s = .next { atHost s t sh cr with mem := memWrite s.mem a (slice (Tx.data p) 0 (Tx.length p)) } := by
  obtain ⟨sh, cr, htx, -⟩ := tx_of hu ha hd hc t _
  refine ⟨sh, cr, congrArg Host.Outcome.next (htx.trans ?_)⟩
  rw [show ({ windowed s t with shaft := sh, credits := cr } : State) = atHost s t sh cr from rfl]
  have hm : (atHost s t sh cr).mem = s.mem := windowed_mem s t
  simp only [ho, hf, atHost_decodeAddr, hr, hm, ne_eq, not_true_eq_false, Bool.not_true, Bool.false_eq_true, if_false]

theorem exec_read_nowhere (ho : Tx.op p = 0) (hf : Tx.formOk dom 4 0 p = true) (hr : s.decodeAddr dom p = .none) :
    ∃ sh cr, exec (.read t port p) s = .next (((atHost s t sh cr).memError dom).memCpl port (Tx.tag p) 1 []) := by
  obtain ⟨sh, cr, htx, -⟩ := tx_of hu ha hd hc t _
  refine ⟨sh, cr, congrArg Host.Outcome.next (htx.trans ?_)⟩
  rw [show ({ windowed s t with shaft := sh, credits := cr } : State) = atHost s t sh cr from rfl]
  simp only [ho, hf, atHost_decodeAddr, hr, ne_eq, not_true_eq_false, Bool.not_true, Bool.false_eq_true, if_false]

theorem exec_write_nowhere (ho : Tx.op p = 1) (hf : Tx.formOk dom 4 (ceilDiv (Tx.length p) 64) p = true) (hr : s.decodeAddr dom p = .none) :
    ∃ sh cr, exec (.write t port p) s = .next ((atHost s t sh cr).memError dom) := by
  obtain ⟨sh, cr, htx, -⟩ := tx_of hu ha hd hc t _
  refine ⟨sh, cr, congrArg Host.Outcome.next (htx.trans ?_)⟩
  rw [show ({ windowed s t with shaft := sh, credits := cr } : State) = atHost s t sh cr from rfl]
  simp only [ho, hf, atHost_decodeAddr, hr, ne_eq, not_true_eq_false, Bool.not_true, Bool.false_eq_true, if_false]

end Transactions

/-- Settles O43: a READ answers the region's bytes, a WRITE changes those it names, and an address of no target is counted. -/
theorem hostMemoryRows : Obligations.HostMemoryRows := by
  unfold Obligations.HostMemoryRows
  intro t port p s dom hu ha hd hc
  have hcount (sh : List ShaftPort) (cr : List DomCredits) : ((atHost s t sh cr).memError dom).domCounters = (s.memError dom).domCounters :=
    congrArg (fun l => lmod l dom _) (windowed_domCounters s t)
  refine ⟨fun a ho hf hr hp => ?_, fun a ho hf hr hw => ?_, fun ho hf hr => ?_, fun ho hf hr => ?_⟩
  · obtain ⟨sh, cr, he⟩ := exec_read_region t hu ha hd hc ho hf hr hp
    exact ⟨_, he, rfl, congrArg (· ++ _) (windowed_out s t)⟩
  · obtain ⟨sh, cr, he⟩ := exec_write_region t hu ha hd hc ho hf hr
    have hl : (slice (Tx.data p) 0 (Tx.length p)).length = Tx.length p := slice_len _ _
    refine ⟨_, he, rfl, fun b hb => memWrite_other _ _ _ _ (by rw [hl]; exact hb), fun k hk => ?_⟩
    exact (memWrite_get _ hw a k (by rw [hl]; exact hk)).trans (slice_getD _ _ _ hk)
  · obtain ⟨sh, cr, he⟩ := exec_read_nowhere t hu ha hd hc ho hf hr
    exact ⟨_, he, windowed_mem s t, congrArg (· ++ _) (windowed_out s t), hcount sh cr⟩
  · obtain ⟨sh, cr, he⟩ := exec_write_nowhere t hu ha hd hc ho hf hr
    exact ⟨_, he, windowed_mem s t, windowed_out s t, hcount sh cr⟩

/-! ### Packets and credits (R279, R282, R285) -/

/-- An uncredited packet with a good header is taken by its row. -/
theorem inbound_uncredited {s : State} {port ty : Nat} {p : Bytes} (hv : Hdr.vc p = 7) (hb : headerBad (s.portDomain port) p = false)
    (f : Nat → State → State) :
    s.inbound ty port p f = f (s.portDomain port) (if ty = 0 then s else s.active.modShaft port fun p => { p with lastBusy := s.count }) := by
  have hc : s.creditShort (s.portDomain port) 7 (p.length / 64) = false := rfl
  simp only [State.inbound, hv, hc, hb, Bool.false_eq_true, if_false, show ¬ 7 < 5 by decide]

/-- A packet whose header is bad is discarded and counted (R282). -/
theorem inbound_badHeader {s : State} {port ty : Nat} {p : Bytes} (hc : s.creditShort (s.portDomain port) (Hdr.vc p) (p.length / 64) = false)
    (hb : headerBad (s.portDomain port) p = true) (f : Nat → State → State) :
    ∃ sh cr po la, s.inbound ty port p f = { s with
      domCounters := (s.domCount (s.portDomain port) Cnt.headerError).domCounters, shaft := sh, credits := cr, power := po, lastActivity := la } := by
  simp only [State.inbound, hc, hb, Bool.false_eq_true, if_false, if_true]
  split <;> split <;> exact ⟨_, _, _, _, rfl⟩

theorem exec_creditReturn_due {s : State} {dom q : Nat} (hu : Up s) (hl : s.lowestActive dom = some q) (t : Nat)
    (hd : (s.credits.getD dom DomCredits.init).due (s.advance t).count = true) :
    exec (.creditReturn t dom) s = .next (State.sendOn q (.credit q false ((s.credits.getD dom DomCredits.init).freed ++ [0, 0, 0]) false)
      ((s.advance t).modCredits dom fun c => { c with
        granted := (c.granted.zip c.freed).map fun g => g.1 + g.2, freed := [0, 0, 0, 0, 0], freedAt := [none, none, none, none, none] })) := by
  have hl' : (s.advance t).lowestActive dom = some q := (of_advance t s (fun s => s.lowestActive dom) fun _ => rfl).trans hl
  refine congrArg Host.Outcome.next ((live_of_up hu t _).trans ?_)
  simp only [hl', advance_credits, hd, if_true]

theorem exec_credit_returned {s : State} {port dom : Nat} {p : Bytes} (hu : Up s) (hl : s.linkUp port = true) (hd : s.portDomain port = dom)
    (ht : Hdr.type p = 8) (hv : Hdr.vc p = 7) (hb : headerBad dom p = false) (hi : bit (field p 0x10 1) 0 = false) (t : Nat) :
    exec (.credit t port p) s = .next (State.creditReturned dom (creditEntry p 4) (creditEntry p 6)
      ((windowed s t).modShaft port fun p => { p with lastBusy := (s.advance t).count })) := by
  have hl' : (s.advance t).linkUp port = true := (of_advance t s (fun s => s.linkUp port) fun _ => rfl).trans hl
  have hd' : (s.advance t).portDomain port = dom := (of_advance t s (fun s => s.portDomain port) fun _ => rfl).trans hd
  refine congrArg Host.Outcome.next ((live_of_up hu t _).trans ((if_pos ⟨hl', ht⟩).trans ?_))
  rw [inbound_uncredited hv (by rw [hd', hb]), hd', if_neg (by rw [hi]; decide), if_neg (by decide)]
  rfl

/-- Settles O44: an IDLE flit, a bad header, the credits that go back, and those that come. -/
theorem shaftFlowRows : Obligations.ShaftFlowRows := by
  unfold Obligations.ShaftFlowRows
  refine ⟨fun t port p s hu hl ht hv hb => ?_, fun t port p s dom hu hl hd hb hc => ?_, fun t dom q s hu hl hd => ?_,
    fun t port p s dom c hu hl hd ht hv hb hi hc hq hx hm hr => ?_⟩
  · have hd : (s.advance t).portDomain port = s.portDomain port := of_advance t s (fun s => s.portDomain port) fun _ => rfl
    have hl' : (s.advance t).linkUp port = true := (of_advance t s (fun s => s.linkUp port) fun _ => rfl).trans hl
    refine congrArg Host.Outcome.next ((live_of_up hu t _).trans ((if_pos ⟨hl', ht⟩).trans ?_))
    rw [inbound_uncredited hv (by rw [hd, hb]), if_pos rfl]
  · have hd' : (s.advance t).portDomain port = dom := (of_advance t s (fun s => s.portDomain port) fun _ => rfl).trans hd
    have hc' : (s.advance t).creditShort dom (Hdr.vc p) (p.length / 64) = false :=
      (of_advance t s (fun s => s.creditShort dom (Hdr.vc p) (p.length / 64)) fun _ => rfl).trans hc
    obtain ⟨sh, cr, po, la, he⟩ := inbound_badHeader (s := s.advance t) (port := port) (ty := Hdr.type p) (p := p) (by rw [hd', hc']) (by rw [hd', hb])
      fun _ s => s
    have hl' : (s.advance t).linkUp port = true := (of_advance t s (fun s => s.linkUp port) fun _ => rfl).trans hl
    refine ⟨_, congrArg Host.Outcome.next ((live_of_up hu t _).trans ((if_pos ⟨hl', by rw [hd', hb]⟩).trans he)), ?_, rfl⟩
    rw [hd']
    exact congrArg (fun l => lmod l dom _) (advance_domCounters t s)
  · refine ⟨_, exec_creditReturn_due hu hl t hd, rfl, congrArg (· ++ _) (advance_out t s), fun h => ?_⟩
    refine congrArg DomCredits.freed (lmod_getD (l := (s.advance t).credits) (d := DomCredits.init) ?_ _)
    rw [advance_credits]
    exact h
  · obtain ⟨f, he, h1, h2⟩ := creditReturned_of dom (creditEntry p 4) (creditEntry p 6)
      ((windowed s t).modShaft port fun p => { p with lastBusy := (s.advance t).count }) c
      ((congrArg (fun l => List.getD l dom DomCredits.init) (windowed_credits s t)).trans (getD_of hc)) hm hr
      ((windowed_queuedTx s t).trans hq) ((congrArg Foreman.exec (windowed_foreman s t)).trans hx)
    refine ⟨_, (exec_credit_returned hu hl hd ht hv hb hi t).trans (congrArg Host.Outcome.next he), rfl, f c, ?_, h1, h2⟩
    change (lmod (windowed s t).credits dom f)[dom]? = _
    rw [windowed_credits, lmod_of hc, List.getElem?_set_self (List.getElem?_eq_some_iff.1 hc).1]

/-! ### Bulk reads (R271, R289) -/

/-- The end of a transfer whose command is executing: the command ends with it (R289). -/
theorem failTransfer_of {s : State} {b : BulkRead} {c : ExecCmd} (hx : s.foreman.exec = some c) (hi : c.inst = b.inst) (hs : c.seq = b.seq) :
    s.failTransfer b = State.complete c (Answer.fail E.transfer)
      { s with bulk := s.bulk.filter fun x => !(x.inst == b.inst && x.seq == b.seq) } := by
  unfold State.failTransfer
  simp only [hx, hi, hs, and_self, if_true]

section Completions
variable {s : State} {port : Nat} {p : Bytes} {b : BulkRead} (hu : Up s) (ha : s.portActive port = true) (ho : Tx.op p = 2)
  (hd : Tx.domain p = s.portDomain port) (hb : (s.bulk.find? fun b => b.dom == s.portDomain port && b.tag == Tx.tag p) = some b)
  (hn : b.orphan = none) (t : Nat)
include hu ha ho hd hb hn

/-- A completion of a read that is outstanding, by its status and length. -/
theorem exec_completion_of : ∃ v : State, v = (windowed s t).modShaft port (fun p => { p with lastBusy := (s.advance t).count }) ∧
    exec (.completion t port p) s = .next (if Tx.address p % 4 ≠ 0 ∨ Tx.length p ≠ b.len then v.failTransfer b else
      State.issueReads { v with
        bulk := v.bulk.erase b
        foreman := { v.foreman with exec := v.foreman.exec.map fun (c : ExecCmd) =>
          if c.inst = b.inst ∧ c.seq = b.seq then { c with got := c.got ++ [(b.off, slice (Tx.data p) 0 b.len)] } else c } }) := by
  have ha' : (s.advance t).portActive port = true := (of_advance t s (fun s => s.portActive port) fun _ => rfl).trans ha
  have hd' : (s.advance t).portDomain port = s.portDomain port := of_advance t s (fun s => s.portDomain port) fun _ => rfl
  refine ⟨_, rfl, congrArg Host.Outcome.next ((live_of_up hu t _).trans ((if_pos ⟨ha', ho⟩).trans ?_))⟩
  change (if Tx.domain p ≠ (s.advance t).portDomain port then _ else _) = _
  rw [if_neg (by rw [hd', hd]; simp)]
  have hb' : ((State.modShaft port (fun p => { p with lastBusy := (s.advance t).count }) (s.advance t).active).bulk.find? fun b =>
      b.dom == (s.advance t).portDomain port && b.tag == Tx.tag p) = some b := by
    rw [hd']
    exact (congrArg (List.find? _) (windowed_bulk s t)).trans hb
  simp only [hb', hn]
  rfl

end Completions

/-- Settles O45: a completion that fits is kept for its command; an error and a read out of time end the command. -/
theorem bulkReadRows : Obligations.BulkReadRows := by
  unfold Obligations.BulkReadRows
  refine ⟨fun t port p s b c hu ha ho hd hb hn hx hi hs => ?_, fun t dom tag s b c hu hb hn hx hi hs => ?_⟩
  · obtain ⟨v, hv, he⟩ := exec_completion_of hu ha ho hd hb hn t
    have hbulk : v.bulk = s.bulk := by rw [hv]; exact windowed_bulk s t
    have hfor : v.foreman = s.foreman := by rw [hv]; exact windowed_foreman s t
    have hsh : v = { windowed s t with shaft := v.shaft } := by rw [hv]; rfl
    refine ⟨fun h4 hl => ?_, fun h4 => ?_⟩
    · rw [if_neg (by simp [h4, hl])] at he
      refine ⟨_, he, ?_, ?_⟩
      · rw [hbulk, hsh]
      · simp only [hfor, hx, Option.map_some, hi, hs, and_self, if_true]
    · rw [if_pos (.inl h4), failTransfer_of (by rw [hfor, hx]) hi hs] at he
      refine ⟨_, he, ?_⟩
      rw [hbulk, hsh]
  · have hbulk : (s.advance t).bulk = s.bulk := of_advance t s State.bulk fun _ => rfl
    refine congrArg Host.Outcome.next ((live_of_up hu t _).trans ?_)
    simp only [hbulk, hb, hn]
    rw [failTransfer_of ((congrArg Foreman.exec (of_advance t s State.foreman fun _ => rfl)).trans hx) hi hs, hbulk]

/-! ### Shaft links (R278, R280, R290 to R292) -/

theorem modShaft_of {s v : State} (hv : v.shaft = s.shaft) {port : Nat} {p : ShaftPort} (h : s.shaft[port]? = some p) (f : ShaftPort → ShaftPort) :
    v.modShaft port f = { v with shaft := s.shaft.set port (f p) } := by
  unfold State.modShaft
  rw [hv, lmod_of h]

theorem shaft_getD {s : State} {port : Nat} {p : ShaftPort} (h : s.shaft[port]? = some p) (t : Nat) :
    (s.advance t).shaft.getD port ShaftPort.init = p := by
  rw [advance_shaft, getD_of h]

theorem cutTraffic_none (port vc : Nat) (s : State) : s.cutTraffic port 0 vc = s := by
  unfold State.cutTraffic
  exact if_pos rfl

section Links
variable {s : State} {port : Nat} {p : ShaftPort} (hu : Up s) (h : s.shaft[port]? = some p) (t : Nat)
include hu h

theorem exec_shaftTrainingStart_down {d : Nat} (hl : p.link = .down) (hd : s.domains.ports[port]? = some (d, true)) (hp : port < 16) :
    exec (.shaftTrainingStart t port) s = .next { s.advance t with
      shaft := s.shaft.set port { p with link := .training, domain := d, trained := none, reported := false, event := true } } := by
  have hd' : (s.advance t).domains.ports.getD port (0, false) = (d, true) := by rw [advance_domains, getD_of hd]
  refine congrArg Host.Outcome.next ((live_of_up hu t _).trans ((if_pos ⟨?_, ?_, hp⟩).trans ?_))
  · simp only [State.startTraining, modShaft_of (advance_shaft t s) h, hd']
  · rw [shaft_getD h, hl]
  · rw [hd']

theorem exec_shaftRetrain_active (hl : p.link = .active) :
    exec (.shaftRetrain t port) s = .next { s.advance t with
      shaft := s.shaft.set port { p with link := .retrain, retrains := (p.retrains + 1) % 256, event := true } } := by
  refine congrArg Host.Outcome.next ((live_of_up hu t _).trans ((if_pos ?_).trans ?_))
  · rw [State.portActive, shaft_getD h, hl]
    rfl
  · rw [modShaft_of (advance_shaft t s) h]

theorem exec_shaftRetrainComplete_up {o : LinkOutcome} (hl : p.link = .retrain) (ho : o.up = true) (hq : s.queuedTx = []) :
    exec (.shaftRetrainComplete t port ⟨o, 0, 0⟩) s = .next { s.advance t with
      shaft := s.shaft.set port { p with
        x32 := o.degraded1, rate16 := o.degraded2, calPass := o.calPass, repair := false, retrainReq := false, saved := true
        link := .active, event := true, lastBusy := (s.advance t).count } } := by
  refine congrArg Host.Outcome.next ((live_of_up hu t _).trans ((if_neg ?_).trans ((if_pos ho).trans ?_)))
  · rw [shaft_getD h, hl]
    exact not_not_intro rfl
  · rw [modShaft_of (advance_shaft t s) h]
    exact drainTx_empty _ _ _ ((advance_queuedTx t s).trans hq)

theorem exec_shaftLinkFailure_active {vc : Nat} (hl : p.link = .active) :
    exec (.shaftLinkFailure t port 0 vc) s = .next (State.report Rep.portDown [port, p.domain] { s.advance t with
      shaft := s.shaft.set port { p with link := .down, trained := none, event := true } }) := by
  refine congrArg Host.Outcome.next ((live_of_up hu t _).trans ((if_pos ?_).trans ((cutTraffic_none port vc _).trans ?_)))
  · rw [shaft_getD h, hl]
    exact .inl rfl
  · rw [State.shaftDown, modShaft_of (advance_shaft t s) h, State.portDomain, shaft_getD h]

theorem exec_idleRetrainRequest_active (hl : p.link = .active) (hp : port < 16) :
    exec (.idleRetrainRequest t port) s = .next { s.advance t with shaft := s.shaft.set port { p with
      repair := true, retrainReq := p.retrainReq || decide (p.lastBusy + 1000 ≤ (s.advance t).count) } } := by
  refine congrArg Host.Outcome.next ((live_of_up hu t _).trans ((if_pos hp).trans ((if_pos ?_).trans ?_)))
  · rw [shaft_getD h, hl]
  · rw [modShaft_of (advance_shaft t s) h]

theorem exec_creditInitTimeout_due {c : Nat} (hl : p.link = .training) (hc : p.trained = some c) (hr : p.reported = false)
    (hd : c + 1000 ≤ (s.advance t).count) :
    exec (.creditInitTimeout t port) s = .next (State.report Rep.portDown [port, p.domain] { s.advance t with
      shaft := s.shaft.set port { p with reported := true } }) := by
  refine congrArg Host.Outcome.next ((live_of_up hu t _).trans ?_)
  simp only [shaft_getD h, hc, hl, hr, hd, Bool.not_false, and_self, if_true, modShaft_of (advance_shaft t s) h]

/-- A port that is trained when the host has advertised its credits goes ACTIVE at once (R278, R290). -/
theorem exec_shaftTrainingComplete_up {o : LinkOutcome} (hl : p.link = .training) (hn : p.trained = none) (ho : o.up = true)
    (hc : (s.credits.getD p.domain DomCredits.init).initRx = true) (hq : s.queuedTx = []) :
    ∃ u, exec (.shaftTrainingComplete t port o) s = .next u ∧ u = { s.advance t with shaft := u.shaft, credits := u.credits, out := u.out } ∧
      ∃ q, u.shaft[port]? = some q ∧ q.link = .active ∧ q.domain = p.domain ∧ q.x32 = o.degraded1 ∧ q.rate16 = o.degraded2 := by
  obtain ⟨sh, cr, ou, he, ⟨b, hb⟩, hi⟩ := initCredits_of p.domain port (s.advance t) p (by rw [advance_shaft]; exact h)
    (by rw [advance_credits]; exact hc)
  have hport : port < sh.length := (List.getElem?_eq_some_iff.1 hb).1
  have hexec : exec (.shaftTrainingComplete t port o) s = .next (State.activatePorts p.domain { s.advance t with
      shaft := sh.set port { ({ p with lastBusy := b }.outcome o) with trained := some (s.advance t).count, event := true }
      credits := cr, out := ou }) := by
    refine congrArg Host.Outcome.next ((live_of_up hu t _).trans ?_)
    simp only [shaft_getD h, hl, hn, ho, he, hi, State.modShaft, lmod_of hb, ne_eq, not_true_eq_false, Option.isSome_none, Bool.false_eq_true,
      or_self, if_false, Bool.not_true, if_true]
    exact drainTx_empty _ _ _ ((advance_queuedTx t s).trans hq)
  refine ⟨_, hexec, rfl, { p with
    x32 := o.degraded1, rate16 := o.degraded2, calPass := o.calPass, repair := false, retrainReq := false, saved := true
    link := .active, trained := none, reported := false, event := true, lastBusy := (s.advance t).count }, ?_, rfl, rfl, rfl, rfl⟩
  refine (List.getElem?_map ..).trans ?_
  rw [List.getElem?_set_self hport]
  refine congrArg some ((if_pos ⟨hl, rfl, rfl⟩).trans rfl)

end Links

/-- Settles O46: each row of a link moves its port, and reports what Table 12.12 has reported. -/
theorem shaftLinkRows : Obligations.ShaftLinkRows := by
  unfold Obligations.ShaftLinkRows
  refine ⟨fun t port p s d hu h hl hd hp => exec_shaftTrainingStart_down hu h t hl hd hp,
    fun t port p o s hu h hl hn ho hc hq => exec_shaftTrainingComplete_up hu h t hl hn ho hc hq,
    fun t port p s hu h hl => exec_shaftRetrain_active hu h t hl,
    fun t port p o s hu h hl ho hq => exec_shaftRetrainComplete_up hu h t hl ho hq,
    fun t port p vc s hu h hl => exec_shaftLinkFailure_active hu h t hl, fun t port p s hu h hl hp => ⟨fun hb => ?_, fun hb => ?_⟩,
    fun t port p c s hu h hl hc hr hd => exec_creditInitTimeout_due hu h t hl hc hr hd,
    fun t dom q c s hr hc hi hs hb hl hq hw => ?_⟩
  · rw [exec_idleRetrainRequest_active hu h t hl hp, decide_eq_true hb, Bool.or_true]
  · rw [exec_idleRetrainRequest_active hu h t hl hp, decide_eq_false (by omega), Bool.or_false]
  · have hw' : (s.advance t).lowestActive dom = some q := (of_advance t s (fun s => s.lowestActive dom) fun _ => rfl).trans hw
    refine congrArg Host.Outcome.next ((run_of_ready hr t _).trans ?_)
    simp only [getD_of hc, hi, hs, hb, hl, hw', advance_queuedTx, hq, List.find?_nil, Option.map_none, Option.getD_none, Option.getD_some, Bool.not_false,
      show 0 < 1 by decide, and_self, if_true, State.modCredits, advance_credits, lmod_of hc]

end Sys2Proof.Safety
end

section
/-! PROOFS. The Drift links: training, flow control, transfers of checkpoints and snapshots, forwarded epochs (R113, R291 to R301, R404). -/

namespace Sys2Proof.Safety

open Sys2Proof.Machine

@[simp] theorem advance_drift (t : Nat) (s : State) : (s.advance t).drift = s.drift := of_advance t s State.drift fun _ => rfl
@[simp] theorem advance_routing (t : Nat) (s : State) : (s.advance t).routing = s.routing := of_advance t s State.routing fun _ => rfl
@[simp] theorem advance_replicaEpoch (t : Nat) (s : State) : (s.advance t).replicaEpoch = s.replicaEpoch := of_advance t s State.replicaEpoch fun _ => rfl
@[simp] theorem windowed_drift (s : State) (t : Nat) : (windowed s t).drift = s.drift := of_windowed t s State.drift fun _ _ _ => rfl
@[simp] theorem windowed_devCounters (s : State) (t : Nat) : (windowed s t).devCounters = s.devCounters :=
  of_windowed t s State.devCounters fun _ _ _ => rfl
@[simp] theorem windowed_store (s : State) (t : Nat) : (windowed s t).store = s.store := of_windowed t s State.store fun _ _ _ => rfl
@[simp] theorem windowed_storeEpoch (s : State) (t : Nat) : (windowed s t).storeEpoch = s.storeEpoch := of_windowed t s State.storeEpoch fun _ _ _ => rfl
@[simp] theorem windowed_replicas (s : State) (t : Nat) : (windowed s t).replicas = s.replicas := of_windowed t s State.replicas fun _ _ _ => rfl

theorem modDrift_of {s v : State} (hv : v.drift = s.drift) {q : Nat} {d : DriftPort} (h : s.drift[q]? = some d) (f : DriftPort → DriftPort) :
    v.modDrift q f = { v with drift := s.drift.set q (f d) } := by
  unfold State.modDrift
  rw [hv, lmod_of h]

theorem getElem?_set_of {α : Type} {l : List α} {q : Nat} {d : α} (h : l[q]? = some d) (e : α) : (l.set q e)[q]? = some e :=
  List.getElem?_set_self (List.getElem?_eq_some_iff.1 h).1

/-! ### Links (R291, R294, R295, R298, R404) -/

/-- A port whose peer's HELLO is still to come waits for it. -/
theorem driftActivate_of_no_hello {v : State} {q : Nat} {d : DriftPort} (h : v.drift[q]? = some d) (hh : d.helloOk = false) :
    v.driftActivate q = v := by
  unfold State.driftActivate
  rw [port_of h]
  exact if_neg (by simp [hh])

/-- A trained port with the HELLO in is ACTIVE; with nothing waiting that is all. -/
theorem driftActivate_of_hello {v : State} {q : Nat} {d : DriftPort} (h : v.drift[q]? = some d) (ht : d.trained = true) (hh : d.helloOk = true)
    (hw : d.waiting = []) :
    v.driftActivate q = { v with drift := v.drift.set q { d with link := .active, event := true, ackProgress := v.count, lastAckSent := v.count } } := by
  unfold State.driftActivate
  rw [port_of h]
  refine (if_pos ⟨ht, hh⟩).trans ?_
  rw [modDrift_of rfl h]
  refine driftFlush_empty _ _ ?_
  change (List.getD (v.drift.set q _) q _).waiting = []
  rw [getD_of (getElem?_set_of h _)]
  exact hw

section Links
variable {s : State} {q : Nat} {d : DriftPort} (hu : Up s) (hq : q < 3) (h : s.drift[q]? = some d) (t : Nat)

theorem driftPort_advance (h : s.drift[q]? = some d) (t : Nat) : (s.advance t).driftPort q = d := port_of ((congrArg (·[q]?) (advance_drift t s)).trans h)

theorem driftPort_windowed (h : s.drift[q]? = some d) (t : Nat) : (windowed s t).driftPort q = d := port_of ((congrArg (·[q]?) (windowed_drift s t)).trans h)

include hu hq h

theorem exec_driftTrainingStart_down (hr : s.pins.driftRef = true) (hl : d.link = .down) :
    exec (.driftTrainingStart t q) s = .next { s.advance t with
      drift := s.drift.set q { d with link := .training, trained := false, helloOk := false, event := true, route := s.routing } } := by
  refine congrArg Host.Outcome.next ((live_of_up hu t _).trans ((if_neg ?_).trans ?_))
  · rw [driftPort_advance h, advance_pins, hr, hl]
    simp
    omega
  · simp only [modDrift_of (advance_drift t s) h, hl, advance_routing, if_true]

theorem exec_driftTrainingComplete_up {o : LinkOutcome} (hl : d.link = .training) (hn : d.trained = false) (hh : d.helloOk = false) (ho : o.up = true) :
    exec (.driftTrainingComplete t q o) s = .next { s.advance t with
      out := s.out ++ [.driftLink q 1 [d.route.device, d.route.board, s.replicaEpoch]]
      drift := s.drift.set q { d with
        lanes2 := o.degraded1, calPass := o.calPass, repair := false, saved := true, trained := true, helloOk := false
        credits := [64, 64, 64], toReturn := [0, 0, 0], txSeq := 0, rxSeq := 0 } } := by
  have hr : (d.link == LinkState.retrain) = false := by rw [hl]; rfl
  refine congrArg Host.Outcome.next ((live_of_up hu t _).trans ((if_neg ?_).trans ((if_neg (by rw [ho]; decide)).trans ?_)))
  · rw [driftPort_advance h, hl, hn]
    simp
    omega
  · simp only [driftPort_advance h, modDrift_of (advance_drift t s) h, hr, hh, Bool.or_self, Bool.false_eq_true, if_false, advance_replicaEpoch]
    refine (driftActivate_of_no_hello (getElem?_set_of h _) rfl).trans ?_
    rw [State.emit, advance_out]

theorem exec_driftRetrain_active (hl : d.link = .active) :
    exec (.driftRetrain t q) s = .next { s.advance t with drift := s.drift.set q { d with
      link := .retrain, repair := false, retrains := (d.retrains + 1) % 256, event := true, credits := [64, 64, 64] } } := by
  refine congrArg Host.Outcome.next ((live_of_up hu t _).trans ((if_pos ⟨?_, hq⟩).trans ?_))
  · rw [modDrift_of (advance_drift t s) h]
  · rw [driftPort_advance h, hl]

/-- A HELLO that matches makes a trained port ACTIVE (R295). -/
theorem exec_hello_match {dev board epoch : Nat} (hl : d.link = .training) (hn : d.trained = true) (hw : d.waiting = []) (hb : d.route.board = board)
    (hp : d.route.peers[q]? = some (dev, true)) :
    exec (.hello t q dev board epoch) s = .next { windowed s t with drift := s.drift.set q { d with
      helloOk := true, peer := dev, lastEpoch := epoch, rxXfers := d.rxXfers.filter fun x => decide (epoch ≤ x.epoch)
      link := .active, event := true, ackProgress := (s.advance t).count, lastAckSent := (s.advance t).count } } := by
  refine congrArg Host.Outcome.next ((live_of_up hu t _).trans ((if_neg ?_).trans ((if_neg ?_).trans ((if_pos ?_).trans ?_))))
  · rw [driftPort_advance h, hl]
    simp
    omega
  · rw [driftPort_advance h, hb, getD_of hp]
    simp
  · rw [driftPort_advance h, hl]
  · have hd : (s.advance t).active.drift = s.drift := advance_drift t s
    rw [modDrift_of hd h]
    refine (driftActivate_of_hello (getElem?_set_of h _) (by exact hn) (by rfl) (by exact hw)).trans ?_
    rw [List.set_set]
    rfl

theorem exec_hello_foreign {dev board epoch : Nat} (hl : d.link = .training) (hb : d.route.board ≠ board) :
    exec (.hello t q dev board epoch) s = .next (State.report Rep.portHeld [driftNumber q, 0] { windowed s t with
      drift := s.drift.set q { d with link := .heldDown, trained := false, helloOk := false, event := true } }) := by
  have hd : (s.advance t).active.drift = s.drift := advance_drift t s
  refine congrArg Host.Outcome.next ((live_of_up hu t _).trans ((if_neg ?_).trans ((if_pos ?_).trans ?_)))
  · rw [driftPort_advance h, hl]
    simp
    omega
  · rw [driftPort_advance h]
    exact .inl hb
  · rw [modDrift_of hd h]
    rfl

theorem exec_idleRetrainRequest_drift (hl : d.link = .active) :
    exec (.idleRetrainRequest t (16 + q)) s = .next { s.advance t with drift := s.drift.set q { d with repair := true } } := by
  have hn : 16 + q - 16 = q := by omega
  refine congrArg Host.Outcome.next ((live_of_up hu t _).trans ((if_neg (by omega)).trans ((if_pos ?_).trans ?_))) <;> rw [hn]
  · rw [advance_drift, getD_of h, hl]
  · rw [advance_drift, lmod_of h]

/-- A dark port keeps nothing of what was in flight (R298). -/
theorem exec_driftDark_active (hl : d.link = .active) :
    ∃ v : State, v.drift = s.drift.set q { d with
        unacked := [], waiting := [], credits := [64, 64, 64], rxXfers := [], link := .dark, trained := false, helloOk := false, event := true } ∧
      exec (.driftDark t q) s = .next (State.report Rep.peerDark [driftNumber q, 0] v) := by
  have hcut := driftCut_drift q (s.advance t)
  rw [advance_drift, lmod_of h] at hcut
  refine ⟨((s.advance t).driftCut q).modDrift q fun d => { d with link := .dark, trained := false, helloOk := false, event := true }, ?_,
    congrArg Host.Outcome.next ((live_of_up hu t _).trans (if_neg ?_))⟩
  · rw [State.modDrift_drift, hcut, lmod_of (getElem?_set_of h _), List.set_set]
  · rw [driftPort_advance h, hl]
    simp
    omega

end Links

/-- What the loss of the reference clock does to one port (R404). -/
def refclkCut (s : State) (q : Nat) : State :=
  if (s.driftPort q).link = .heldDown ∨ (s.driftPort q).link = .down then s else (s.driftCut q).driftDown q

theorem refclkCut_of {s : State} {q : Nat} {d : DriftPort} (h : s.drift[q]? = some d) :
    ∃ e, (refclkCut s q).drift = s.drift.set q e ∧ (e.link = .down ∨ e.link = .heldDown) ∧ (refclkCut s q).pins = s.pins := by
  unfold refclkCut
  rw [port_of h]
  split
  · rename_i hl
    obtain ⟨hlt, he⟩ := List.getElem?_eq_some_iff.1 h
    exact ⟨d, by rw [← he, List.set_getElem_self], hl.symm, rfl⟩
  · have hcut := driftCut_drift q s
    rw [lmod_of h] at hcut
    refine ⟨{ d with unacked := [], waiting := [], credits := [64, 64, 64], rxXfers := [], link := .down, trained := false, helloOk := false, event := true },
      ?_, .inl rfl, ?_⟩
    · rw [State.driftDown, report_drift, State.modDrift_drift, hcut, lmod_of (getElem?_set_of h _), List.set_set]
    · rw [State.driftDown, report_pins, State.modDrift_pins, driftCut_pins]

/-- Settles O47: each row of a Drift link moves its own port. -/
theorem driftLinkRows : Obligations.DriftLinkRows := by
  unfold Obligations.DriftLinkRows
  refine ⟨fun t q d s hu hq h hr hl => exec_driftTrainingStart_down hu hq h t hr hl,
    fun t q d o s hu hq h hl hn hh ho => exec_driftTrainingComplete_up hu hq h t hl hn hh ho,
    fun t q d s hu hq h hl => exec_driftRetrain_active hu hq h t hl,
    fun t q d dev board epoch s hu hq h hl hn hw hb hp =>
      ⟨_, exec_hello_match hu hq h t hl hn hw hb hp, rfl, _, getElem?_set_of h _, rfl, rfl, rfl⟩,
    fun t q d dev board epoch s hu hq h hl hb => ⟨_, exec_hello_foreign hu hq h t hl hb, ?_⟩,
    fun t q d s hu hq h hl => exec_idleRetrainRequest_drift hu hq h t hl, fun t q d s hu hq h hl => ?_, fun t s hu hl => ?_, fun t s hu => ?_⟩
  · rw [report_drift]
    exact ⟨_, getElem?_set_of h _, rfl⟩
  · obtain ⟨v, hv, he⟩ := exec_driftDark_active hu hq h t hl
    refine ⟨_, he, ?_⟩
    rw [report_drift, hv]
    exact ⟨_, getElem?_set_of h _, rfl, rfl, rfl, rfl, rfl⟩
  · obtain ⟨a, b, c, habc⟩ := List.length_eq_three.1 hl
    have h0 : State.drift { s.advance t with pins := { (s.advance t).pins with driftRef := false } } = [a, b, c] := (advance_drift t s).trans habc
    obtain ⟨a', h1, ha, p1⟩ := refclkCut_of (q := 0) ((congrArg (·[0]?) h0).trans rfl)
    rw [h0] at h1
    obtain ⟨b', h2, hb, p2⟩ := refclkCut_of (q := 1) ((congrArg (·[1]?) h1).trans rfl)
    rw [h1] at h2
    obtain ⟨c', h3, hc, p3⟩ := refclkCut_of (q := 2) ((congrArg (·[2]?) h2).trans rfl)
    rw [h2] at h3
    refine ⟨_, congrArg Host.Outcome.next (live_of_up hu t _), p3.trans (p2.trans (p1.trans ?_)), fun d hd => ?_⟩
    · exact congrArg (fun p : Pins => { p with driftRef := false }) (advance_pins t s)
    · have hd' : d ∈ [a', b', c'] := (congrArg (fun l => d ∈ l) h3).mp hd
      simp only [List.mem_cons, List.not_mem_nil, or_false] at hd'
      rcases hd' with rfl | rfl | rfl
      · exact ha
      · exact hb
      · exact hc
  · refine congrArg Host.Outcome.next ((live_of_up hu t _).trans ?_)
    rw [advance_pins]

/-! ### Flow control (R296, R297) -/

/-- Settles O48: credits add up to their limit, and each of the other rows sends what it says. -/
theorem driftFlowRows : Obligations.DriftFlowRows := by
  unfold Obligations.DriftFlowRows
  intro t q d s hr hq h hl
  have hp : (s.advance t).driftPort q = d := driftPort_advance h t
  have hpw : (s.advance t).active.driftPort q = d := driftPort_windowed h t
  have hdw : (s.advance t).active.drift = s.drift := windowed_drift s t
  have row (f : State → State) {u : State} (hf : f (s.advance t) = u) : done (s.run t f) = .next u :=
    congrArg Host.Outcome.next ((run_of_ready hr t f).trans hf)
  refine ⟨fun ack a b c x y z hw hu hc => row _ ((if_neg ?_).trans ?_), fun seq => row _ ((if_pos ?_).trans ?_),
    fun hu hd => row _ ((if_pos ?_).trans ?_), row _ ((if_neg ?_).trans ?_), fun seq => row _ ((if_pos ?_).trans ?_)⟩
  · rw [hp, hl]
    simp
    omega
  · change State.driftFlush q (State.driftAck q ack ((s.advance t).active.modDrift q fun d =>
      { d with credits := (d.credits.zip ([x, y, z] ++ [0, 0, 0])).map fun c => min 64 (c.1 + c.2) })) = _
    rw [modDrift_of hdw h, hc, driftAck_empty, driftFlush_empty]
    · rfl
    · change (List.getD (s.drift.set q _) q _).waiting = []
      rw [getD_of (getElem?_set_of h _)]
      exact hw
    · change (List.getD (s.drift.set q _) q _).unacked = []
      rw [getD_of (getElem?_set_of h _)]
      exact hu
  · rw [hp]
    exact ⟨hl, hq⟩
  · rw [State.replayFrom, hpw, show (s.advance t).active = windowed s t from rfl, windowed_out]
  · rw [hp]
    exact ⟨hl, hq, by simpa using hu, hd⟩
  · have hdr : (State.replayFrom q (fun _ => true) (s.advance t)).drift = s.drift := advance_drift t s
    rw [modDrift_of hdr h, State.replayFrom, hp, List.filter_true, advance_out]
  · rw [hp, hl]
    simp
    omega
  · rw [modDrift_of (advance_drift t s) h, hp, State.emit, advance_out]
  · rw [hp]
    exact ⟨hl, hq⟩
  · have hpd : ((s.advance t).active.devCount Cnt.driftError 1).driftPort q = d := hpw
    rw [State.nakBack, hpd]
    simp only [State.emit, State.devCount]
    rw [show (s.advance t).active = windowed s t from rfl, windowed_out, windowed_devCounters]

/-! ### Transfers (R299, R300) -/

section Transfers
variable {s : State} {q : Nat} {d : DriftPort} {h : DriftHdr} (hr : Ready s) (hq : q < 3) (hd : s.drift[q]? = some d) (hl : d.link = .active)
  (hu : d.unacked = []) (hs : h.seq = d.rxSeq) (he : d.lastEpoch ≤ h.epoch) (t : Nat)

/-- The state in which a message in order is taken: its SEQ is passed and its credit is due back. -/
def atDrift (s : State) (t q : Nat) (d : DriftPort) (cls : Nat) (h : DriftHdr) : State :=
  { windowed s t with drift := s.drift.set q (taken' d cls h) }

theorem atDrift_port (hd : s.drift[q]? = some d) (t cls : Nat) (h : DriftHdr) : (atDrift s t q d cls h).drift[q]? = some (taken' d cls h) :=
  getElem?_set_of hd _

theorem atDrift_driftPort (hd : s.drift[q]? = some d) (t cls : Nat) (h : DriftHdr) : (atDrift s t q d cls h).driftPort q = taken' d cls h :=
  port_of (atDrift_port hd t cls h)

/-- The one transfer of a port whose epoch is not past stays. -/
theorem taken_rxXfers {x : RxXfer} (hx : d.rxXfers = [x]) (hx4 : h.epoch ≤ x.epoch) (cls : Nat) : (taken' d cls h).rxXfers = [x] := by
  unfold taken'
  simp [hx, hx4]

/-- A replica that finds room is stored with two spare pages (R300). -/
theorem storeReplica_room {v : State} (hv : v.replicas = []) (hroom : v.spareUsed.length + 2 + 4096 ≤ v.spareSpan.2) (hfree : 2 ≤ v.spareFree) (rep : Replica) :
    v.storeReplica rep = ({ v with replicas := [{ rep with pages := v.allocate v.spareSpan 2 }] }, true) := by
  unfold State.storeReplica
  have hdrop (p : Replica → Bool) : v.dropReplicas p = { v with replicas := [] } := by
    unfold State.dropReplicas
    simp only [hv, List.filter_nil, List.flatMap_nil, releasePages_nil]
  simp only [hdrop, List.length_nil, Nat.zero_add, Nat.mul_one, hroom, hfree, and_self, if_true, List.nil_append]

theorem storeReplica_full {v : State} (hv : v.replicas = []) (hfull : v.spareSpan.2 < v.spareUsed.length + 2 + 4096) (rep : Replica) :
    v.storeReplica rep = (v, false) := by
  unfold State.storeReplica
  have hdrop (p : Replica → Bool) : v.dropReplicas p = { v with replicas := [] } := by
    unfold State.dropReplicas
    simp only [hv, List.filter_nil, List.flatMap_nil, releasePages_nil]
  simp only [hdrop, List.length_nil, Nat.zero_add, Nat.mul_one]
  exact if_neg (by omega)

include hr hq hd hl hu hs he

theorem driftIn_at (cls : Nat) (f : State → State) : s.driftIn t q cls h f = f (atDrift s t q d cls h) :=
  driftIn_of hr hq hd hl hu hs he t cls f

theorem exec_snapData_new {xfer len : Nat} (hn : ∀ x ∈ d.rxXfers, ¬(x.cls = 2 ∧ x.xfer = xfer)) :
    exec (.snapData t q h xfer 0 len) s = .next { windowed s t with drift := s.drift.set q { taken' d 2 h with
      rxXfers := (taken' d 2 h).rxXfers ++ [⟨2, xfer, h.epoch, 0, len⟩] } } := by
  refine congrArg Host.Outcome.next ((driftIn_of hr hq hd hl hu hs he t 2 _).trans ?_)
  refine (addData_new (getElem?_set_of hd _) (find_none_filter d h.epoch 2 xfer hn)).trans ?_
  rw [List.set_set]
  rfl

theorem exec_ckptData_new {xfer stream len : Nat} (hn : ∀ x ∈ d.rxXfers, ¬(x.cls = 3 ∧ x.xfer = xfer)) :
    exec (.ckptData t q h xfer stream 0 len) s = .next { windowed s t with drift := s.drift.set q { taken' d 3 h with
      rxXfers := (taken' d 3 h).rxXfers ++ [⟨3, xfer, h.epoch, stream, len⟩] } } := by
  refine congrArg Host.Outcome.next ((driftIn_of hr hq hd hl hu hs he t 3 _).trans ?_)
  refine (addData_new (getElem?_set_of hd _) (find_none_filter d h.epoch 3 xfer hn)).trans ?_
  rw [List.set_set]
  rfl

/-- A seal takes its transfer off the port; what follows is the replica's store. -/
theorem exec_ckptSeal_whole {xfer : Nat} {rep : Replica} {x : RxXfer} (hx : d.rxXfers = [x]) (hc : x.cls = 3) (hf : x.xfer = xfer)
    (hx4 : h.epoch ≤ x.epoch) :
    ∃ v : State, v = { windowed s t with drift := s.drift.set q { taken' d 3 h with rxXfers := [] } } ∧
      exec (.ckptSeal t q h xfer x.bytes rep) s = .next (if (v.storeReplica { rep with dev := d.peer }).2
        then (v.storeReplica { rep with dev := d.peer }).1
        else (v.storeReplica { rep with dev := d.peer }).1.emit (.driftLink q 10 [h.ctx])) := by
  refine ⟨_, rfl, congrArg Host.Outcome.next ((driftIn_at hr hq hd hl hu hs he t 3 _).trans ?_)⟩
  have htake : (atDrift s t q d 3 h).takeXfer q 3 xfer x.bytes =
      ({ windowed s t with drift := s.drift.set q { taken' d 3 h with rxXfers := [] } }, true) := by
    refine (takeXfer_of (atDrift_port hd t 3 h) (taken_rxXfers hx hx4 3) hc hf).trans ?_
    rw [show (atDrift s t q d 3 h).drift = s.drift.set q (taken' d 3 h) from rfl, List.set_set, beq_self_eq_true]
    rfl
  have hport : ((atDrift s t q d 3 h).driftPort q).peer = d.peer := (congrArg DriftPort.peer (atDrift_driftPort hd t 3 h)).trans rfl
  generalize atDrift s t q d 3 h = w at htake hport
  simp only [htake, hport, if_true]

/-- CKPT_DROP discards the replica and what has come of its transfer. -/
theorem exec_ckptDrop_of {stream : Nat} : exec (.ckptDrop t q h stream) s = .next
    { (atDrift s t q d 3 h).dropReplicas (fun r => r.dev == d.peer && r.stream == stream) with
      drift := lmod (atDrift s t q d 3 h).drift q fun (d : DriftPort) => { d with rxXfers := d.rxXfers.filter fun x => !(x.cls == 3 && x.stream == stream) } } := by
  have hport : ((atDrift s t q d 3 h).driftPort q).peer = d.peer := (congrArg DriftPort.peer (atDrift_driftPort hd t 3 h)).trans rfl
  refine congrArg Host.Outcome.next ((driftIn_at hr hq hd hl hu hs he t 3 _).trans ?_)
  generalize atDrift s t q d 3 h = w at hport
  simp only [hport]

end Transfers

/-- Settles O49: data opens a transfer, a seal stores the replica where there is room, CKPT_DROP discards. -/
theorem driftTransferRows : Obligations.DriftTransferRows := by
  unfold Obligations.DriftTransferRows
  intro t q d h s hr hq hd hl hu hs he
  refine ⟨fun xfer len hn => ⟨_, exec_snapData_new hr hq hd hl hu hs he t hn, rfl, _, getElem?_set_of hd _, rfl⟩,
    fun xfer stream len hn => ⟨_, exec_ckptData_new hr hq hd hl hu hs he t hn, rfl, _, getElem?_set_of hd _, rfl⟩,
    fun xfer rep x hx hc hf hx4 hrep => ?_, fun stream => ⟨_, exec_ckptDrop_of hr hq hd hl hu hs he t, ?_, ?_⟩⟩
  · obtain ⟨v, hv, hexec⟩ := exec_ckptSeal_whole hr hq hd hl hu hs he t (rep := rep) hx hc hf hx4
    have hreps : v.replicas = [] := by rw [hv]; exact (windowed_replicas s t).trans hrep
    have hused : v.spareUsed = s.spareUsed := by rw [hv]; exact of_windowed t s State.spareUsed fun _ _ _ => rfl
    have hspan : v.spareSpan = s.spareSpan := by rw [hv]; exact of_windowed t s State.spareSpan fun _ _ _ => rfl
    have hfree : v.spareFree = s.spareFree := by rw [hv]; exact of_windowed t s State.spareFree fun _ _ _ => rfl
    have hdrift : v = { windowed s t with drift := v.drift } := by rw [hv]
    refine ⟨fun hroom h2 => ?_, fun hfull => ?_⟩
    · rw [storeReplica_room hreps (by rw [hused, hspan]; exact hroom) (by rw [hfree]; exact h2), if_pos rfl] at hexec
      refine ⟨_, v.allocate v.spareSpan 2, hexec, ?_, rfl⟩
      rw [hdrift]
    · rw [storeReplica_full hreps (by rw [hused, hspan]; exact hfull), if_neg Bool.false_ne_true] at hexec
      refine ⟨_, hexec, ?_, ?_⟩
      · rw [hdrift]
        rfl
      · rw [State.emit, hdrift]
        exact congrArg (· ++ _) (windowed_out s t)
  · refine (dropReplicas_replicas _ _).trans ?_
    rw [show (atDrift s t q d 3 h).replicas = s.replicas from windowed_replicas s t]
  · refine ⟨_, (congrArg (·[q]?) (lmod_of (atDrift_port hd t 3 h) _)).trans (getElem?_set_of (atDrift_port hd t 3 h) _), fun x hx => ?_⟩
    have := (List.mem_filter.1 hx).2
    simpa [← not_and_or] using this

/-! ### Forwarded fingerprint epochs (R113) -/

/-- Records staged while no page is poisoned change the store and use up choices, nothing else. -/
theorem storeRecords_of_no_poison {s : State} (h : s.poisoned = []) (rs : List Bytes) :
    ∃ st, (s.storeRecords rs).1 = { s with store := st, freshCtr := s.freshCtr + rs.length } := by
  have fold (l : List Bytes) : ∀ (st : Store) (os : List FpOutcome), ∃ st' os', l.foldl
      (fun (a : State × List FpOutcome) r => ((a.1.storeRecord (s.freshCtr + a.2.length) r).1, a.2 ++ [(a.1.storeRecord (s.freshCtr + a.2.length) r).2]))
      ({ s with store := st }, os) = ({ s with store := st' }, os') := by
    induction l with
    | nil => exact fun st os => ⟨st, os, rfl⟩
    | cons r l ih =>
      intro st os
      rw [List.foldl_cons, storeRecord_of_no_poison (s := { s with store := st }) h]
      exact ih _ _
  obtain ⟨st, os, he⟩ := fold rs s.store []
  refine ⟨st, ?_⟩
  unfold State.storeRecords
  exact congrArg (fun a : State × List FpOutcome => ({ a.1 with freshCtr := s.freshCtr + rs.length } : State)) he

/-- A peer's epoch, where the store is idle and nothing waits, is staged at once. -/
theorem takeForwarded_of_idle {s : State} {dev epoch : Nat} (he : s.store.epoch = .idle) (hf : s.store.forwarded = []) :
    s.takeForwarded dev epoch = { s with store := { s.store with
      epoch := .opened, fromPeer := true, records := 0, forwarded := [⟨dev, epoch, [], none⟩] } } := by
  have h1 : s.store.forwardedOf dev epoch = none := by rw [Store.forwardedOf, hf]; rfl
  have h2 : s.store.foreign = false := by rw [Store.foreign, he]; rfl
  unfold State.takeForwarded
  rw [h1, h2, hf, if_neg (by decide), if_neg (by decide)]
  unfold State.startForwarded
  simp only [List.nil_append, he, if_true]
  rfl

theorem takeForwarded_of_known {s : State} {dev epoch : Nat} {f : Forwarded} (h : s.store.forwardedOf dev epoch = some f) :
    s.takeForwarded dev epoch = s := by
  unfold State.takeForwarded
  rw [h]
  rfl

theorem forwardedOf_single {st : Store} {f : Forwarded} (h : st.forwarded = [f]) : st.forwardedOf f.dev f.epoch = some f := by
  rw [Store.forwardedOf, h]
  simp

/-- The first records of a peer's epoch open it and are staged. -/
theorem stageRecords_of_idle {s : State} {dev epoch : Nat} {rs : List Bytes} (he : s.store.epoch = .idle) (hf : s.store.forwarded = [])
    (hp : s.poisoned = []) :
    ∃ u, s.stageRecords dev epoch rs = u ∧ u = { s with store := u.store, freshCtr := u.freshCtr } ∧
      u.store.forwarded = [⟨dev, epoch, rs, none⟩] ∧ u.store.epoch = .opened ∧ u.store.fromPeer = true := by
  have htake := takeForwarded_of_idle (dev := dev) (epoch := epoch) he hf
  generalize hw : ({ s with store := { s.store with
    epoch := .opened, fromPeer := true, records := 0, forwarded := [⟨dev, epoch, [], none⟩] } } : State) = w at htake
  have hfw : w.store.forwarded = [⟨dev, epoch, [], none⟩] := by rw [← hw]
  have hpw : w.poisoned = [] := by rw [← hw]; exact hp
  have hfor : w.store.foreign = true := by rw [← hw]; rfl
  obtain ⟨st, hst⟩ := storeRecords_of_no_poison hpw rs
  have hmeta := storeRecords_meta rs w
  rw [hst] at hmeta
  have m1 : st.forwarded = w.store.forwarded := congrArg (·.1) hmeta
  have m2 : st.epoch = w.store.epoch := congrArg (·.2.1) hmeta
  have m3 : st.fromPeer = w.store.fromPeer := congrArg (·.2.2.1) hmeta
  have hrun : s.stageRecords dev epoch rs = { w with
      store := { st with forwarded := [⟨dev, epoch, rs, none⟩] }, freshCtr := w.freshCtr + rs.length } := by
    unfold State.stageRecords
    rw [htake]
    simp only [forwardedOf_single hfw, hfor, hfw, hst, m1, List.head?_cons, beq_self_eq_true, Bool.and_self, if_true, List.map_cons, List.map_nil,
      List.nil_append]
  refine ⟨_, hrun, ?_, rfl, ?_, ?_⟩
  · rw [← hw]
  · exact m2.trans (by rw [← hw])
  · exact m3.trans (by rw [← hw])

/-- The commit of the epoch that is staged, with every record here. -/
theorem forwardedCommit_of_staged {s : State} {dev epoch : Nat} {rs : List Bytes} (he : s.store.epoch = .opened) (hp : s.store.fromPeer = true)
    (hf : s.store.forwarded = [⟨dev, epoch, rs, none⟩]) :
    s.forwardedCommit dev epoch rs.length = { s with
      storeEpoch := (s.storeEpoch + 1) % 2 ^ 32
      store := { s.store with forwarded := [], epoch := .sweeping, effect := s.count, peers := [], fromPeer := false } } := by
  have hk := forwardedOf_single hf
  have hfor : s.store.foreign = true := by rw [Store.foreign, he, hp]; rfl
  unfold State.forwardedCommit
  simp only [takeForwarded_of_known hk, hk, hfor, hf, ne_eq, not_true_eq_false, if_false, List.head?_cons, beq_self_eq_true, Bool.and_self, if_true,
    State.fpCommit, List.erase_cons_head]

/-- Activity at the count it has already been noted at changes nothing. -/
theorem active_of_noted {s : State} (hp : s.power ≠ .dormant) (hl : s.lastActivity = s.count) : s.active = s := by
  unfold State.active
  rw [if_neg hp]
  exact congrArg (fun n => ({ s with lastActivity := n } : State)) hl.symm

theorem windowed_power (s : State) (t : Nat) : (windowed s t).power ≠ .dormant := by
  change (if (s.advance t).power = .dormant then PowerMode.run else (s.advance t).power) ≠ .dormant
  split
  · decide
  · assumption

/-- The epoch that is staged is dropped, what it staged with it. -/
theorem dropForwarded_of_staged {s : State} {f : Forwarded} (he : s.store.epoch = .opened) (hp : s.store.fromPeer = true)
    (hf : s.store.forwarded = [f]) (hz : s.poisoned = []) (hd : s.power ≠ .dormant) (hl : s.lastActivity = s.count) :
    s.dropForwarded f = { s with store := { s.store.settle false with forwarded := [] } } := by
  have hfor : s.store.foreign = true := by rw [Store.foreign, he, hp]; rfl
  have hset : (s.store.settle false).forwarded = [f] := (settle_forwarded false s.store).trans hf
  unfold State.dropForwarded
  rw [hfor, hf]
  simp only [List.head?_cons, beq_self_eq_true, Bool.and_self, if_true]
  rw [storeSettle_of_no_poison hz, active_of_noted (s := { s with store := s.store.settle false }) hd hl]
  simp only [hset, List.erase_cons_head]
  rfl

/-- The abort of an epoch the store knows drops it. -/
theorem exec_fpAbort_of_known {s v w : State} {t q epoch peer : Nat} {h : DriftHdr} {f : Forwarded}
    (hrow : ∀ g, done (s.driftIn t q 1 h g) = .next (g w)) (hp : (w.driftPort q).peer = peer)
    (hf : w.store.forwardedOf peer epoch = some f) (hv : w.dropForwarded f = v) : exec (.fpAbort t q h epoch) s = .next v := by
  refine (hrow _).trans (congrArg Host.Outcome.next ?_)
  simp only [hp, hf, hv]

/-- Settles O51: the peer's epoch is opened by its first records, committed with all of them, or dropped. -/
theorem forwardedEpochRows : Obligations.ForwardedEpochRows := by
  unfold Obligations.ForwardedEpochRows
  intro t q d h epoch s hr hq hd hl hu hs he hz
  have hport (cls : Nat) : ((atDrift s t q d cls h).driftPort q).peer = d.peer := (congrArg DriftPort.peer (atDrift_driftPort hd t cls h)).trans rfl
  have hstore (cls : Nat) : (atDrift s t q d cls h).store = s.store := windowed_store s t
  have hpois (cls : Nat) : (atDrift s t q d cls h).poisoned = [] := (of_windowed t s State.poisoned fun _ _ _ => rfl).trans hz
  have row (f : State → State) : done (s.driftIn t q 1 h f) = .next (f (atDrift s t q d 1 h)) :=
    congrArg Host.Outcome.next (driftIn_at hr hq hd hl hu hs he t 1 f)
  refine ⟨fun recs hi hf => ?_, fun recs ho hp hf => ?_, fun recs ho hp hf => ?_⟩
  · obtain ⟨u, hrun, hsame, h1, h2, h3⟩ := stageRecords_of_idle (s := atDrift s t q d 1 h) (dev := d.peer) (epoch := epoch) (rs := recs)
      (by rw [hstore, hi]) (by rw [hstore, hf]) (hpois 1)
    refine ⟨u, (row _).trans (congrArg Host.Outcome.next ?_), ?_, h1, h2, h3, ?_⟩
    · rw [hport, hrun]
    · rw [hsame]
      rfl
    · rw [hsame]
      exact windowed_storeEpoch s t
  · have hrun := forwardedCommit_of_staged (s := atDrift s t q d 1 h) (dev := d.peer) (epoch := epoch) (rs := recs) (by rw [hstore, ho])
      (by rw [hstore, hp]) (by rw [hstore, hf])
    rw [hstore, show (atDrift s t q d 1 h).storeEpoch = s.storeEpoch from windowed_storeEpoch s t] at hrun
    refine ⟨_, (row _).trans (congrArg Host.Outcome.next ((congrArg (fun p => State.forwardedCommit p epoch recs.length _) (hport 1)).trans hrun)), ?_, ?_⟩ <;> rfl
  · have hrun := dropForwarded_of_staged (s := atDrift s t q d 1 h) (f := ⟨d.peer, epoch, recs, none⟩) (by rw [hstore, ho]) (by rw [hstore, hp])
      (by rw [hstore, hf]) (hpois 1) (windowed_power s t) rfl
    rw [hstore] at hrun
    have hknown : (atDrift s t q d 1 h).store.forwardedOf d.peer epoch = some ⟨d.peer, epoch, recs, none⟩ := by
      rw [hstore]
      exact forwardedOf_single hf
    exact ⟨_, exec_fpAbort_of_known row (hport 1) hknown hrun, rfl, rfl, windowed_storeEpoch s t⟩

end Sys2Proof.Safety
end

section
/-! PROOFS. Engines, and what completes in a stream's life: evaluations, write-backs, snapshots, hot slots, closing, restores, zeroing
(R38 to R48, R56, R133 to R139, R189, R243 to R258, R270). -/

namespace Sys2Proof.Safety

open Sys2Proof.Machine

/-! ### Accesses, and what the arrival count leaves -/

/-- An access that meets an error in a page of its own does what an error there does. -/
theorem access_stack {own : List Nat} {p : Nat} (h : p ∈ own) (s : State) (bad good : State → State) :
    s.access own (.stack p) bad good = bad (s.poison p) := by
  simp [State.access, State.meet, eccFatal, eccInPart, eccInImage, h]

@[simp] theorem advance_passes (t : Nat) (s : State) : (s.advance t).passes = s.passes := of_advance t s State.passes fun _ => rfl
@[simp] theorem advance_barred (t : Nat) (s : State) (u : UnitId) (c : Nat) : (s.advance t).barred u c = s.barred u c :=
  of_advance t s (fun v => v.barred u c) fun _ => rfl
@[simp] theorem advance_ctx (t : Nat) (s : State) (c : Nat) : (s.advance t).ctx c = s.ctx c := of_advance t s (fun v => v.ctx c) fun _ => rfl
@[simp] theorem advance_streamSetting (t : Nat) (s : State) (sid k : Nat) : (s.advance t).streamSetting sid k = s.streamSetting sid k :=
  of_advance t s (fun v => v.streamSetting sid k) fun _ => rfl
@[simp] theorem advance_xfers (t : Nat) (s : State) : (s.advance t).xfers = s.xfers := of_advance t s State.xfers fun _ => rfl
@[simp] theorem advance_zeroing (t : Nat) (s : State) : (s.advance t).zeroing = s.zeroing := of_advance t s State.zeroing fun _ => rfl
@[simp] theorem advance_seamPoison (t : Nat) (s : State) : (s.advance t).seamPoison = s.seamPoison := of_advance t s State.seamPoison fun _ => rfl

/-! ### Engines -/

/-- A fold whose steps all leave its value leaves it. -/
theorem foldl_eq_of_mem {α σ : Type} {f : σ → α → σ} {s : σ} {l : List α} (h : ∀ a ∈ l, f s a = s) : l.foldl f s = s := by
  induction l with
  | nil => rfl
  | cons a l ih =>
    rw [List.foldl_cons, h a List.mem_cons_self]
    exact ih fun b hb => h b (List.mem_cons_of_mem _ hb)

/-- Where no read of a running chain meets an error, the reads change nothing. -/
theorem chainReads_clean {s : State} (hp : s.poisoned = []) : (s.chainReads []).foldl State.chainRead s = s := by
  refine foldl_eq_of_mem fun q hq => ?_
  obtain ⟨c, -, rfl⟩ := List.mem_map.mp hq
  unfold State.chainRead
  dsimp only
  split
  · rfl
  · exact access_clean hp _ _ _

section Engines
variable {s : State} (h : Ready s) (t : Nat)
include h

theorem exec_firing_between (hc : (s.advance t).count % 500 ≠ 0) (errs : List (Nat × Ecc)) : exec (.firing t errs) s = .next (s.advance t) :=
  congrArg Host.Outcome.next ((run_of_ready h t _).trans (if_pos hc))

theorem exec_firing_boundary (hc : (s.advance t).count % 500 = 0) (hp : s.poisoned = []) :
    exec (.firing t []) s = .next (s.advance t).fireHearths.progressEvery := by
  refine congrArg Host.Outcome.next ((run_of_ready h t _).trans ((if_neg (not_not.mpr hc)).trans ?_))
  dsimp only
  rw [chainReads_clean ((advance_poisoned t s).trans hp)]
  exact if_pos ((advance_mode t s).trans h.2)

theorem exec_gatePassTick_between (hc : (s.advance t).count % 50 ≠ 0) (ctx : Nat) (e : Ecc) :
    exec (.gatePassTick t ⟨ctx, e⟩) s = .next (s.advance t) :=
  congrArg Host.Outcome.next ((run_of_ready h t _).trans (if_pos hc))

theorem exec_gatePassTick (hc : (s.advance t).count % 50 = 0) (hp : s.poisoned = []) (ctx : Nat) :
    exec (.gatePassTick t ⟨ctx, .clean⟩) s = .next (((s.advance t).gateTick ctx).progressCtx ctx) := by
  refine congrArg Host.Outcome.next ((run_of_ready h t _).trans ((if_neg (not_not.mpr hc)).trans ?_))
  rw [access_clean ((advance_poisoned t s).trans hp), ite_self]

theorem exec_fluePassEnd {f ctx model : Nat} {p : PassPos} (hm : p ∈ s.passes) (hf : p.flue = some f) (hr : p.running = true)
    (hc : p.ctx = ctx) (hmo : p.model = model) (hb : s.barred (.flue f) ctx = false) (hp : s.poisoned = []) :
    exec (.fluePassEnd t f ctx model .clean) s = .next (((s.advance t).endFluePass f ctx model).progressCtx ctx) := by
  have hany : (s.passes.any fun p => p.flue == some f && p.running && p.ctx == ctx && p.model == model) = true :=
    List.any_eq_true.mpr ⟨p, hm, by simp [hf, hr, hc, hmo]⟩
  refine congrArg Host.Outcome.next ((run_of_ready h t _).trans ((if_pos ?_).trans ?_))
  · rw [advance_passes, advance_barred, hb]
    exact ⟨hany, rfl⟩
  · exact access_clean ((advance_poisoned t s).trans hp) _ _ _
end Engines

/-- Settles O13: between two boundaries an engine's row leaves the block as it is; on one, with clean reads, it fires. -/
theorem engineRows : Obligations.EngineRows := by
  unfold Obligations.EngineRows
  rintro t s w h rfl
  exact ⟨fun hc errs => exec_firing_between h t hc errs, fun hc hp => exec_firing_boundary h t hc hp,
    fun ctx e hc => exec_gatePassTick_between h t hc ctx e, fun ctx hc hp => exec_gatePassTick h t hc hp ctx,
    fun f ctx model p hm hf hr hc hmo hb hp => exec_fluePassEnd h t hm hf hr hc hmo hb hp⟩

/-! ### What completes for a stream -/

section Streams
variable {s : State} {x : Stream} {sid : Nat} (h : Ready s) (hx : s.stream sid = some x) (t : Nat)
include h hx

theorem exec_requestEvaluationComplete {r : ReqEval} (hp : s.poisoned = []) (hr : x.reqRun = some r)
    (hs : s.suspended x.e.ctx (s.advance t).count = false) :
    exec (.requestEvaluationComplete t sid .clean) s = .next (State.progress sid ((s.advance t).requestDone sid)) := by
  have hsus : (s.advance t).suspended x.e.ctx (s.advance t).count = false :=
    (of_advance t s (fun v => v.suspended x.e.ctx (s.advance t).count) fun _ => rfl).trans hs
  refine congrArg Host.Outcome.next ((run_of_ready h t _).trans ?_)
  simp only [advance_stream, hx, hr, hsus, Bool.false_eq_true, if_false]
  exact access_clean ((advance_poisoned t s).trans hp) _ _ _

omit hx in
theorem exec_checkpointWriteComplete (hp : s.poisoned = []) (hq : s.seamPoison = []) :
    exec (.checkpointWriteComplete t sid) s = .next (State.progress sid ((s.advance t).ckptWritten sid)) := by
  refine congrArg Host.Outcome.next ((run_of_ready h t _).trans ?_)
  dsimp only
  rw [meet_none ((advance_poisoned t s).trans hp) ((advance_seamPoison t s).trans hq)]
  rfl

theorem exec_snapshotWriteComplete_err {m : Snapshot} (hm : x.saving = some m) (hl : pagesOf m.bytes ≤ m.pages.length) :
    exec (.snapshotWriteComplete t sid true) s =
      .next (State.progress sid (((s.advance t).endSave sid E.internal).releasePages m.pages)) := by
  refine congrArg Host.Outcome.next ((run_of_ready h t _).trans ?_)
  simp only [advance_stream, hx, Option.bind_some, hm, Nat.not_lt.mpr hl, if_false, if_true]

theorem exec_snapshotRestoreComplete_stack {m : Snapshot} {p : Nat} (hm : x.restore = some m) (hp : p ∈ m.pages) :
    exec (.snapshotRestoreComplete t sid (.stack p)) s =
      .next (State.progress sid (State.restoreFailed sid m ((s.advance t).poison p))) := by
  refine congrArg Host.Outcome.next ((run_of_ready h t _).trans ?_)
  simp only [advance_stream, hx, Option.bind_some, hm, access_stack hp]
end Streams

/-- The slot that a written capture `k` becomes: the one that is not valid (R253). -/
def writtenCkpt (k : Checkpoint) (toB : Bool) (z : Stream) : Stream :=
  { z with slotA := if toB then z.slotA else some k, slotB := if toB then some k else z.slotB
           validB := toB, writing := none, e := { z.e with ckptPos := k.pos, ckptValid := true } }

theorem validCkpt_written (k : Checkpoint) (toB : Bool) (z : Stream) : (writtenCkpt k toB z).validCkpt = some k := by
  cases toB <;> rfl

/-- A written capture with none pending is replicated, and nothing more where no request is evaluated at a checkpoint. -/
theorem ckptWritten_of {s : State} {sid : Nat} {x : Stream} {k : Checkpoint} (hx : s.stream sid = some x) (hk : x.writing = some k)
    (hc : x.capPending = false) (hs : s.streamSetting sid Setting.reqAtCkpt = 0) :
    s.ckptWritten sid =
      State.replicateCapture sid ((s.endXferOf .ckptWrite sid).modStream sid (writtenCkpt k (x.e.ckptValid && !x.validB))) := by
  unfold State.ckptWritten
  simp only [hx, hk, hc, hs, Bool.false_eq_true, if_false, Nat.zero_ne_one]
  rfl

/-- Settles O14: each completion does its part for the stream, read through what its pages hold. -/
theorem streamWorkRows : Obligations.StreamWorkRows := by
  unfold Obligations.StreamWorkRows
  rintro t sid s w x h rfl hx hp hq
  have hw : (s.advance t).stream sid = some x := (advance_stream t s sid).trans hx
  refine ⟨fun r hr hs => exec_requestEvaluationComplete h hx t hp hr hs,
    fun k hk => ⟨exec_checkpointWriteComplete h t hp hq, fun hc => ?_⟩,
    fun n hn hl => ⟨exec_snapshotWriteComplete_ok h (by rw [hx]; exact hn) hl t, exec_snapshotWriteComplete_err h hx t hn hl⟩,
    fun n hn => ⟨exec_snapshotRestoreComplete_clean h hp (by rw [hx]; exact hn) t,
      fun p hm => exec_snapshotRestoreComplete_stack h hx t hn hm⟩⟩
  have hend : ((s.advance t).endXferOf .ckptWrite sid).stream sid = some x := (congrArg (fun l => tget l sid) (endXferOf_streams _ _ _)).trans hw
  exact ⟨_, _, rfl, stream_mod hend _, validCkpt_written k _ x,
    fun hs => ckptWritten_of hw hk hc ((advance_streamSetting t s sid _).trans hs)⟩

/-! ### A stream's life -/

/-- What closing makes of a stream at a count (R38): a faulted one that had no reason gets its own. -/
def closedAsDrained (now : Nat) (x : Stream) : Stream :=
  { (if x.e.state = .faulted ∧ x.e.closeReason = 0 then x.closeWith now 10 else x) with
    e := { (if x.e.state = .faulted ∧ x.e.closeReason = 0 then x.closeWith now 10 else x).e with state := .closed } }

theorem drained_state {s : State} {x : Machine.Stream} {sid : Nat} (hd : s.drained sid x = true) : x.e.state = .draining := by
  by_contra hne
  simp [State.drained, beq_eq_false_iff_ne.mpr hne] at hd

section Life
variable {s : State} {x : Stream} {sid : Nat} (h : Ready s) (hx : s.stream sid = some x) (t : Nat)
include h hx

theorem exec_warmIn (hn : s.needsHot sid x = true) (hu : s.hotUsed x.e.ctx < (s.ctx x.e.ctx).resv.hotSlots) :
    exec (.warmIn t sid) s = .next (State.progress sid ((s.advance t).takeHot sid)) := by
  have h1 : (s.advance t).needsHot sid x = s.needsHot sid x := of_advance t s (fun v => v.needsHot sid x) fun _ => rfl
  have h2 : (s.advance t).hotUsed x.e.ctx = s.hotUsed x.e.ctx := of_advance t s (fun v => v.hotUsed x.e.ctx) fun _ => rfl
  refine congrArg Host.Outcome.next ((run_of_ready h t _).trans ?_)
  simp only [advance_stream, hx, h1, hn, h2, advance_ctx, hu, and_self, if_true]

theorem exec_coolTime (hs : s.streamSetting sid Setting.hotPolicy = 1) (hc : (s.advance t).coolChoice x.e.ctx = some sid)
    (hv : x.e.ckptValid = true) (hp : x.e.ckptPos = x.e.commitPtr) :
    exec (.coolTime t sid) s =
      .next ((s.advance t).modStream sid fun y => { y with e := { y.e with hotSlot := none }, home := none }) := by
  refine congrArg Host.Outcome.next ((run_of_ready h t _).trans ?_)
  simp only [advance_stream, hx, advance_streamSetting, hs, hc, hv, hp, and_self, if_true]

/-- A drained stream is CLOSED, and its entry is freed. -/
theorem exec_streamClosed (hd : s.drained sid x = true) :
    ∃ v : State, exec (.streamClosed t sid) s = .next (v.freeStream sid) ∧ v = { s.advance t with streams := v.streams } ∧
      v.stream sid = some { x with e := { x.e with state := .closed } } ∧ ∀ k, k ≠ sid → v.stream k = s.stream k := by
  have hst := drained_state hd
  have h1 : (s.advance t).drained sid x = s.drained sid x := of_advance t s (fun v => v.drained sid x) fun _ => rfl
  have hw : (s.advance t).stream sid = some x := (advance_stream t s sid).trans hx
  refine ⟨(s.advance t).modStream sid (closedAsDrained (s.advance t).count),
    congrArg Host.Outcome.next ((run_of_ready h t _).trans ?_), rfl, ?_, fun k hk => (tget_tmod_ne _ _ hk).trans (advance_stream t s k)⟩
  · simp only [advance_stream, hx, h1, hd, true_or, if_true]
    rfl
  · rw [stream_mod hw, closedAsDrained, hst]
    rfl

theorem exec_streamRestoreComplete {k : Checkpoint} (hk : x.validCkpt = some k) (hf : x.e.state = .faulted) (hm : s.mayResume x = true)
    (hq : s.quiet sid = true) (hb : s.streamBalanced sid = true) (hp : s.poisoned = []) (hz : s.seamPoison = []) :
    exec (.streamRestoreComplete t sid) s = .next (State.progress sid ((s.advance t).restoreFrom sid k x.replayed)) := by
  have h1 : (s.advance t).mayResume x = s.mayResume x := of_advance t s (fun v => v.mayResume x) fun _ => rfl
  have h2 : (s.advance t).quiet sid = s.quiet sid := of_advance t s (fun v => v.quiet sid) fun _ => rfl
  have h3 : (s.advance t).streamBalanced sid = s.streamBalanced sid := of_advance t s (fun v => v.streamBalanced sid) fun _ => rfl
  refine congrArg Host.Outcome.next ((run_of_ready h t _).trans ?_)
  simp only [advance_stream, hx, hk, hf, h1, hm, h2, hq, h3, hb, and_self, if_true,
    meet_none ((advance_poisoned t s).trans hp) ((advance_seamPoison t s).trans hz), Option.getD_none]
end Life

/-- An orphan's end gives its pages to zeroing and its context one orphan less. -/
theorem endXfer_orphan {s : State} {k : Nat} {x : Xfer} (hx : tget s.xfers k = some x) (ho : x.orphan = true) (hp : s.poisoned = []) :
    s.endXfer k = State.tryFree x.ctx { s with
      xfers := tdel s.xfers k, zeroing := s.zeroing ++ x.pages.filter fun p => !s.zeroing.contains p
      ctxs := tmod s.ctxs x.ctx fun c => { c with orphans := c.orphans - 1 } } := by
  have hall : (x.pages.filter fun p => !(s.poisoned.contains p && inSpan (s.regionFirst 2, 16384 * 13) p)) = x.pages := by simp [hp]
  have hrel : ({ s with xfers := tdel s.xfers k } : State).releasePages x.pages =
      { s with xfers := tdel s.xfers k, zeroing := s.zeroing ++ x.pages.filter fun p => !s.zeroing.contains p } :=
    releasePages_of_no_poison (s := { s with xfers := tdel s.xfers k }) hp x.pages
  unfold State.endXfer
  simp only [hx, hall, ho, if_true, hrel]
  rfl

theorem exec_transferAbsorbed {s : State} (h : Ready s) (t : Nat) {k : Nat} {x : Xfer} (hx : tget s.xfers k = some x) (ho : x.orphan = true) :
    exec (.transferAbsorbed t k) s = .next ((s.advance t).endXfer k) := by
  refine congrArg Host.Outcome.next ((run_of_ready h t _).trans (if_pos ?_))
  rw [advance_xfers, hx]
  exact ho

/-- Where no capture waits for pages, there is nothing to map. -/
theorem mapSaves_of_mapped {s : State} (hs : ∀ p ∈ s.streams, p.2.saving = none) (hn : ∀ n ∈ s.snapshots, pagesOf n.bytes ≤ n.pages.length) :
    s.mapSaves = s := by
  unfold State.mapSaves
  extract_lets fill s1
  have h1 : s1 = s := foldl_eq_of_mem fun p hp => by rw [hs p hp]
  rw [h1]
  refine foldl_eq_of_mem fun k _ => ?_
  cases hk : s.snapshots[k]? with
  | none => rfl
  | some n =>
    have hfill : fill s n = [] := by
      simp only [fill, State.allocRegion, State.allocate, Nat.sub_eq_zero_of_le (hn n (List.mem_of_getElem? hk)), if_true]
    simp only [hfill, List.isEmpty_nil, if_true]

theorem retryRetire_of_none {s : State} (ho : s.outOfUse = []) (hd : s.degraded = false) : s.retryRetire = s := by
  have hfold : (s.outOfUse.filter fun e => !(s.streams.any fun p => p.1 == e)).foldl (fun s sid => State.retireSet sid s) s = s := by
    rw [ho]
    rfl
  unfold State.retryRetire
  rw [hfold]
  dsimp only
  rw [hd]
  exact congrArg (fun b => ({ s with degraded := b } : State)) hd.symm

theorem exec_zeroingComplete {s : State} (h : Ready s) (t : Nat) {r : Nat} (hr : r ∈ s.zeroing) :
    exec (.zeroingComplete t r) s = .next ((s.advance t).stackZeroed r) := by
  refine congrArg Host.Outcome.next ((run_of_ready h t _).trans (if_pos ?_))
  rw [advance_zeroing]
  exact List.contains_iff_mem.mpr hr

theorem exec_zeroingComplete_seam {s : State} (h : Ready s) (t : Nat) {r : Nat} (hr : r ∉ s.zeroing) :
    exec (.zeroingComplete t r) s = .next { s.advance t with
      seamZero := s.seamZero.map fun p => if Config.stackPages + p.1 = r then (p.1, p.2 - 1) else p } := by
  have hz : (s.advance t).seamZero = s.seamZero := of_advance t s State.seamZero fun _ => rfl
  refine congrArg Host.Outcome.next ((run_of_ready h t _).trans ((if_neg ?_).trans ?_))
  · rw [advance_zeroing, List.contains_iff_mem]
    exact hr
  · rw [hz]

theorem stackZeroed_of_idle {s : State} {r : Nat} (hs : ∀ p ∈ s.streams, p.2.saving = none)
    (hn : ∀ n ∈ s.snapshots, pagesOf n.bytes ≤ n.pages.length) (ho : s.outOfUse = []) (hd : s.degraded = false) :
    s.stackZeroed r = { s with zeroing := s.zeroing.erase r } := by
  unfold State.stackZeroed
  dsimp only
  rw [retryRetire_of_none (s := { s with zeroing := s.zeroing.erase r }) ho hd, ite_self]
  exact mapSaves_of_mapped (s := { s with zeroing := s.zeroing.erase r }) hs hn

/-- Settles O15: each row of a stream's life, where its condition holds, does its one thing. -/
theorem streamLifeRows : Obligations.StreamLifeRows := by
  unfold Obligations.StreamLifeRows
  rintro t s w h rfl
  refine ⟨fun sid x hx hn hu => ?_, fun sid x hx hs hc hv hp => exec_coolTime h hx t hs hc hv hp,
    fun sid x hx hd => exec_streamClosed h hx t hd,
    fun sid x k hx hk hf hm hq hb hp hz => exec_streamRestoreComplete h hx t hk hf hm hq hb hp hz,
    fun k x hx ho hp => ?_, fun r hr => ⟨exec_zeroingComplete h t hr, fun _ hs hn ho hd => ?_⟩,
    fun r hr => exec_zeroingComplete_seam h t hr⟩
  · have hfree : (s.advance t).freeHot = s.freeHot := of_advance t s State.freeHot fun _ => rfl
    rw [exec_warmIn h hx t hn hu, State.takeHot, hfree]
  · have hctxs : (s.advance t).ctxs = s.ctxs := of_advance t s State.ctxs fun _ => rfl
    rw [exec_transferAbsorbed h t hx ho, endXfer_orphan (by rw [advance_xfers]; exact hx) ho ((advance_poisoned t s).trans hp), advance_xfers,
      advance_zeroing, hctxs]
  · have hz := stackZeroed_of_idle (s := s.advance t) (r := r) (by rw [of_advance t s State.streams fun _ => rfl]; exact hs)
      (by rw [of_advance t s State.snapshots fun _ => rfl]; exact hn) ((of_advance t s State.outOfUse fun _ => rfl).trans ho)
      ((of_advance t s State.degraded fun _ => rfl).trans hd)
    rwa [advance_zeroing] at hz

end Sys2Proof.Safety
end

section
/-! PROOFS. Context commands: what each changes (R27, R28, R30, R250, R327 to R329, R345). -/

namespace Sys2Proof.Safety

open Sys2Proof.Machine

/-! ### Contexts in their table -/

theorem ctx_of {s : State} {k : Nat} {x : Ctx} (h : tget s.ctxs k = some x) : s.ctx k = x := by
  rw [State.ctx, h]
  rfl

/-- A context that is open stands in the table. -/
theorem tget_ctxs_of_open {s : State} {k : Nat} (h : (s.ctx k).state = .opened) : tget s.ctxs k = some (s.ctx k) := by
  cases hk : tget s.ctxs k with
  | some x => rw [ctx_of hk]
  | none =>
    rw [State.ctx, hk] at h
    cases h

theorem ctx_congr {s u : State} {k : Nat} (h : tget u.ctxs k = tget s.ctxs k) : u.ctx k = s.ctx k := by
  rw [State.ctx, State.ctx, h]

/-- Placing gate engines changes one context, the rows, and what it draws. -/
theorem placeGates_parts (id : Nat) (s : State) :
    ∃ e n r, s.placeGates id = { s with ctxs := tmod s.ctxs id fun x => { x with gateEngines := e }, freshCtr := n, rows := r } :=
  ⟨_, _, _, placeGates_eq id s⟩

theorem placeGates_ctxs (id : Nat) (s : State) : ∃ e, (s.placeGates id).ctxs = tmod s.ctxs id fun x => { x with gateEngines := e } := by
  obtain ⟨e, n, r, hp⟩ := placeGates_parts id s
  exact ⟨e, congrArg State.ctxs hp⟩

theorem placeGates_ctx_self {s : State} {id : Nat} {x : Ctx} (h : tget s.ctxs id = some x) :
    ∃ e, (s.placeGates id).ctx id = { x with gateEngines := e } := by
  obtain ⟨e, he⟩ := placeGates_ctxs id s
  refine ⟨e, ctx_of ?_⟩
  rw [he, tget_tmod_of h]

theorem placeGates_ctx_ne {s : State} {id k : Nat} (h : k ≠ id) : (s.placeGates id).ctx k = s.ctx k := by
  obtain ⟨e, he⟩ := placeGates_ctxs id s
  refine ctx_congr ?_
  rw [he, tget_tmod_ne _ _ h]

theorem rehomeFlues_ctx (s : State) (k : Nat) : s.rehomeFlues.ctx k = s.ctx k := rfl

theorem open_of_ctxNotOpen {s : State} {c : ExecCmd} {id : Nat} (h : s.ctxNotOpen c id = false) : (s.ctx id).state = .opened := by
  simp only [State.ctxNotOpen, Bool.or_eq_false_iff, bne_eq_false_iff_eq] at h
  exact h.2

@[simp] theorem advance_ctxNotOpen (t : Nat) (s : State) (c : ExecCmd) (id : Nat) : (s.advance t).ctxNotOpen c id = s.ctxNotOpen c id :=
  of_advance t s (fun v => v.ctxNotOpen c id) fun _ => rfl
@[simp] theorem advance_ctxBad (t : Nat) (s : State) (c : ExecCmd) (id : Nat) : (s.advance t).ctxBad c id = s.ctxBad c id :=
  of_advance t s (fun v => v.ctxBad c id) fun _ => rfl

/-! ### The opcodes -/

section Opcodes
variable {s : State} {i : Inst} {c : ExecCmd} (t : Nat)

theorem createCheck_pass (hi : c.inst = i) (h0 : c.ctxId ≠ 0) (hd : s.domains.ports.contains (i.domain, true) = true)
    (hf : (s.ctx c.ctxId).state = .free) (hr : resvRangeOk (resvOf c) = true) (hc : (s.setCtx c.ctxId (s.newCtx c)).createFits c.ctxId = true) :
    firstFail
      [(c.ctxId == 0 || !(s.domains.ports.contains (c.inst.domain, true)) ||
          ((s.ctx c.ctxId).state != .free && (s.ctx c.ctxId).domain != c.inst.domain), E.context),
       ((s.ctx c.ctxId).state != .free, E.busy), (!resvRangeOk (resvOf c), E.range),
       (!(s.setCtx c.ctxId (s.newCtx c)).createFits c.ctxId, E.capacity)] = E.ok := by
  refine firstFail_of_pass ?_ (firstFail_of_pass ?_ (firstFail_of_pass (by rw [hr]; rfl) (firstFail_of_pass (by rw [hc]; rfl) rfl)))
  · rw [hi, hd, hf, beq_eq_false_iff_ne.mpr h0]
    rfl
  · rw [hf]
    rfl

/-- The state that CONTEXT_CREATE leaves, but for its completion. -/
def createdCtx (c : ExecCmd) (w : State) : State := (w.setCtx c.ctxId (w.newCtx c)).placeGates c.ctxId

theorem createdCtx_self (c : ExecCmd) (w : State) : ∃ e, (createdCtx c w).ctx c.ctxId = { w.newCtx c with gateEngines := e } :=
  placeGates_ctx_self (tget_tset_self _ _ _)

theorem createdCtx_ne (w : State) {k : Nat} (h : k ≠ c.ctxId) : (createdCtx c w).ctx k = w.ctx k :=
  (placeGates_ctx_ne h).trans (ctx_congr (tget_tset_ne _ _ h))

theorem createdCtx_eq (c : ExecCmd) (w : State) : createdCtx c w =
    { w with ctxs := (createdCtx c w).ctxs, rows := (createdCtx c w).rows, freshCtr := (createdCtx c w).freshCtr } := by
  unfold createdCtx
  obtain ⟨e, n, r, hp⟩ := placeGates_parts c.ctxId _
  rw [hp]
  rfl

theorem exec_contextCreate (hx : Executing s 0x0100 i c) (h0 : c.ctxId ≠ 0) (hd : s.domains.ports.contains (i.domain, true) = true)
    (hf : (s.ctx c.ctxId).state = .free) (hr : resvRangeOk (resvOf c) = true)
    (hc : ((s.advance t).setCtx c.ctxId ((s.advance t).newCtx c)).createFits c.ctxId = true) :
    exec (.contextCreate t i) s = .next ((createdCtx c (s.advance t)).bumpConfig.complete c
      ⟨E.ok, (s.advance t).count, leBytes 2 ((createdCtx c (s.advance t)).ctx c.ctxId).gen, none⟩) := by
  have hpass := createCheck_pass hx.inst_eq h0 (by rw [advance_domains]; exact hd) (by rw [advance_ctx]; exact hf) hr hc
  change execContextCreate t i s = _
  rw [execContextCreate, opcode_of hx t _ _ true true hpass, createdCtx]
  rfl

/-- A closing context whose streams stay is not yet quarantined. -/
theorem tryQuarantine_of_streams {s : State} {k : Nat} (h : s.ctxStreams k ≠ []) : s.tryQuarantine k = s := by
  unfold State.tryQuarantine
  exact if_neg fun hc => h (List.isEmpty_iff.mp hc.2)

theorem exec_contextClose (hx : Executing s 0x0101 i c) (ho : s.ctxNotOpen c c.ctxId = false) (hs : s.ctxStreams c.ctxId ≠ []) :
    exec (.contextClose t i) s = .next ((((s.advance t).modCtx c.ctxId fun x => { x with state := .closing }).bumpConfig).complete c
      ⟨E.ok, (s.advance t).count, [], none⟩) := by
  have hstr : ((s.advance t).modCtx c.ctxId fun x => { x with state := .closing }).ctxStreams c.ctxId ≠ [] := by
    have hsame : (s.advance t).ctxStreams c.ctxId = s.ctxStreams c.ctxId := of_advance t s (fun v => v.ctxStreams c.ctxId) fun _ => rfl
    exact fun he => hs (hsame.symm.trans he)
  refine (opcode_of hx t _ _ true true (firstFail_of_pass (by rw [advance_ctxNotOpen, ho]) rfl)).trans ?_
  dsimp only
  rw [tryQuarantine_of_streams hstr]
  rfl

theorem exec_contextReset (hx : Executing s 0x0102 i c) (hb : s.ctxBad c c.ctxId = false)
    (hst : (s.ctx c.ctxId).state = .opened ∨ (s.ctx c.ctxId).state = .closing) :
    exec (.contextReset t i) s = .next ((s.advance t).startReset c) := by
  refine congrArg Host.Outcome.next ((command_of hx t _).trans (if_neg ?_))
  rw [advance_ctxBad, hb, advance_ctx]
  rintro (hf | ⟨ho, hc⟩)
  · cases hf
  · exact hst.elim ho hc

/-- An id that a fault reset has reached is answered at once (R345). -/
theorem startReset_of_faulted {w : State} (hf : (w.ctx c.ctxId).faulted = true) :
    w.startReset c = w.bumpConfig.complete c ⟨E.ok, w.count, [], none⟩ := by
  unfold State.startReset
  exact if_pos hf

/-- The command that waits for the reset of a context. -/
theorem startReset_of_sound {w v : State} (hi : c.inst = i) (hf : (w.ctx c.ctxId).faulted = false)
    (hv : v = ((w.resetContext c.ctxId 11).progressCtx c.ctxId).bumpConfig) :
    w.startReset c = State.pump pumpFuel { v with
      insts := (v.modInst i fun x => { x with working := some ⟨c, .reset c.ctxId (w.ctx c.ctxId).gen, w.count⟩ }).insts
      foreman := { v.foreman with exec := none } } := by
  subst hi
  unfold State.startReset
  dsimp only
  rw [← hv, hf, if_neg Bool.false_ne_true]
  rfl

theorem exec_contextSet {k v : Nat} (hx : Executing s 0x0103 i c) (ho : s.ctxNotOpen c c.ctxId = false) (hk : c.arg 0x1A 2 = k)
    (hv : c.arg 0x20 8 = v) (h1 : k < 23) (h2 : v < 2 ^ (Setting.spec.getD k (0, 0, 0)).1) (hc : (s.advance t).settingCheck c.ctxId k v = 0)
    (hd : k ≠ Setting.draftKMax) :
    exec (.contextSet t i) s =
      .next ((((s.advance t).modCtx c.ctxId fun x => { x with settings := x.settings.set k v }).bumpConfig).complete c
        ⟨E.ok, (s.advance t).count, [], none⟩) := by
  subst hk hv
  refine (opcode_of hx t _ _ true true ?_).trans ?_
  · refine firstFail_of_pass (by rw [advance_ctxNotOpen, ho]) (firstFail_of_pass ?_ (firstFail_of_code hc rfl))
    rw [decide_eq_false (Nat.not_le.mpr h1), decide_eq_false (Nat.not_le.mpr h2)]
    rfl
  · dsimp only
    rw [if_neg hd]
    rfl

/-- The state that CAPACITY_SET leaves, but for its completion. -/
def resized (c : ExecCmd) (w : State) : State :=
  ((w.modCtx c.ctxId fun x => { x with resv := resvOf c }).placeGates c.ctxId).rehomeFlues

theorem resized_self {w : State} (h : (w.ctx c.ctxId).state = .opened) :
    ∃ e, (resized c w).ctx c.ctxId = { w.ctx c.ctxId with resv := resvOf c, gateEngines := e } := by
  rw [resized, rehomeFlues_ctx]
  have hmod : tget (w.modCtx c.ctxId fun x => { x with resv := resvOf c }).ctxs c.ctxId = some { w.ctx c.ctxId with resv := resvOf c } := by
    rw [State.modCtx_ctxs, tget_tmod_of (tget_ctxs_of_open h)]
  obtain ⟨e, he⟩ := placeGates_ctx_self hmod
  exact ⟨e, he⟩

theorem resized_ne (w : State) {k : Nat} (h : k ≠ c.ctxId) : (resized c w).ctx k = w.ctx k := by
  rw [resized, rehomeFlues_ctx, placeGates_ctx_ne h]
  refine ctx_congr ?_
  rw [State.modCtx_ctxs, tget_tmod_ne _ _ h]

theorem resized_eq (c : ExecCmd) (w : State) : resized c w =
    { w with ctxs := (resized c w).ctxs, rows := (resized c w).rows, freshCtr := (resized c w).freshCtr, flueHomes := (resized c w).flueHomes } := by
  unfold resized
  obtain ⟨e, n, r, hp⟩ := placeGates_parts c.ctxId _
  rw [hp]
  rfl

theorem exec_capacitySet (hx : Executing s 0x0105 i c) (ho : s.ctxNotOpen c c.ctxId = false) (hr : resvRangeOk (resvOf c) = true)
    (hu : s.usesMore c.ctxId (resvOf c) = false)
    (hf : ((s.advance t).modCtx c.ctxId fun x => { x with resv := resvOf c }).capacityFits c.ctxId = true) :
    exec (.capacitySet t i) s = .next ((resized c (s.advance t)).bumpConfig.complete c ⟨E.ok, (s.advance t).count, [], none⟩) := by
  have hmore : (s.advance t).usesMore c.ctxId (resvOf c) = s.usesMore c.ctxId (resvOf c) :=
    of_advance t s (fun v => v.usesMore c.ctxId (resvOf c)) fun _ => rfl
  unfold resized
  exact opcode_of hx t _ _ true true (firstFail_of_pass (by rw [advance_ctxNotOpen, ho]) (firstFail_of_pass (by rw [hr]; rfl)
    (firstFail_of_pass (by rw [hmore, hu]) (firstFail_of_pass (by rw [hf]; rfl) rfl))))

theorem exec_layoutSet (hx : Executing s 0x0002 i c) (hn : s.noContexts = true) (hl : layoutOk (layoutOf c) = true) :
    exec (.layoutSet t i) s = .next ((({ s.advance t with layoutRec := layoutOf c }).bumpConfig).complete c
      ⟨E.ok, (s.advance t).count, leBytes 4 (hostPages (layoutOf c)), none⟩) := by
  have hno : (s.advance t).noContexts = s.noContexts := of_advance t s State.noContexts fun _ => rfl
  exact opcode_of hx t _ _ true true (firstFail_of_pass (by rw [hno, hn]; rfl) (firstFail_of_pass (by rw [hl]; rfl) rfl))
end Opcodes

/-- Settles O25: each context command, its checks passed, does what it says to its context and completes. -/
theorem contextRows : Obligations.ContextRows := by
  unfold Obligations.ContextRows
  rintro t i c s w rfl
  refine ⟨fun hx h0 hd hf hr hc => ?_, fun hx ho hs => exec_contextClose t hx ho hs, fun hx hb hst => ⟨fun hf => ?_, fun hf => ?_⟩,
    fun k v hx ho hk hv h1 h2 hc hd => exec_contextSet t hx ho hk hv h1 h2 hc hd, fun hx ho hr hu hf => ?_,
    fun hx hn hl => exec_layoutSet t hx hn hl⟩
  · obtain ⟨e, he⟩ := createdCtx_self c (s.advance t)
    have hgen : ((createdCtx c (s.advance t)).ctx c.ctxId).gen = ((s.ctx c.ctxId).gen + 1) % 65536 := by
      rw [he, ← advance_ctx t s]
      rfl
    have hrow := exec_contextCreate t hx h0 hd hf hr hc
    rw [hgen] at hrow
    have heq := createdCtx_eq c (s.advance t)
    have hne (k : Nat) (hk : k ≠ c.ctxId) := (createdCtx_ne (s.advance t) hk).trans (advance_ctx t s k)
    generalize createdCtx c (s.advance t) = v at *
    have hself : v.bumpConfig.ctx c.ctxId = { (s.advance t).newCtx c with gateEngines := e } := he
    refine ⟨v.bumpConfig, hrow, congrArg (fun p : State => { p with foreman := v.bumpConfig.foreman }) heq, ?_⟩
    rw [hself]
    exact ⟨rfl, congrArg Inst.domain hx.inst_eq, by rw [← advance_ctx t s]; rfl, rfl, rfl, hx.inst_eq, rfl, hne⟩
  · rw [exec_contextReset t hx hb hst, startReset_of_faulted (by rw [advance_ctx]; exact hf)]
  · refine ⟨_, rfl, ?_⟩
    rw [exec_contextReset t hx hb hst, startReset_of_sound hx.inst_eq (by rw [advance_ctx]; exact hf) rfl, advance_ctx]
  · obtain ⟨e, he⟩ := resized_self (c := c) (w := s.advance t) (by rw [advance_ctx]; exact open_of_ctxNotOpen ho)
    have hrow := exec_capacitySet t hx ho hr hu hf
    have heq := resized_eq c (s.advance t)
    have hne (k : Nat) (hk : k ≠ c.ctxId) := (resized_ne (s.advance t) hk).trans (advance_ctx t s k)
    rw [advance_ctx] at he
    generalize resized c (s.advance t) = v at *
    have hself : v.bumpConfig.ctx c.ctxId = { s.ctx c.ctxId with resv := resvOf c, gateEngines := e } := he
    refine ⟨v.bumpConfig, hrow, congrArg (fun p : State => { p with foreman := v.bumpConfig.foreman }) heq, ?_⟩
    rw [hself]
    exact ⟨rfl, rfl, hne⟩

end Sys2Proof.Safety
end

section
/-! PROOFS. Work of an item completes: tasks, lookups, look-aheads, decisions, commits, evaluations, proposals (R61, R94, R102, R162,
R184, R185, R191, R219 to R245). -/

namespace Sys2Proof.Safety

open Sys2Proof.Machine

@[simp] theorem advance_item (t : Nat) (s : State) (n : Nat) : (s.advance t).item n = s.item n := of_advance t s (fun v => v.item n) fun _ => rfl
@[simp] theorem advance_vocabs (t : Nat) (s : State) : (s.advance t).vocabs = s.vocabs := of_advance t s State.vocabs fun _ => rfl

theorem cand?_of {it : Item} {b : CandBody} (h : it.body = .cand b) : it.cand? = some b := by
  unfold Item.cand?
  rw [h]

theorem chunk?_of {it : Item} {b : ChunkBody} (h : it.body = .chunk b) : it.chunk? = some b := by
  unfold Item.chunk?
  rw [h]

theorem cand?_onCand {it : Item} {b : CandBody} (h : it.body = .cand b) (f : CandBody → CandBody) : (it.onCand f).cand? = some (f b) := by
  unfold Item.onCand Item.cand?
  rw [h]

/-- Where no stack page is poisoned, a clean read of an item's images lets the work go on. -/
theorem itemRead_clean {s : State} (hp : s.poisoned = []) (it : Item) (kinds : List Nat) (f : State → State) :
    s.itemRead it kinds .clean f = f s :=
  access_clean hp _ _ _

section Rows
variable {s : State} {n : Nat} {it : Item} (h : Screening s n it) (hp : s.poisoned = []) (t : Nat)
include h hp

theorem exec_intakeTaskComplete_clean {b : ChunkBody} {set : Nat} (hb : it.body = .chunk b) (hg : b.begun = true) (hm : set ∈ b.tasks)
    (ht : s.setTurn it.stream n set = true) (ov : List Nat) :
    exec (.intakeTaskComplete t n set ov .clean) s = .next (State.progress it.stream ((s.advance t).intakeTask n set ov)) := by
  have hturn : (s.advance t).setTurn it.stream n set = s.setTurn it.stream n set := of_advance t s (fun v => v.setTurn it.stream n set) fun _ => rfl
  refine congrArg Host.Outcome.next ((itemWork_of h t _).trans (congrArg (State.progress it.stream) ((if_pos ?_).trans ?_)))
  · simp [chunk?_of hb, hg, hm, hturn, ht]
  · exact itemRead_clean ((advance_poisoned t s).trans hp) _ _ _

omit hp in
/-- An error in an image of the item's context resets the context (R94). -/
theorem exec_intakeTaskComplete_stack {b : ChunkBody} {set p : Nat} (hb : it.body = .chunk b) (hg : b.begun = true) (hm : set ∈ b.tasks)
    (ht : s.setTurn it.stream n set = true) (ov : List Nat) (hpage : p ∈ (s.advance t).imagePages it.entry.ctx it.pins [0]) :
    exec (.intakeTaskComplete t n set ov (.stack p)) s =
      .next (State.progress it.stream ((((s.advance t).poison p).faultReset it.entry.ctx 0).progressCtx it.entry.ctx)) := by
  have hturn : (s.advance t).setTurn it.stream n set = s.setTurn it.stream n set := of_advance t s (fun v => v.setTurn it.stream n set) fun _ => rfl
  refine congrArg Host.Outcome.next ((itemWork_of h t _).trans (congrArg (State.progress it.stream) ((if_pos ?_).trans ?_)))
  · simp [chunk?_of hb, hg, hm, hturn, ht]
  · exact access_stack (List.mem_append_left _ hpage) _ _ _

theorem exec_lookaheadTaskComplete {b : CandBody} (hb : it.body = .cand b) (hg : b.begun = true) (hc : b.committed = false) (pos token set : Nat) :
    exec (.lookaheadTaskComplete t n pos token set .clean) s = .next (State.progress it.stream ((s.advance t).lookahead n pos token set)) := by
  refine congrArg Host.Outcome.next ((itemWork_of h t _).trans (congrArg (State.progress it.stream) ((if_pos ?_).trans ?_)))
  · simp [cand?_of hb, hg, hc]
  · exact itemRead_clean ((advance_poisoned t s).trans hp) _ _ _

theorem exec_decideStage_clean {b : CandBody} (hb : it.body = .cand b) (hg : b.begun = true) (hf : b.finished = false) :
    exec (.decideStage t ⟨n, .clean⟩) s = .next (State.progress it.stream ((s.advance t).decidePos n)) := by
  refine congrArg Host.Outcome.next ((itemWork_of (n := n) h t _).trans (congrArg (State.progress it.stream) ((if_pos ?_).trans ?_)))
  · simp [cand?_of hb, hg, hf]
  · exact itemRead_clean ((advance_poisoned t s).trans hp) _ _ _

theorem exec_commitStep {b : CandBody} (hb : it.body = .cand b) (hf : b.finished = true) (hc : b.committed = false) (ring : Ecc) :
    exec (.commitStep t n ⟨ring, .clean⟩) s =
      .next (State.progress it.stream ((((s.advance t).meet [] ring).commitStep n (eccInPart 1 ring)).startDraft n)) := by
  refine congrArg Host.Outcome.next ((itemWork_of h t _).trans (congrArg (State.progress it.stream) ((if_pos ?_).trans ?_)))
  · simp [cand?_of hb, hf, hc]
  · exact itemRead_clean ((advance_poisoned t s).trans hp) _ _ _

theorem exec_gateEvaluation_clean {tok : Nat} (he : s.evalTurn n it = some tok) :
    exec (.gateEvaluation t n .clean) s = .next (State.progress it.stream
      (if ((s.advance t).evaluate n tok).1 then ((s.advance t).evaluate n tok).2.evaluated n tok it else ((s.advance t).evaluate n tok).2)) := by
  have hturn : (s.advance t).evalTurn n it = some tok := (of_advance t s (fun v => v.evalTurn n it) fun _ => rfl).trans he
  refine congrArg Host.Outcome.next ((itemWork_of h t _).trans (congrArg (State.progress it.stream) ?_))
  rw [hturn]
  exact itemRead_clean ((advance_poisoned t s).trans hp) _ _ _

theorem exec_resolverScore_clean {model idx : Nat} (hr : it.resolving = true) (hb : ∃ r ∈ it.band, r.1 = model ∧ r.2.1 = idx ∧ r.2.2 = none) :
    exec (.resolverScore t n model ⟨idx, .clean⟩) s = .next (State.progress it.stream ((s.advance t).resolverScore n model idx it)) := by
  obtain ⟨r, hm, h1, h2, h3⟩ := hb
  have hany : (it.band.any fun r => r.1 == model && r.2.1 == idx && r.2.2.isNone) = true :=
    List.any_eq_true.mpr ⟨r, hm, by simp [h1, h2, h3]⟩
  refine congrArg Host.Outcome.next ((itemWork_of h t _).trans (congrArg (State.progress it.stream) ((if_pos ?_).trans ?_)))
  · rw [hr, hany]
    rfl
  · exact itemRead_clean ((advance_poisoned t s).trans hp) _ _ _

theorem exec_proposalCutoff_clean {b : CandBody} (hb : it.body = .cand b) (hd : b.cutoffDone = false) (k : Nat) :
    exec (.proposalCutoff t n ⟨k, .clean⟩) s = .next (State.progress it.stream ((s.advance t).propose n k)) := by
  refine congrArg Host.Outcome.next ((itemWork_of h t _).trans (congrArg (State.progress it.stream) ((if_pos ?_).trans ?_)))
  · simp [cand?_of hb, hd]
  · exact itemRead_clean ((advance_poisoned t s).trans hp) _ _ _
end Rows

/-! ### What a row does to its item -/

section Items
variable {w : State} {n : Nat} {it : Item} (hi : w.item n = some it)
include hi

/-- A look-ahead that was not there yet joins its item's (R231). -/
theorem lookahead_of {b : CandBody} {pos token set : Nat} {q : Position} {p : PatternSet} {x : Machine.Stream} {v : Vocab} {k : Look}
    (hb : it.body = .cand b) (hg : b.begun = true) (hc : b.committed = false) (hx : w.stream it.stream = some x)
    (hv : tget w.vocabs it.entry.vocab = some v) (hset : ((w.lookSets it).find? fun p => p.index == set) = some p)
    (hpos : b.positions[pos]? = some q) (htok : token ∈ candidateTokens v.entries.length q)
    (hnew : ∀ l ∈ b.looks, ¬(l.pos = pos ∧ l.token = token ∧ l.set = set))
    (hk : k = lookTask p v pos token (chainState p v (stateAt x.screen.outStates set) (b.drafts.take pos)).1) :
    w.lookahead n pos token set = w.modCand n fun y => { y with
      looks := y.looks ++ [if w.broken it x v (b.drafts.take pos) then { k with blocked := false, stop := none } else k] } := by
  have hdup : (b.looks.any fun l => l.pos == pos && l.token == token && l.set == set) = false := by
    rw [List.any_eq_false]
    intro l hl hc
    simp only [Bool.and_eq_true, beq_iff_eq] at hc
    exact hnew l hl ⟨hc.1.1, hc.1.2, hc.2⟩
  have hknown : (candidateTokens v.entries.length q).contains token = true := List.contains_iff_mem.mpr htok
  subst hk
  unfold State.lookahead
  simp only [hi, hb, hx, hv, hset, hpos, hknown, hg, hdup, hc, Bool.not_false, Bool.and_self, if_true]

/-- What is undecided of the ring loses the rewind mark (R244, R245). -/
theorem commitStep_of_ringErr {b : CandBody} {x : Machine.Stream} {v : Vocab} (hb : it.body = .cand b) (hl : it.live = true) (hf : b.finished = true)
    (hc : b.committed = false) (hx : w.stream it.stream = some x) (hv : tget w.vocabs it.entry.vocab = some v) :
    w.commitStep n true = w.loseRewind it.stream := by
  unfold State.commitStep
  simp only [hi, cand?_of hb, hx, hv, hl, hf, hc, Bool.not_false, Bool.and_self, Bool.not_true, Bool.false_eq_true, if_false, Bool.true_or, if_true]

/-- Without drafts of its own a stream's item proposes nothing at its cutoff. -/
theorem propose_of_off {b : CandBody} {x : Machine.Stream} {v : Vocab} {k : Nat} (hb : it.body = .cand b) (hl : it.live = true)
    (hd : b.cutoffDone = false) (hc : b.committed = true) (hx : w.stream it.stream = some x) (hv : tget w.vocabs it.entry.vocab = some v)
    (hm : it.setting Setting.draftMode = 0) (ht : 14 * it.stamp + it.cutoff ≤ 14 * w.count) :
    w.propose n k = w.modCand n fun b => { b with cutoffDone := true, draft := none } := by
  unfold State.propose
  simp only [hi, cand?_of hb, hx, hv, hl, hc, hd, ht, hm, decide_true, Bool.not_false, Bool.and_self, Bool.not_true, Bool.false_eq_true, if_false,
    Nat.not_le.mpr (show 0 < 2 by decide), bne_self_eq_false, Bool.and_false, Bool.false_and]

omit hi in
/-- A lookup that has not returned reads the store, and the stream's chunks settle (R102). -/
theorem lookupReturn_clean {l : Lookup} {idx : Nat} {r : Nat} (hp : w.poisoned = []) (hl : ((lookupsOf it).find? fun l => l.idx == idx) = some l)
    (hn : l.result = none) (hr : r = w.store.lookup (w.store.newView it.stamp) l.set l.fp false false) :
    w.lookupReturn n idx .clean .clean it =
      let u := w.modItem n fun x => (x.onChunk fun b => { b with lookups := b.lookups.map fun k => if k.idx = idx then { k with result := some r } else k }).onCand
        fun b => { b with lookups := b.lookups.map fun k => if k.idx = idx then { k with result := some r } else k }
      if it.isChunk then u.settleLookups it.stream else u := by
  have hclean (k : Nat) : (Ecc.clean == .stack k || w.poisoned.contains k) = false := by rw [hp]; rfl
  unfold State.lookupReturn
  cases hb : it.body with
  | chunk b =>
    have hl' : (b.lookups.find? fun l => l.idx == idx) = some l := by rwa [lookupsOf, hb] at hl
    simp only [hl', hn, hclean, ← hr]
    rfl
  | cand b =>
    have hl' : (b.lookups.find? fun l => l.idx == idx) = some l := by rwa [lookupsOf, hb] at hl
    simp only [hl', hn, hclean, ← hr]
    rfl
end Items

/-! ### A sampled position -/

theorem storeOnly_meetFps (fs : List Nat) (s : State) : StoreOnly s (s.meetFps fs) := by
  unfold State.meetFps
  induction fs generalizing s with
  | nil => rfl
  | cons f fs ih => exact (storeOnly_meet _ s).trans (ih _)

theorem meetSubst_items (it : Item) (x : Machine.Stream) (v : Vocab) (b : CandBody) (s : State) : (s.meetSubst it x v b).items = s.items := by
  unfold State.meetSubst
  split
  · split
    · exact (congrArg State.items (storeOnly_meetFps _ s)).trans rfl
    · rfl
  · rfl

theorem exhaust_decided (it : Item) (x : Machine.Stream) (v : Vocab) (b : CandBody) (s : State) : (s.exhaust it x v b).1.decided = b.decided := by
  unfold State.exhaust
  dsimp only
  (repeat' split) <;> rfl

theorem choose_decided (it : Item) (x : Machine.Stream) (b : CandBody) (pos token : Nat) (a : Bool) (s : State) :
    (s.choose it x b pos token a).decided = b.decided := rfl

theorem item_modCand {u : State} {n : Nat} {it : Item} {b : CandBody} (hi : u.item n = some it) (hb : it.body = .cand b) (f : CandBody → CandBody) :
    ((u.modCand n f).item n).bind Item.cand? = some (f b) := by
  rw [State.modCand, item_mod hi]
  exact cand?_onCand hb f

/-- A decision raises the number decided, whatever it decides. -/
theorem decidePos_decided {w : State} {n : Nat} {it : Item} {b : CandBody} {p : Position} {x : Machine.Stream} {v : Vocab}
    (hi : w.item n = some it) (hb : it.body = .cand b) (hg : b.begun = true) (hf : b.finished = false) (hl : b.lost = false)
    (hx : w.stream it.stream = some x) (hv : tget w.vocabs it.entry.vocab = some v) (hpos : b.positions[b.decided]? = some p)
    (hm : w.masksReady it x v b = true) :
    ∃ b2, ((w.decidePos n).item n).bind Item.cand? = some b2 ∧ b2.decided = b.decided + 1 := by
  unfold State.decidePos
  simp only [hi, hb, hx, hv, hpos, hg, hf, hl, hm, Bool.not_false, Bool.and_self, Bool.not_true, Bool.false_eq_true, if_false]
  generalize (List.map _ _ : List (Nat × Option Nat)) = stages
  generalize hs : stages.foldl _ w = s1
  generalize (List.filterMap _ stages) = surv
  have hi1 : s1.item n = some it := by
    rw [← hs]
    exact (congrArg (fun l => tget l n) (fold_count_items _ _ _)).trans hi
  have hcalc {α : Type} (m : Calc α) (f : Machine.Stream → Machine.Stream) :
      (((s1.calc it.entry.ctx m).2).modStream it.stream f).item n = some it := (congrArg (fun l => tget l n) (calc_items it.entry.ctx m s1)).trans hi1
  by_cases hsurv : surv.isEmpty = true
  · rw [if_pos hsurv]
    exact ⟨_, item_modCand ((congrArg (fun l => tget l n) (meetSubst_items _ _ _ _ s1)).trans hi1) hb _, exhaust_decided _ _ _ _ _⟩
  · rw [if_neg hsurv]
    cases p.draft with
    | some d => exact ⟨_, item_modCand (hcalc _ _) hb _, choose_decided _ _ _ _ _ _ _⟩
    | none => exact ⟨_, item_modCand (hcalc _ _) hb _, choose_decided _ _ _ _ _ _ _⟩

/-- The deadline of a TAP's skew settles the stream that waits for it (R162). -/
theorem exec_tapSkewDeadline {s : State} (h : Ready s) (t : Nat) {n pos sid : Nat} {x : Machine.Stream}
    (hf : (s.advance t).frozenOut x.e.ctx = false)
    (hx : (s.streams.find? fun p => p.2.probeWait.any fun q => q.pos == pos && q.item == n && !q.closed && decide (q.deadline ≤ (s.advance t).count)) =
      some (sid, x)) :
    exec (.tapSkewDeadline t n pos) s = .next (State.progress sid
      (((s.advance t).settleProbes sid (some pos) ((s.advance t).probeFuel x)).startFlues)) := by
  have hstr : (s.advance t).streams = s.streams := of_advance t s State.streams fun _ => rfl
  refine congrArg Host.Outcome.next ((run_of_ready h t _).trans ?_)
  rw [hstr, hx]
  exact if_neg (by rw [hf]; decide)

/-- Settles O12: each row, its item waiting for it, does its part and the stream goes on. -/
theorem screeningRows : Obligations.ScreeningRows := by
  unfold Obligations.ScreeningRows
  refine ⟨?_, fun t n pos s w sid x hr hw hf hx => hw ▸ exec_tapSkewDeadline hr t (hw ▸ hf) (hw ▸ hx)⟩
  rintro t n s w it h hp rfl
  have hi : (s.advance t).item n = some it := (advance_item t s n).trans h.2.1
  have hlive : it.live = true := h.2.2.1
  refine ⟨fun b set ov hb hg hm ht => ⟨exec_intakeTaskComplete_clean h hp t hb hg hm ht ov, fun p hpage =>
      exec_intakeTaskComplete_stack h t hb hg hm ht ov hpage⟩, fun idx l r u hl hn hr hu => ?_,
    fun b pos q token set p x v k hb hg hc hx hv hset hpos htok hnew hk => ?_, fun b p x v hb hg hf hlost hx hv hpos hm => ?_,
    fun b hb hf hc => ⟨exec_commitStep h hp t hb hf hc .clean, fun p x v h1 h2 hx hv => ?_⟩,
    fun tok he => exec_gateEvaluation_clean h hp t he, fun model idx hr hb => exec_resolverScore_clean h hp t hr hb,
    fun b k hb hd => ⟨exec_proposalCutoff_clean h hp t hb hd k, fun x v hc hx hv hm ht => ?_⟩⟩
  · subst hu
    have hlook := lookupReturn_clean (n := n) ((advance_poisoned t s).trans hp) hl hn (hr.trans (by rw [advance_store]))
    exact congrArg Host.Outcome.next ((itemWork_of h t _).trans (congrArg (State.progress it.stream) hlook))
  · have hsets : (s.advance t).lookSets it = s.lookSets it := of_advance t s (fun v => v.lookSets it) fun _ => rfl
    have hbroken : (s.advance t).broken it x v (b.drafts.take pos) = s.broken it x v (b.drafts.take pos) :=
      of_advance t s (fun u => u.broken it x v (b.drafts.take pos)) fun _ => rfl
    have hlook := lookahead_of hi hb hg hc ((advance_stream t s _).trans hx) (by rw [advance_vocabs]; exact hv) (by rw [hsets]; exact hset) hpos htok
      hnew hk
    rw [hbroken] at hlook
    rw [exec_lookaheadTaskComplete h hp t hb hg hc, hlook]
  · have hmask : (s.advance t).masksReady it x v b = true := (of_advance t s (fun u => u.masksReady it x v b) fun _ => rfl).trans hm
    obtain ⟨b2, hb2, hd⟩ := decidePos_decided hi hb hg hf hlost ((advance_stream t s _).trans hx) (by rw [advance_vocabs]; exact hv) hpos hmask
    exact ⟨_, b2, exec_decideStage_clean h hp t hb hg hf, rfl, hb2, hd⟩
  · have hring : eccInPart 1 (.seam 112 p) = true := by simp [eccInPart, h1, h2]
    have hpoison := commitStep_of_ringErr (w := (s.advance t).poisonSeam 112 p) hi hb hlive hf hc ((advance_stream t s _).trans hx)
      (show tget (s.advance t).vocabs it.entry.vocab = some v by rw [advance_vocabs]; exact hv)
    rw [exec_commitStep h hp t hb hf hc, hring]
    exact congrArg (fun u : State => Host.Outcome.next (State.progress it.stream (u.startDraft n))) hpoison
  · exact propose_of_off hi hb hlive hd hc ((advance_stream t s _).trans hx) (by rw [advance_vocabs]; exact hv) hm ht

end Sys2Proof.Safety
end

section
/-! PROOFS. Release times: what an item's row does before and at its time, and the run end's (R4, R63 to R68, R217, R222, R223). -/

namespace Sys2Proof.Safety

open Sys2Proof.Machine

/-- A RELEASE_IN is one flit, with its fields where Table 3.6 has them. -/
theorem releaseIn_wire (r : ReleaseIn) (dom : Nat) : (r.wire dom).length = 64 ∧ slice (r.wire dom) 0x10 2 = leBytes 2 r.stream ∧
    slice (r.wire dom) 0x12 2 = leBytes 1 r.status ++ leBytes 1 r.disp ∧ slice (r.wire dom) 0x14 1 = leBytes 1 (r.verdict + 128 * b2n r.late) ∧
    slice (r.wire dom) 0x16 2 = leBytes 2 r.tag ∧ slice (r.wire dom) 0x18 4 = leBytes 4 r.seq ∧ slice (r.wire dom) 0x38 8 = leBytes 8 r.stamp := by
  simp only [ReleaseIn.wire, shaftHeader, leBytes, zeros, slice, List.replicate, List.cons_append, List.nil_append]
  refine ⟨rfl, ?_, ?_, ?_, ?_, ?_, ?_⟩
  all_goals
    simp only [List.drop, List.take]
    rfl

/-! ### The row of an item's release time -/

section Release
variable {w : State} {n : Nat} {it : Item}

theorem releaseRow_of {chunk : Bool} (hi : w.item n = some it) (hc : it.isChunk = chunk) :
    w.releaseRow chunk n = if it.owned then (w.releaseTime n it).progress it.stream else w.releaseTime n it := by
  unfold State.releaseRow
  simp only [hi, hc, bne_self_eq_false, Bool.false_eq_true, if_false]

theorem releaseTime_before (h : w.count < it.due) : w.releaseTime n it = w :=
  if_pos (.inr (.inr (.inr h)))

/-- What the row of a release time tests first: the item is neither answered nor already late, and its time has come. -/
def comes (w : State) (it : Item) : Prop := it.answered = false ∧ it.overdue = false ∧ it.waits = none ∧ it.due ≤ w.count

theorem comes.not_stopped (h : comes w it) : ¬(it.answered ∨ it.overdue ∨ it.waits.isSome ∨ w.count < it.due) := by
  obtain ⟨h1, h2, h3, h4⟩ := h
  simp [h1, h2, h3, Nat.not_lt.mpr h4]

/-- A refused item that no stream owns is answered plainly (R69). -/
theorem releaseTime_refused {e : Nat} (h : comes w it) (hr : it.refused = some e) (ho : it.owned = false) :
    w.releaseTime n it = w.plainAnswer n it := by
  have hplain : it.plain = true := by rw [Item.plain, hr]; rfl
  have horder : w.inOrder n it = true := by rw [State.inOrder, ho]; rfl
  unfold State.releaseTime
  rw [if_neg h.not_stopped]
  simp only [hplain, horder, ho, Bool.true_or, Bool.false_and, Bool.false_eq_true, if_false, if_true, Bool.not_true]

/-- An item in its turn is answered by its verdict, or by its late policy (R66, R67). -/
theorem releaseTime_of_head (h : comes w it) (hp : it.plain = false) (hb : ∀ b, it.body = .chunk b → b.pfx = false)
    (hh : w.atHead it.stream n = true) (hz : w.poisoned = []) (hs : w.seamPoison = []) :
    w.releaseTime n it = if it.final.isSome ∧ !w.awaits it.entry.ctx then w.finalAnswer n it false else w.latePolicy n it := by
  have hmeet (f : State → State) : w.answerOr n it f = f w := by
    unfold State.answerOr
    rw [meet_none hz hs]
  unfold State.releaseTime
  rw [if_neg h.not_stopped]
  cases hbody : it.body with
  | chunk b => simp only [hp, hb b hbody, hh, hmeet, Bool.or_self, Bool.false_eq_true, if_false, Bool.not_true]
  | cand b => simp only [hp, hh, hmeet, Bool.or_self, Bool.false_eq_true, if_false, Bool.not_true]

/-- An item behind one that is unanswered waits (R67). -/
theorem releaseTime_behind (h : comes w it) (hp : it.plain = false) (hb : ∀ b, it.body = .chunk b → b.pfx = false)
    (hh : w.atHead it.stream n = false) : w.releaseTime n it = w.waitBehind n it := by
  unfold State.releaseTime
  rw [if_neg h.not_stopped]
  cases hbody : it.body with
  | chunk b => simp only [hp, hb b hbody, hh, Bool.or_self, Bool.false_eq_true, if_false, Bool.not_false, if_true]
  | cand b => simp only [hp, hh, Bool.or_self, Bool.false_eq_true, if_false, Bool.not_false, if_true]

theorem plainIn_of_refused {b : ChunkBody} {e : Nat} (hi : w.item n = some it) (hr : it.refused = some e) (ho : it.owned = false) :
    w.plainIn n it b = { w.sendIn it { it.releaseIn b w.count with status := e } with items := tdel w.items n } := by
  unfold State.plainIn
  simp only [hr, ho, Bool.and_false, Bool.false_eq_true, if_false]
  exact drop_refused (handOff_items _ _) hi hr ho

theorem plainOut_of_refused {b : CandBody} {e : Nat} (hi : w.item n = some it) (hr : it.refused = some e) (ho : it.owned = false) :
    w.plainOut n it b = { w.sendOut it { it.releaseOut b it.entry.commitPtr 0 w.count with status := e, round := 0 } with items := tdel w.items n } := by
  unfold State.plainOut
  simp only [hr, ho, Bool.not_false, if_true, Option.getD_some]
  exact drop_refused (handOff_items _ _) hi hr ho

theorem plainAnswer_chunk {b : ChunkBody} (hb : it.body = .chunk b) : w.plainAnswer n it = w.plainIn n it b := by
  unfold State.plainAnswer
  rw [hb]

theorem plainAnswer_cand {b : CandBody} (hb : it.body = .cand b) : w.plainAnswer n it = w.plainOut n it b := by
  unfold State.plainAnswer
  rw [hb]
end Release

/-- With nothing due ahead on its port, nothing is handed off first (R222). -/
theorem handFirst_of_none {w : State} {port due : Nat} {key : List Nat} (h : w.dueBefore port due key = []) : w.handFirst port due key = w := by
  rw [State.handFirst, h, List.foldl_nil]

/-! ### The rows -/

section Rows
variable {s : State} {n : Nat} {it : Item} (h : Ready s) (hi : s.item n = some it) (t : Nat)
include h hi

theorem exec_chunkReleaseTime (hc : it.isChunk = true) :
    exec (.chunkReleaseTime t n) s = .next
      (if it.owned then ((s.advance t).releaseTime n it).progress it.stream else (s.advance t).releaseTime n it) :=
  congrArg Host.Outcome.next ((run_of_ready h t _).trans (releaseRow_of ((advance_item t s n).trans hi) hc))

theorem exec_candidatesReleaseTime_before (hc : it.isChunk = false) (hd : (s.advance t).count < it.due) :
    exec (.candidatesReleaseTime t n) s = .next ((s.advance t).releaseRow false n) := by
  refine congrArg Host.Outcome.next ((run_of_ready h t _).trans ?_)
  simp only [advance_item, hi, hc, hd, or_true, if_true]

theorem exec_candidatesReleaseTime_due (hc : it.isChunk = false) (hd : it.due ≤ (s.advance t).count) :
    exec (.candidatesReleaseTime t n) s =
      .next (((s.advance t).handFirst it.port it.due [it.stamp, it.stream]).releaseRow false n) := by
  refine congrArg Host.Outcome.next ((run_of_ready h t _).trans ?_)
  simp only [advance_item, hi, hc, Nat.not_lt.mpr hd, or_self, Bool.false_eq_true, if_false]

theorem exec_candidatesReleaseTime (hc : it.isChunk = false) (hd : it.due ≤ (s.advance t).count)
    (hb : (s.advance t).dueBefore it.port it.due [it.stamp, it.stream] = []) :
    exec (.candidatesReleaseTime t n) s = .next
      (if it.owned then ((s.advance t).releaseTime n it).progress it.stream else (s.advance t).releaseTime n it) := by
  rw [exec_candidatesReleaseTime_due h hi t hc hd, handFirst_of_none hb]
  exact congrArg Host.Outcome.next (releaseRow_of ((advance_item t s n).trans hi) hc)
end Rows

section RunEnds
variable {s : State} {n : Nat} {x : Machine.Stream} (h : Ready s) (hx : s.stream n = some x) (t : Nat)
include h hx

theorem exec_runEnd_none (hr : x.runEnd = none) : exec (.runEnd t n) s = .next (s.advance t) := by
  refine congrArg Host.Outcome.next ((run_of_ready h t _).trans ?_)
  simp only [advance_stream, hx, hr, State.runEndRow, State.tryRunEnd]

/-- A run end leaves once the items before it are answered (R217). -/
theorem exec_runEnd {r : RunEnd} (hr : x.runEnd = some r) (hs : r.shown = true) (hc : r.carrier = none) (hd : r.due ≤ (s.advance t).count)
    (ha : s.awaits x.e.ctx = false) (hb : ∀ p ∈ s.before n r.before, p.2.isChunk = true ∨ p.2.answered = true)
    (hq : (s.advance t).dueBefore (s.releasePort x) r.due [r.stamp, n] = []) :
    exec (.runEnd t n) s = .next (State.progress n ((s.advance t).sendRunEnd n x r)) := by
  have hport : (s.advance t).releasePort x = s.releasePort x := of_advance t s (fun v => v.releasePort x) fun _ => rfl
  have hawait : (s.advance t).awaits x.e.ctx = s.awaits x.e.ctx := of_advance t s (fun v => v.awaits x.e.ctx) fun _ => rfl
  have hbefore : (s.advance t).before n r.before = s.before n r.before := of_advance t s (fun v => v.before n r.before) fun _ => rfl
  have hall : ((s.before n r.before).all fun p => p.2.isChunk || p.2.answered) = true :=
    List.all_eq_true.mpr fun p hp => Bool.or_eq_true_iff.mpr (hb p hp)
  refine congrArg Host.Outcome.next ((run_of_ready h t _).trans ?_)
  simp only [advance_stream, hx, hr, Nat.not_lt.mpr hd, if_false, hport, handFirst_of_none hq, State.runEndRow, State.tryRunEnd, hs, hawait, ha, hc,
    Option.isNone_none, hd, hbefore, hall, Bool.not_false, and_self, if_true]
end RunEnds

/-- Settles O11: each row of a release time, by whether the time has come and whether the item is in its turn. -/
theorem releaseTimeRows : Obligations.ReleaseTimeRows := by
  unfold Obligations.ReleaseTimeRows
  refine ⟨?_, releaseIn_wire⟩
  rintro t n s w h rfl
  have hhead (it : Item) : (s.advance t).atHead it.stream n = s.atHead it.stream n := of_advance t s (fun v => v.atHead it.stream n) fun _ => rfl
  have hawait (c : Nat) : (s.advance t).awaits c = s.awaits c := of_advance t s (fun v => v.awaits c) fun _ => rfl
  refine ⟨fun it hi hd => ⟨fun hc => ?_, fun hc => ?_⟩, fun it hdue hd hh hz hs => ?_, fun it hdue hd hh hc => ?_,
    fun it hi hc hd => exec_candidatesReleaseTime_due h hi t hc hd, fun it b e hi hb hr ho h1 h2 h3 hd => ?_,
    fun it b e hi hb hr ho h1 h2 h3 hd hq => ?_, fun x r hx hr hs hc hd ha hb hq => exec_runEnd h hx t hr hs hc hd ha hb hq,
    fun x hx hr => exec_runEnd_none h hx t hr⟩
  · rw [exec_chunkReleaseTime h hi t hc, releaseTime_before hd]
  · rw [exec_candidatesReleaseTime_before h hi t hc hd, releaseRow_of ((advance_item t s n).trans hi) hc, releaseTime_before hd]
  · obtain ⟨hi, ho, hp, h1, h2, h3, hb⟩ := hdue
    have hrel := releaseTime_of_head (w := s.advance t) ⟨h1, h2, h3, hd⟩ hp hb ((hhead it).trans hh) ((advance_poisoned t s).trans hz)
      ((advance_seamPoison t s).trans hs)
    have hchunk (hc : it.isChunk = true) := exec_chunkReleaseTime h hi t hc
    have hcand (hc : it.isChunk = false) := exec_candidatesReleaseTime h hi t hc hd
    rw [hrel, if_pos ho] at hchunk hcand
    refine ⟨fun hf ha => ?_, fun hf => ?_⟩
    · have hfin : (it.final.isSome = true ∧ (!(s.advance t).awaits it.entry.ctx) = true) := ⟨Option.isSome_iff_ne_none.mpr hf, by rw [hawait, ha]; rfl⟩
      rw [if_pos hfin] at hchunk hcand
      exact ⟨fun hc => (hchunk hc).trans (by rw [State.finalAnswer, if_pos hc]),
        fun hc hq => (hcand hc hq).trans (by rw [State.finalAnswer, hc]; rfl)⟩
    · rw [hf, if_neg (by rintro ⟨hc, -⟩; cases hc)] at hchunk hcand
      exact ⟨fun hc => (hchunk hc).trans (by rw [State.latePolicy, if_pos hc]),
        fun hc hq => (hcand hc hq).trans (by rw [State.latePolicy, hc]; rfl)⟩
  · obtain ⟨hi, ho, hp, h1, h2, h3, hb⟩ := hdue
    rw [exec_chunkReleaseTime h hi t hc, if_pos ho, releaseTime_behind ⟨h1, h2, h3, hd⟩ hp hb ((hhead it).trans hh)]
  · have hitems : (s.advance t).items = s.items := of_advance t s State.items fun _ => rfl
    rw [exec_chunkReleaseTime h hi t (isChunk_of hb), ho, if_neg Bool.false_ne_true, releaseTime_refused ⟨h1, h2, h3, hd⟩ hr ho,
      plainAnswer_chunk hb, plainIn_of_refused ((advance_item t s n).trans hi) hr ho, hitems]
  · have hitems : (s.advance t).items = s.items := of_advance t s State.items fun _ => rfl
    rw [exec_candidatesReleaseTime h hi t (isChunk_not hb) hd hq, ho, if_neg Bool.false_ne_true, releaseTime_refused ⟨h1, h2, h3, hd⟩ hr ho,
      plainAnswer_cand hb, plainOut_of_refused ((advance_item t s n).trans hi) hr ho, hitems]

end Sys2Proof.Safety
end

section
/-! PROOFS. Packets at their stamps: CHUNK, CANDIDATES, TAP (R54, R69, R157, R158, R161, R196, R197, R414). -/

namespace Sys2Proof.Safety

open Sys2Proof.Machine

/-! ### A packet that has been taken -/

/-- What a packet's arrival does not move is as it was. -/
theorem of_taken {α : Type} (s : State) (t port : Nat) (p : Bytes) (f : State → α)
    (h : ∀ n pw la sh cr, f { s with count := n, power := pw, lastActivity := la, shaft := sh, credits := cr } = f s) : f (taken s t port p) = f s := by
  obtain ⟨n, pw, hw, -⟩ := windowed_eq s t
  unfold taken
  rw [hw]
  dsimp only
  split
  · exact h _ _ _ _ _
  · exact h _ _ _ _ _

theorem taken_stream (s : State) (t port : Nat) (p : Bytes) (sid : Nat) : (taken s t port p).stream sid = s.stream sid :=
  of_taken s t port p (fun v => v.stream sid) fun _ _ _ _ _ => rfl

theorem item_addItem (it : Item) (s : State) : (s.addItem it).item s.nextItem = some it := tget_tset_self _ _ _

/-- A packet for a stream that is not there leaves nothing to go on with. -/
theorem progress_addItem_none {s : State} {sid : Nat} (h : s.stream sid = none) (it : Item) : State.progress sid (s.addItem it) = s.addItem it :=
  progress_none (s := s.addItem it) h

section Rows
variable {s : State} {port : Nat} {p : Bytes} (t : Nat)

theorem exec_chunk (h : Arrives s port 2 p) :
    exec (.chunk t port p) s = .next (State.progress (ChunkPkt.of p).stream ((taken s t port p).takeChunk (s.portDomain port) port p)) :=
  congrArg Host.Outcome.next (inbound_of h (by decide) t _)

theorem exec_candidates (h : Arrives s port 5 p) :
    exec (.candidates t port p) s = .next (State.progress (CandPkt.of p).stream ((taken s t port p).takeCandidates (s.portDomain port) port p)) :=
  congrArg Host.Outcome.next (inbound_of h (by decide) t _)

theorem exec_tap (h : Arrives s port 4 p) :
    exec (.tap t port p) s = .next (State.progress (TapPkt.of p).stream ((taken s t port p).receiveTap (s.portDomain port) p)) :=
  congrArg Host.Outcome.next (inbound_of h (by decide) t _)
end Rows

/-! ### CHUNK -/

/-- The item that answers a packet of a stream the sender does not own (R69): kept to be answered with a code. -/
def foreignItem (sid port dom stamp delay tag code : Nat) (body : ItemBody) : Item :=
  { Item.new sid port dom stamp delay tag [] (Entry.admitted (AdmitReq.ofPacket dom port []) 0 [] [] none false false) body with
    owned := false, refused := some code }

section Chunks
variable {v : State} {dom port : Nat} {p : Bytes}

/-- The body a CHUNK brings, at the stream's intake. -/
abbrev chunkBody (p : Bytes) (x : Machine.Stream) : ChunkBody := ChunkBody.new (ChunkPkt.of p) x.intakePos x.screen

/-- The item a CHUNK brings to a stream of its own domain, under the pins it follows (R17, R20). -/
def chunkItem (v : State) (dom port : Nat) (p : Bytes) (x : Machine.Stream) : Item :=
  Item.new (ChunkPkt.of p).stream port dom v.count (setting (v.ctx x.e.ctx).settings Setting.dC) (ChunkPkt.of p).tag (v.ctx x.e.ctx).settings
    (if x.e.follow then { x.e with imagePins := (v.followPins x.e).1, adapterPins := (v.followPins x.e).2 } else x.e) (.chunk (chunkBody p x))

theorem takeChunk_of_none (h : v.stream (ChunkPkt.of p).stream = none) :
    v.takeChunk dom port p = v.addItem (foreignItem (ChunkPkt.of p).stream port dom v.count 15000 (ChunkPkt.of p).tag E.state
      (.chunk (ChunkBody.new (ChunkPkt.of p) 0 Screen.empty))) := by
  unfold State.takeChunk
  dsimp only
  rw [h]
  rfl

variable {x : Machine.Stream} (hx : v.stream (ChunkPkt.of p).stream = some x) (hf : x.e.state ≠ .free)
include hx hf

theorem takeChunk_of_foreign (hd : x.e.domain ≠ dom) :
    v.takeChunk dom port p = v.addItem (foreignItem (ChunkPkt.of p).stream port dom v.count 15000 (ChunkPkt.of p).tag E.context
      (.chunk (ChunkBody.new (ChunkPkt.of p) 0 Screen.empty))) := by
  unfold State.takeChunk
  simp only [hx, hf, hd, if_false, ne_eq, not_false_eq_true, if_true]
  rfl

theorem takeChunk_of_good (hd : x.e.domain = dom)
    (hc : v.chunkCheck x (ChunkPkt.of p) v.nextItem (chunkItem v dom port p x) (chunkBody p x) = 0) (hb : x.badRestore = false) :
    v.takeChunk dom port p = ((v.followMove (ChunkPkt.of p).stream).firstHot (ChunkPkt.of p).stream).acceptChunk (ChunkPkt.of p).stream
      (chunkItem v dom port p x) (chunkBody p x) := by
  subst hd
  unfold chunkItem chunkBody at *
  unfold State.takeChunk
  simp only [hx, hf, if_false, ne_eq, not_true_eq_false, hc, hb, Bool.false_eq_true]

theorem takeChunk_of_bad {e : Nat} (hd : x.e.domain = dom)
    (hc : v.chunkCheck x (ChunkPkt.of p) v.nextItem (chunkItem v dom port p x) (chunkBody p x) = e) (he : e ≠ 0)
    (hl : (x.e.state.live && v.expired x.e) = false) :
    v.takeChunk dom port p = v.addItem { chunkItem v dom port p x with refused := some e } := by
  subst hd
  unfold chunkItem chunkBody at *
  unfold State.takeChunk
  simp only [hx, hf, if_false, ne_eq, not_true_eq_false, hc, he, not_false_eq_true, if_true, hl, Bool.false_eq_true]

theorem takeChunk_of_badRestore (hd : x.e.domain = dom)
    (hc : v.chunkCheck x (ChunkPkt.of p) v.nextItem (chunkItem v dom port p x) (chunkBody p x) = 0) (hb : x.badRestore = true) :
    v.takeChunk dom port p = (v.modStream (ChunkPkt.of p).stream fun x => { x.handleLost with badRestore := false }).addItem
      { chunkItem v dom port p x with refused := some E.handle, handleStatus := hsBad } := by
  subst hd
  unfold chunkItem chunkBody at *
  unfold State.takeChunk
  simp only [hx, hf, if_false, ne_eq, not_true_eq_false, hc, hb, if_true]
end Chunks

/-- Ending the run of a stream in INTAKE, and turning it there, leaves it in INTAKE. -/
theorem intake_kept {w : State} {sid due reason : Nat} {y : Machine.Stream} (hy : w.stream sid = some y) (hi : y.e.state = .intake) :
    ∃ l, ((w.modEntry sid fun e => if e.phase = .admitted then e.turn .intake else e).endRun sid due reason none).modEntry sid
      (fun e => if e.phase = .generating then e.turn .intake else e) = { w with streams := l } ∧ tget l sid = some y := by
  have hphase : y.e.phase = .intake := by
    rw [Entry.phase, hi]
    rfl
  have h1 : (w.modEntry sid fun e => if e.phase = .admitted then e.turn .intake else e).stream sid = some y := by
    rw [stream_modE hy, hphase]
    rfl
  have h2 : ((w.modEntry sid fun e => if e.phase = .admitted then e.turn .intake else e).endRun sid due reason none).stream sid = some y := by
    obtain ⟨l, hl, h⟩ := endRun_noop (due := due) (reason := reason) none h1 (by rw [hphase]; decide)
    rw [hl]
    exact h
  have h3 := stream_modE h2 fun e => if e.phase = .generating then e.turn .intake else e
  rw [hphase] at h3
  exact ⟨_, rfl, h3⟩

/-- A chunk that is not of verified input takes the next positions of a stream in INTAKE (R54). -/
theorem acceptChunk_of_intake {s : State} {sid : Nat} {it : Item} {b : ChunkBody} {x : Machine.Stream} (hx : s.stream sid = some x) (hp : b.pfx = false)
    (hi : x.e.state = .intake) (hm : x.e.prefixMode = 0) :
    ∃ (v : State) (k : Item) (y : Machine.Stream), s.acceptChunk sid it b = v.addItem k ∧ v = { s with streams := v.streams } ∧
      k.stamp = it.stamp ∧ k.due = it.due ∧ k.refused = it.refused ∧
      k.body = .chunk { b with start := x.intakePos, stop := x.intakePos + b.count, relStart := x.intakePos } ∧
      v.stream sid = some y ∧ y.intakePos = x.intakePos + b.count ∧ y.nextSeq = (x.nextSeq + 1) % 2 ^ 32 ∧ y.e.lastStamp = s.count := by
  have h0 := stream_mod hx fun x => { x with e := { x.e with lastStamp := s.count }, lastActive := s.count }
  have hpre : (((s.modStream sid fun x => { x with e := { x.e with lastStamp := s.count }, lastActive := s.count }).stream sid).any
      fun x => x.e.prefixMode == 2 && x.e.restoring) = false := by
    rw [h0, Option.any_some, hm]
    rfl
  obtain ⟨l, hl, h3⟩ := intake_kept (due := s.count + it.setting Setting.dG) (reason := 13) h0 hi
  unfold State.acceptChunk
  extract_lets s0 s1 s2 s3
  have hs1 : s1 = s0.modEntry sid fun e => if e.phase = .admitted then e.turn .intake else e := if_neg (by rw [hpre]; decide)
  have hs3 : s3 = { s with streams := l } := by
    simp only [s3, s2, hs1]
    exact hl
  have hx3 : s3.stream sid = some { x with e := { x.e with lastStamp := s.count }, lastActive := s.count } := by
    rw [hs3]
    exact h3
  clear_value s3
  rw [if_neg (show ¬b.pfx = true by rw [hp]; decide), hx3]
  dsimp only
  exact ⟨_, _, _, rfl, by rw [hs3]; rfl, rfl, rfl, rfl, rfl, stream_mod (stream_mod hx3 _) _, rfl, rfl, rfl⟩

/-! ### CANDIDATES -/

section Candidates
variable {v : State} {dom port : Nat} {p : Bytes}

/-- The item a CANDIDATES brings to a stream of its own domain. -/
def candItem (v : State) (dom port : Nat) (p : Bytes) (x : Machine.Stream) : Item :=
  Item.new (CandPkt.of p).stream port dom v.count (setting (v.ctx x.e.ctx).settings Setting.dG) (CandPkt.of p).tag (v.ctx x.e.ctx).settings x.e
    (.cand (CandBody.new (CandPkt.of p)))

theorem takeCandidates_of_none (h : v.stream (CandPkt.of p).stream = none) :
    v.takeCandidates dom port p = v.addItem (foreignItem (CandPkt.of p).stream port dom v.count 200 (CandPkt.of p).tag E.state
      (.cand (CandBody.new (CandPkt.of p)))) := by
  unfold State.takeCandidates
  dsimp only
  rw [h]
  rfl

variable {x : Machine.Stream} (hx : v.stream (CandPkt.of p).stream = some x) (hf : x.e.state ≠ .free)
include hx hf

theorem takeCandidates_of_foreign (hd : x.e.domain ≠ dom) :
    v.takeCandidates dom port p = v.addItem (foreignItem (CandPkt.of p).stream port dom v.count 200 (CandPkt.of p).tag E.context
      (.cand (CandBody.new (CandPkt.of p)))) := by
  unfold State.takeCandidates
  simp only [hx, hf, hd, if_false, ne_eq, not_false_eq_true, if_true]
  rfl

theorem takeCandidates_of_good (hd : x.e.domain = dom) (hc : v.candCheck x (CandPkt.of p) = 0) :
    v.takeCandidates dom port p = v.acceptCand (candItem v dom port p x) (CandPkt.of p) := by
  subst hd
  unfold candItem
  unfold State.takeCandidates
  simp only [hx, hf, if_false, ne_eq, not_true_eq_false, hc, if_true]

theorem takeCandidates_of_bad {e : Nat} (hd : x.e.domain = dom) (hc : v.candCheck x (CandPkt.of p) = e) (he : e ≠ 0)
    (hl : v.expired x.e = false) :
    v.takeCandidates dom port p = v.addItem { candItem v dom port p x with refused := some e } := by
  subst hd
  unfold candItem
  unfold State.takeCandidates
  simp only [hx, hf, if_false, ne_eq, not_true_eq_false, hc, he, hl, Bool.and_false, Bool.false_eq_true]
end Candidates

theorem firstHot_nextItem (sid : Nat) (s : State) : (s.firstHot sid).nextItem = s.nextItem := by
  unfold State.firstHot
  split
  · rfl
  · split <;> rfl

/-- An accepted CANDIDATES is kept under the next number with its stamp and its release time. -/
theorem acceptCand_item (it : Item) (c : CandPkt) (s : State) :
    ∃ k, (s.acceptCand it c).item s.nextItem = some k ∧ k.stamp = it.stamp ∧ k.due = it.due ∧ k.refused = it.refused ∧ k.body = it.body := by
  unfold State.acceptCand
  extract_lets s1 s2 vs
  have hn : (s2.modStream c.stream (Stream.giveTrail s2.nextItem)).nextItem = s.nextItem := by
    simp only [s2, s1, State.ctxCountBy, State.modStream_nextItem, State.modCtx_nextItem, firstHot_nextItem]
  clear_value vs
  generalize s2.modStream c.stream (Stream.giveTrail s2.nextItem) = w at hn
  rw [← hn]
  exact ⟨_, item_addItem _ w, rfl, rfl, rfl, rfl⟩

/-! ### TAP -/

/-- What one slot's calibration leaves: the norms, and the slot with its mark. -/
def calSlot (dom : Nat) (a : State × List (TapSlot × Bool)) (v : TapSlot) : State × List (TapSlot × Bool) :=
  ({ a.1 with norms := tset a.1.norms (normKey dom v.slot) ((a.1.norm dom v.slot).cal v).1 }, a.2 ++ [(v, ((a.1.norm dom v.slot).cal v).2)])

theorem foldl_calSlot_norms (dom : Nat) (l : List TapSlot) (a : State × List (TapSlot × Bool)) :
    ∃ n, (l.foldl (calSlot dom) a).1 = { a.1 with norms := n } := by
  induction l generalizing a with
  | nil => exact ⟨_, rfl⟩
  | cons v l ih =>
    obtain ⟨n, hn⟩ := ih (calSlot dom a v)
    exact ⟨n, hn⟩

theorem foldl_calSlot_slots (dom : Nat) (l : List TapSlot) (a : State × List (TapSlot × Bool)) :
    (l.foldl (calSlot dom) a).2.map (·.1) = a.2.map (·.1) ++ l := by
  induction l generalizing a with
  | nil => simp
  | cons v l ih => simp [ih, calSlot]

/-- Calibration draws on the norms alone. -/
theorem calTap_norms (dom : Nat) (c : TapPkt) (s : State) : ∃ n, (s.calTap dom c).1 = { s with norms := n } :=
  foldl_calSlot_norms dom c.slots (s, [])

theorem calTap_slots (dom : Nat) (c : TapPkt) (s : State) : (s.calTap dom c).2.map (·.1) = c.slots :=
  foldl_calSlot_slots dom c.slots (s, [])

section Taps
variable {v : State} {dom : Nat} {p : Bytes}

theorem receiveTap_of_none (h : v.stream (TapPkt.of p).stream = none) :
    v.receiveTap dom p = if (TapPkt.of p).bad then v else (v.calTap dom (TapPkt.of p)).1 := by
  unfold State.receiveTap
  dsimp only
  rw [h]

variable {x : Machine.Stream} (hx : v.stream (TapPkt.of p).stream = some x) (hf : x.e.state ≠ .free)
include hx hf

theorem receiveTap_of_foreign (hd : x.e.domain ≠ dom) : v.receiveTap dom p = v.domCount dom Cnt.tapForeign := by
  unfold State.receiveTap
  simp only [hx, hf, hd, ne_eq, not_false_eq_true, and_self, if_true]

theorem receiveTap_of_bad (hd : x.e.domain = dom) (hb : (TapPkt.of p).bad = true) :
    v.receiveTap dom p = v.ctxCount x.e.ctx Cnt.tapFormat := by
  unfold State.receiveTap
  simp only [hx, hf, hd, hb, ne_eq, not_true_eq_false, and_false, if_false, Bool.true_or, if_true]

/-- A TAP whose slots have the lengths the context's probes read is calibrated, then taken (R157, R161). -/
theorem receiveTap_of_good (hd : x.e.domain = dom) (hb : (TapPkt.of p).bad = false)
    (hl : ∀ a ∈ (TapPkt.of p).slots, ∀ q ∈ tapLengths ((v.ctx x.e.ctx).probeModels x.e.imagePins), q.1 = a.slot → q.2 = a.len) :
    v.receiveTap dom p = (v.calTap dom (TapPkt.of p)).1.takeTap dom (TapPkt.of p) (v.calTap dom (TapPkt.of p)).2 := by
  have hlen : ((TapPkt.of p).slots.any fun a =>
      (tapLengths ((v.ctx x.e.ctx).probeModels x.e.imagePins)).any fun q => q.1 == a.slot && q.2 != a.len) = false := by
    rw [List.any_eq_false]
    intro a ha hq
    obtain ⟨q, hm, hne⟩ := List.any_eq_true.mp hq
    simp only [Bool.and_eq_true, beq_iff_eq, bne_iff_ne] at hne
    exact hne.2 (hl a ha q hm hne.1)
  unfold State.receiveTap
  simp only [hx, hf, hd, hb, hlen, ne_eq, not_true_eq_false, and_false, if_false, Bool.or_self, Bool.false_eq_true]
end Taps

/-- A TAP in the window of a stream that takes it, with no slot there yet and room for it, is staged slot by slot (R157, R158). -/
theorem takeTap_of_window {s : State} {dom : Nat} {c : TapPkt} {vs : List (TapSlot × Bool)} {x : Machine.Stream} (hx : s.stream c.stream = some x)
    (hs : x.e.state = .intake ∨ x.e.state = .generating ∨ x.e.state = .held) (h1 : x.e.commitPtr ≤ c.pos + 1) (h2 : c.pos ≤ x.e.commitPtr + 16)
    (hw : x.probeWait = []) (ht : ∀ k ∈ x.taps, k.pos ≠ c.pos) (hv : vs ≠ [])
    (hr : ∀ f, s.homeFlue x = some f → s.stagedOn f + (vs.map fun q => 64 * tapFlits q.1.len).sum ≤ 1048576) :
    s.takeTap dom c vs = State.startFlues (State.settleProbes c.stream none 1
      (vs.foldl (fun u a => u.stageSlot c.stream dom c.pos a) s)) := by
  have hlive : (!(x.e.state == .intake || x.e.state == .generating || x.e.state == .held)) = false := by
    rcases hs with h | h | h <;> rw [h] <;> rfl
  have hcame (k : Nat) : (x.taps.any fun t => t.pos == c.pos && t.slot == k) = false := by
    rw [List.any_eq_false]
    intro t hm hc
    exact ht t hm (beq_iff_eq.mp (Bool.and_eq_true_iff.mp hc).1)
  have hroom : ((s.homeFlue x).any fun f => decide (1048576 < s.stagedOn f + (vs.map fun q => 64 * tapFlits q.1.len).sum)) = false := by
    cases hf : s.homeFlue x with
    | none => rfl
    | some f => exact decide_eq_false (Nat.not_lt.mpr (hr f hf))
  have hfuel (u : State) : u.probeFuel x = 1 := by
    rw [State.probeFuel, hw]
    rfl
  unfold State.takeTap
  simp only [hx, hlive, hw, List.find?_nil, Option.any_none, Nat.not_lt.mpr h1, Nat.not_lt.mpr h2, Bool.false_eq_true, or_self, if_false, hcame,
    Bool.or_self, Bool.not_false, List.filter_true, if_true, List.isEmpty_eq_false_iff.mpr hv, hroom, hfuel]

/-! ### The rows -/

section Answers
variable {s : State} {port : Nat} {p : Bytes} (t : Nat)

theorem exec_chunk_of_none (h : Arrives s port 2 p) (hx : s.stream (ChunkPkt.of p).stream = none) :
    exec (.chunk t port p) s = .next ((taken s t port p).addItem (foreignItem (ChunkPkt.of p).stream port (s.portDomain port)
      (taken s t port p).count 15000 (ChunkPkt.of p).tag E.state (.chunk (ChunkBody.new (ChunkPkt.of p) 0 Screen.empty)))) := by
  have hv := (taken_stream s t port p _).trans hx
  rw [exec_chunk t h, takeChunk_of_none hv, progress_addItem_none hv]

theorem exec_candidates_of_none (h : Arrives s port 5 p) (hx : s.stream (CandPkt.of p).stream = none) :
    exec (.candidates t port p) s = .next ((taken s t port p).addItem (foreignItem (CandPkt.of p).stream port (s.portDomain port)
      (taken s t port p).count 200 (CandPkt.of p).tag E.state (.cand (CandBody.new (CandPkt.of p))))) := by
  have hv := (taken_stream s t port p _).trans hx
  rw [exec_candidates t h, takeCandidates_of_none hv, progress_addItem_none hv]

theorem exec_tap_of_none (h : Arrives s port 4 p) (hx : s.stream (TapPkt.of p).stream = none) :
    exec (.tap t port p) s = .next (if (TapPkt.of p).bad then taken s t port p
      else ((taken s t port p).calTap (s.portDomain port) (TapPkt.of p)).1) := by
  have hv := (taken_stream s t port p _).trans hx
  rw [exec_tap t h, receiveTap_of_none hv]
  refine congrArg Host.Outcome.next (progress_none ?_)
  obtain ⟨n, hn⟩ := calTap_norms (s.portDomain port) (TapPkt.of p) (taken s t port p)
  rw [hn]
  split <;> exact hv

theorem exec_tap_of_window {x : Machine.Stream} {r : State × List (TapSlot × Bool)} (h : Arrives s port 4 p) (hx : s.stream (TapPkt.of p).stream = some x)
    (hf : x.e.state ≠ .free) (hd : x.e.domain = s.portDomain port) (hb : (TapPkt.of p).bad = false)
    (hr : r = (taken s t port p).calTap (s.portDomain port) (TapPkt.of p))
    (hl : ∀ a ∈ (TapPkt.of p).slots, ∀ q ∈ tapLengths ((s.ctx x.e.ctx).probeModels x.e.imagePins), q.1 = a.slot → q.2 = a.len)
    (hs : x.e.state = .intake ∨ x.e.state = .generating ∨ x.e.state = .held) (h1 : x.e.commitPtr ≤ (TapPkt.of p).pos + 1)
    (h2 : (TapPkt.of p).pos ≤ x.e.commitPtr + 16) (hw : x.probeWait = []) (ht : ∀ k ∈ x.taps, k.pos ≠ (TapPkt.of p).pos)
    (hn : (TapPkt.of p).slots ≠ [])
    (hroom : ∀ f, s.homeFlue x = some f → s.stagedOn f + ((TapPkt.of p).slots.map fun a => 64 * tapFlits a.len).sum ≤ 1048576) :
    exec (.tap t port p) s = .next (State.progress (TapPkt.of p).stream (State.startFlues (State.settleProbes (TapPkt.of p).stream none 1
      (r.2.foldl (fun u a => u.stageSlot (TapPkt.of p).stream (s.portDomain port) (TapPkt.of p).pos a) r.1)))) := by
  subst hr
  have hv := (taken_stream s t port p _).trans hx
  have hctx : (taken s t port p).ctx x.e.ctx = s.ctx x.e.ctx := of_taken s t port p (fun v => v.ctx x.e.ctx) fun _ _ _ _ _ => rfl
  have hflue : (taken s t port p).homeFlue x = s.homeFlue x := of_taken s t port p (fun v => v.homeFlue x) fun _ _ _ _ _ => rfl
  have hstaged (f : Nat) : (taken s t port p).stagedOn f = s.stagedOn f := of_taken s t port p (fun v => v.stagedOn f) fun _ _ _ _ _ => rfl
  rw [exec_tap t h, receiveTap_of_good hv hf hd hb (by rw [hctx]; exact hl)]
  have hslots := calTap_slots (s.portDomain port) (TapPkt.of p) (taken s t port p)
  obtain ⟨m, hm⟩ := calTap_norms (s.portDomain port) (TapPkt.of p) (taken s t port p)
  generalize (taken s t port p).calTap (s.portDomain port) (TapPkt.of p) = r at *
  have hx1 : r.1.stream (TapPkt.of p).stream = some x := by rw [hm]; exact hv
  have hflue1 : r.1.homeFlue x = s.homeFlue x := by rw [hm]; exact hflue
  have hstaged1 (f : Nat) : r.1.stagedOn f = s.stagedOn f := by rw [hm]; exact hstaged f
  refine congrArg (fun u => Host.Outcome.next (State.progress (TapPkt.of p).stream u)) (takeTap_of_window hx1 hs h1 h2 hw ht ?_ fun f hf => ?_)
  · rintro he
    rw [he] at hslots
    exact hn hslots.symm
  · rw [hflue1] at hf
    have hneed : (r.2.map fun q => 64 * tapFlits q.1.len) = (TapPkt.of p).slots.map fun a => 64 * tapFlits a.len := by
      rw [← hslots, List.map_map]
      rfl
    rw [hstaged1, hneed]
    exact hroom f hf
end Answers

/-- Settles O10: a CHUNK, a CANDIDATES and a TAP, by whose stream they name and what their checks answer. -/
theorem packetRows : Obligations.PacketRows := by
  unfold Obligations.PacketRows
  refine ⟨?_, ?_, ?_, ?_⟩
  · rintro t port p s v c h rfl rfl
    refine ⟨fun hx => ⟨_, _, exec_chunk_of_none t h hx, rfl, rfl, rfl, rfl, rfl, rfl⟩, fun x hx hf => ?_⟩
    have hv := (taken_stream s t port p _).trans hx
    refine ⟨fun hd => ⟨_, by rw [exec_chunk t h, takeChunk_of_foreign hv hf hd], rfl, rfl, rfl⟩, ?_⟩
    rintro b it ss hd rfl rfl rfl
    refine ⟨fun hc hb => ?_, fun e hc he hl => ?_, fun hc hb => ?_⟩
    · rw [exec_chunk t h, takeChunk_of_good hv hf hd hc hb]
      rfl
    · rw [exec_chunk t h, takeChunk_of_bad hv hf hd hc he hl]
      rfl
    · have hrow := exec_chunk t h
      rw [takeChunk_of_badRestore hv hf hd hc hb] at hrow
      exact ⟨_, hrow, _, item_addItem _ (State.modStream _ _ _), rfl⟩
  · intro sid it b s x hx hp _ hi hm
    obtain ⟨v, k, y, hu, hv, h1, h2, h3, h4, hy, h5, h6, h7⟩ := acceptChunk_of_intake (it := it) hx hp hi hm
    have hn : v.nextItem = s.nextItem := by rw [hv]
    refine ⟨_, hu, ?_, ⟨k, by rw [← hn]; exact item_addItem k v, h1, h2, h3, h4⟩, y, hy, h5, h6, h7⟩
    rw [hv]
    rfl
  · rintro t port p s v c h rfl rfl
    refine ⟨fun hx => ⟨_, _, exec_candidates_of_none t h hx, rfl, rfl, rfl, rfl, rfl, rfl⟩, fun x hx hf => ?_⟩
    have hv := (taken_stream s t port p _).trans hx
    refine ⟨fun hd => ⟨_, by rw [exec_candidates t h, takeCandidates_of_foreign hv hf hd], rfl, rfl, rfl⟩, ?_⟩
    rintro it ss hd rfl rfl
    refine ⟨fun hc => ⟨?_, ?_⟩, fun e hc he hl => ?_⟩
    · rw [exec_candidates t h, takeCandidates_of_good hv hf hd hc]
      rfl
    · exact acceptCand_item _ _ _
    · rw [exec_candidates t h, takeCandidates_of_bad hv hf hd hc he hl]
      rfl
  · rintro t port p s v c h rfl rfl
    refine ⟨exec_tap_of_none t h, fun x hx hf => ?_⟩
    have hv := (taken_stream s t port p _).trans hx
    refine ⟨fun hd => ?_, fun hd hb => ?_, fun r hd hb hr hl hs h1 h2 hw ht hn hroom =>
      exec_tap_of_window t h hx hf hd hb hr hl hs h1 h2 hw ht hn hroom⟩
    · rw [exec_tap t h, receiveTap_of_foreign hv hf hd]
    · rw [exec_tap t h, receiveTap_of_bad hv hf hd hb]

end Sys2Proof.Safety
end
